-- ==== Sys2Proof/Word.lean ====
section
/-! DEFINITION. The word types of the SQ-3296 and their plainest arithmetic: bytes, 32-bit and 64-bit words, bit
fields numbered as R8 numbers them, and little-endian grouping of bytes (R8). -/

namespace Sys2Proof

/-- One byte. -/
abbrev Byte := BitVec 8
/-- A 32-bit word: one register word of control space (R623). -/
abbrev W32 := BitVec 32
/-- A 64-bit word: a G register, a register pair, a packed operand word. -/
abbrev W64 := BitVec 64

/-- Bits [hi:lo] of `n`, as a number (R8: bit 0 is the least significant). -/
def bitsN (n hi lo : Nat) : Nat := (n >>> lo) % 2 ^ (hi + 1 - lo)

/-- Bit `i` of `n` (R8). -/
def bitN (n i : Nat) : Bool := (n >>> i) % 2 == 1

/-- One bit as a number. -/
def b2n (b : Bool) : Nat := if b then 1 else 0

/-- `n` with bits [hi:lo] replaced by the low bits of `v`. -/
def putBits (n hi lo v : Nat) : Nat :=
  let m := 2 ^ (hi + 1 - lo)
  n - ((n >>> lo) % m) * 2 ^ lo + (v % m) * 2 ^ lo

/-- The number a list of bytes spells, first byte lowest (R8: little-endian). -/
def leNat : List Byte → Nat
  | [] => 0
  | b :: r => b.toNat + 256 * leNat r

/-- The number a list of bytes spells, first byte highest (big-endian layouts: Tables 03-4, 17-7, 17-9). -/
def beNat (l : List Byte) : Nat := l.foldl (fun a b => 256 * a + b.toNat) 0

/-- `n` as `k` bytes, lowest first. -/
def toLe (n : Nat) : Nat → List Byte
  | 0 => []
  | k + 1 => BitVec.ofNat 8 n :: toLe (n / 256) k

/-- `n` as `k` bytes, highest first. -/
def toBe (n k : Nat) : List Byte := (toLe n k).reverse

/-- The `k` bytes at offset `o` of a byte list as a little-endian number; bytes past the end read 0. -/
def leAt (l : List Byte) (o k : Nat) : Nat := leNat ((l.drop o).take k)

/-- `n` read as a two's complement number of `w` bits. -/
def sint (w n : Nat) : Int := if n % 2 ^ w < 2 ^ (w - 1) then ((n % 2 ^ w : Nat) : Int) else ((n % 2 ^ w : Nat) : Int) - 2 ^ w

/-- The two's complement pattern of `i` in `w` bits. -/
def unsint (w : Nat) (i : Int) : Nat := (i % (2 ^ w : Int)).toNat

/-- `i` held between `lo` and `hi`. -/
def clampI (lo hi i : Int) : Int := if i < lo then lo else if hi < i then hi else i

/-- `n` held between `lo` and `hi`. -/
def clampN (lo hi n : Nat) : Nat := if n < lo then lo else if hi < n then hi else n

end Sys2Proof
end

