-- ==== Sys2Proof/Syntax.lean ====
section
/-! DEFINITION. The commands the SQ-3296 takes: one constructor of `Instr` for each row of spec/opcode_table.json, with the row's
operands, and the record types those operands have. A command that is a register write carries its requester (Table
19-8) and the value written; a Berbo command carries the tile that issues it and the fields of its instruction word
(Tables 11-2 and 11-3); an event carries what the outside world brings with it. The
rows stand in the order of the chapters, with those that carry nothing together near the end. -/

namespace Sys2Proof

/-- A tile by logical ID (R24). -/
abbrev TileId := Fin 32
/-- A head port (R10). -/
abbrev PortId := Fin 8
/-- A compute die: 0 for C0, 1 for C1. -/
abbrev DieId := Fin 2
/-- A Drey sector (R178). -/
abbrev SectId := Fin 8
/-- A requester of control space, Table 19-8: 0-7 host cores, 8 external host, 9 SCI debug class, 10 service port. -/
abbrev ReqId := Fin 11

/-- The fields of a control-core instruction word below CLASS and OP, Table 11-3. -/
structure CcArgs where
  pmode : BitVec 2
  pred : BitVec 3
  rd : BitVec 5
  rs1 : BitVec 5
  rs2 : BitVec 5
  imm : BitVec 32
  deriving DecidableEq, Repr

/-- The fields of a unit instruction word below CLASS and OP, Tables 11-2 and 12-1. -/
structure UArgs where
  pmode : BitVec 2
  pred : BitVec 3
  wt : BitVec 4
  wc : BitVec 4
  st : BitVec 4
  se : Bool
  sqs : Bool
  ga : BitVec 5
  gb : BitVec 5
  gc : BitVec 5
  rd : BitVec 5
  imm : BitVec 13
  deriving DecidableEq, Repr

/-- The fields of an SCI message header that its opcode does not fix, Table 15-4. -/
structure SciHdr where
  dst : BitVec 2
  src : BitVec 2
  ackReq : Bool
  size : BitVec 4
  tag : BitVec 16
  status : BitVec 2
  operand : BitVec 64
  deriving DecidableEq, Repr

/-- A link-control record, Table 15-6 (its MAGIC is fixed and its TYPE is the command). -/
structure LinkRec where
  rev : BitVec 8
  vendor : BitVec 16
  device : BitVec 16
  serial : BitVec 64
  classes : BitVec 32
  maxRead : BitVec 8
  hops : BitVec 8
  outstanding : BitVec 16
  mem : BitVec 64
  minPeriod : BitVec 16
  maxPeriod : BitVec 16
  number : BitVec 8
  reason : BitVec 8
  agreed : BitVec 32
  agreedRead : BitVec 8
  leadTime : BitVec 64
  nextBoundary : BitVec 64
  deriving DecidableEq, Repr

/-- Where an uncorrectable SRAM word lies, Table 18-1 (R585). -/
inductive SramClass where
  /-- Tile store, node store, ladder bank, weight bank, accumulator, unit queue or store buffer of a tile. -/
  | tile (t : TileId)
  /-- The Drey directory: the cell of this point of the epoch of this parity. -/
  | dreyDir (parity : Bool) (level : Fin 4) (key : BitVec 64)
  /-- A base-die engine buffer; the frame parity it serves, if any. -/
  | baseBuffer (parity : Option Bool)
  /-- The Halter snapshot bank. -/
  | halterBank
  /-- A slot of the event log. -/
  | eventLog (slot : Fin 4096)
  /-- A word of burrow memory or an LPDDR5X granule, by physical address. -/
  | memory (addr : Nat)
  deriving DecidableEq, Repr

/-- The states and events the SCI training of Table 15-1 reports (R492). -/
inductive TrainEvent where
  | laneDetected (lanes : BitVec 4)
  | sts1 (lanes : BitVec 4)
  | sts2 (width : BitVec 2) (reversed : Bool) (peer32 : Bool) (peerLead : Bool)
  | presetsSettled
  | creditsReceived
  | lockRegained
  deriving DecidableEq, Repr

/-- A command of the SQ-3296: one constructor per row of spec/opcode_table.json. -/
inductive Instr where
  -- register access (19_registers.md)
  | registerWrite (r : ReqId) (off : BitVec 28) (w : Nat) (v : BitVec 64)
  | rcRead (r : ReqId) (off : BitVec 28) (w : Nat) (counted : Bool)
  -- the frame (02_frame.md)
  | framePeriodWrite (r : ReqId) (us : BitVec 32)
  | ingCposeGo (r : ReqId)
  | epochReinReceive (t : TileId) (tag : BitVec 8)
  -- head ports (03_range_heads.md)
  | ethFrameReceive (p : PortId) (fcsOk : Bool) (frame : List Byte)
  | syncTransmit (p : PortId)
  | pdelayReqTransmit (p : PortId)
  | linkUp (p : PortId)
  | linkDown (p : PortId)
  | portVerifyRequest (r : ReqId) (p : PortId) (low : BitVec 4)
  | portUnverifyRequest (r : ReqId) (p : PortId) (low : BitVec 4)
  | portCalCtrlWrite (r : ReqId) (p : PortId) (slot : Bool)
  | portGtimeCtrlWrite (r : ReqId) (v : BitVec 32)
  | litTimeTick (p : PortId)
  | lifeWriteComplete (p : PortId) (nack : Bool) (readBack : BitVec 24)
  -- ingest (04_ingest.md)
  | ingPoseHeadWrite (r : ReqId) (idx : BitVec 8)
  | ingCtrlEnSet (r : ReqId) (ride : Bool)
  | ingCtrlEnClear (r : ReqId) (ride : Bool)
  | rideAheadWrite (r : ReqId) (ride : Bool)
  -- Drey (05_drey.md)
  | sectorClose (parity : Bool) (s : SectId)
  | kernelMapGenerate (parity : Bool) (s : SectId)
  | kernelMapReady (parity : Bool) (s : SectId)
  | dreyLookup (t : TileId)
  | dreySplitWrite (r : ReqId) (level : Fin 4) (v : BitVec 32)
  -- the tile's units (06_tiles.md to 11_berbo_model.md)
  | unitInstructionStart (t : TileId) (q : Fin 8)
  | unitInstructionRetire (t : TileId) (q : Fin 8)
  | handlerEntry (t : TileId)
  | storeBufferAccept (t : TileId) (i : Nat)
  | swapArm (t : TileId) (a : Fin 4)
  | gatherResponse (t : TileId) (i : Nat)
  | prefetchRowLand (t : TileId) (i : Nat)
  | pageWalkEnd (t : TileId)
  | tileWatchdogExpiry (t : TileId)
  | sramUncorrectableError (c : SramClass)
  | tileReset (r : ReqId) (t : TileId)
  | mgmtReturnToService (r : ReqId) (t : TileId) (gen : BitVec 16)
  | mgmtTakeOutOfService (r : ReqId) (t : TileId) (gen : BitVec 16)
  | mgmtReset (r : ReqId) (t : TileId) (gen : BitVec 16)
  | mgmtReleaseQuarantine (r : ReqId) (t : TileId) (gen : BitVec 16)
  | tileSelfTestEnd (t : TileId) (pass : Bool)
  -- the tile scheduler (06_tiles.md)
  | itemComplete (t : TileId)
  | tileWakeComplete (t : TileId)
  | tileClockGate (t : TileId)
  | tileSchedProgWrite (r : ReqId) (b : Bool) (addr : BitVec 64)
  | programCheckEnd (b : Bool)
  | tileSchedSelWrite (r : ReqId) (b : Bool)
  | tileSchedKick (r : ReqId) (idx : BitVec 16)
  -- Hoard shards (09_hoard.md)
  | shardMig (r : ReqId) (tbl : Fin 16) (s : Fin 64) (gen : BitVec 16)
  | shardSwitch (r : ReqId) (tbl : Fin 16) (s : Fin 64) (gen : BitVec 16)
  | shardCancelMig (r : ReqId) (tbl : Fin 16) (s : Fin 64) (gen : BitVec 16)
  | shardSwitchApplied (tbl : Fin 16) (s : Fin 64)
  -- memory, translation, copy engine, PCI Express (13_memory.md)
  | tileTlbInvWrite (r : ReqId) (t : TileId) (v : BitVec 64)
  | tlbInvPendClear (t : TileId)
  | copyHeadWrite (r : ReqId) (c : Fin 4) (v : BitVec 32)
  | copyDescriptorComplete (c : Fin 4) (pcieData : List Byte) (pcieErr : Bool)
  | pcieInboundRequest (bar : BitVec 3) (write : Bool) (addr : Nat) (len : Nat) (data : List Byte)
  -- the die stack and test access (14_stack.md)
  | computeDieBringUp (d : DieId) (trained : BitVec 8)
  | dieAbsent (d : DieId) (cause : BitVec 5)
  | bondFlitReceive (d : DieId) (p : Fin 8) (t : TileId) (dataErr ctlErr : Bool) (tag : Option (BitVec 8))
  | bondTimeout (d : DieId) (tag : Option (BitVec 8))
  | bondTestStart (r : ReqId) (dies : BitVec 2)
  | bondTestDone (fail : BitVec 16) (groups : List (BitVec 7))
  | stackSel (v : BitVec 2)
  | svcRead (w64 : Bool) (off : BitVec 28)
  | svcWrite (w64 : Bool) (off : BitVec 28) (data : BitVec 64)
  -- the Cascade Interface (15_hitch.md)
  | sciEnable (r : ReqId) (p : Fin 2) (rest : BitVec 3)
  | sciTrainingSet (p : Fin 2) (e : TrainEvent)
  | sciStateTimeout (p : Fin 2)
  | sciFlitReceive (p : Fin 2) (flit : List Byte)
  | sciAckTimeout (p : Fin 2)
  | rd (p : Fin 2) (h : SciHdr)
  | wr (p : Fin 2) (h : SciHdr) (data : List Byte)
  | rdr (p : Fin 2) (h : SciHdr) (data : List Byte)
  | wra (p : Fin 2) (h : SciHdr)
  | ownPush (p : Fin 2) (h : SciHdr) (data : List Byte)
  | ownDone (p : Fin 2) (h : SciHdr)
  | ownVer (p : Fin 2) (h : SciHdr)
  | msi (p : Fin 2) (h : SciHdr) (data : List Byte)
  | contrib (p : Fin 2) (h : SciHdr) (data : List Byte)
  | crd (p : Fin 2) (h : SciHdr)
  | cwr (p : Fin 2) (h : SciHdr) (data : List Byte)
  | crr (p : Fin 2) (h : SciHdr) (data : List Byte)
  | cwa (p : Fin 2) (h : SciHdr)
  | cap (p : Fin 2) (l : LinkRec)
  | assign (p : Fin 2) (l : LinkRec)
  | accept (p : Fin 2) (l : LinkRec)
  | refuse (p : Fin 2) (l : LinkRec)
  | time (p : Fin 2) (l : LinkRec) (delay : Nat)
  | detach (p : Fin 2) (l : LinkRec)
  | sciRequestTimeout (p : Fin 2) (tag : BitVec 16)
  | sciTimeSend (p : Fin 2)
  -- Halter (16_halter.md)
  | halterCsFall (port : Bool)
  | poll (port : Bool) (bytes : List Byte)
  | pollWake (port : Bool) (bytes : List Byte)
  | halterMacReady (port : Bool)
  | halterCsRise (port : Bool) (bits : Nat)
  | pairLoad (r : ReqId)
  | pairErase (r : ReqId)
  | pairWrap (r : ReqId)
  | pairUnwrap (r : ReqId)
  -- gaits, resets, boot, identity (17_gaits.md)
  | gaitReqWalk (r : ReqId) (gen : BitVec 16)
  | gaitReqTrot (r : ReqId) (gen : BitVec 16)
  | gaitReqStable (r : ReqId) (gen : BitVec 16)
  | gaitReqNone (r : ReqId) (gen : BitVec 16)
  | gaitRequestApply (coresIdle : Bool)
  | porstNRise (lead testmodeN : Bool) (bootSel : BitVec 2)
  | gaitRstHostCore (r : ReqId)
  | gaitRstPackage (r : ReqId)
  | bootImageCheck (slotB : Bool) (readError : Bool) (image : List Byte)
  | gaitBootDoorbell (r : ReqId)
  | gaitSvnAdv (r : ReqId) (v : BitVec 32)
  | idkSign (r : ReqId)
  | idkEcdh (r : ReqId)
  | gaitIdkLock (r : ReqId)
  | gaitWdog (r : ReqId) (ms : BitVec 32)
  | gaitWdogKick (r : ReqId)
  | tempSample (base c0 c1 : BitVec 10)
  | gaitTimeSet (r : ReqId) (step : BitVec 64)
  | gaitFrmStart (r : ReqId)
  -- events and aliases (18_faults.md, 19_registers.md)
  | evtLogSw (r : ReqId) (code : BitVec 16) (unit : BitVec 8)
  | evtLogFirstWordRead (r : ReqId) (k : Fin 4096) (w64 : Bool)
  | gaitAccLock (r : ReqId) (bits : BitVec 3)
  | aliasWrite (r : ReqId) (off : BitVec 28) (w : Nat) (v : BitVec 64)
  | aliasRead (r : ReqId) (off : BitVec 28) (w : Nat)
  | hitchBroadcastWrite (r : ReqId) (off : BitVec 28) (w : Nat) (v : BitVec 64)
  | hitchBroadcastRead (r : ReqId) (off : BitVec 28) (w : Nat)
  | tileStoreWindowWrite (r : ReqId) (t : TileId) (a : BitVec 22) (w : Nat) (v : BitVec 64)
  | tileStoreWindowRead (r : ReqId) (t : TileId) (a : BitVec 22) (w : Nat)
  -- Berbo, the control core (12_berbo_reference.md)
  | add (t : TileId) (a : CcArgs)
  | sub (t : TileId) (a : CcArgs)
  | and (t : TileId) (a : CcArgs)
  | or (t : TileId) (a : CcArgs)
  | xor (t : TileId) (a : CcArgs)
  | sll (t : TileId) (a : CcArgs)
  | srl (t : TileId) (a : CcArgs)
  | sra (t : TileId) (a : CcArgs)
  | slt (t : TileId) (a : CcArgs)
  | sltu (t : TileId) (a : CcArgs)
  | min (t : TileId) (a : CcArgs)
  | max (t : TileId) (a : CcArgs)
  | mul (t : TileId) (a : CcArgs)
  | mulh (t : TileId) (a : CcArgs)
  | addI (t : TileId) (a : CcArgs)
  | andI (t : TileId) (a : CcArgs)
  | orI (t : TileId) (a : CcArgs)
  | xorI (t : TileId) (a : CcArgs)
  | sllI (t : TileId) (a : CcArgs)
  | srlI (t : TileId) (a : CcArgs)
  | sraI (t : TileId) (a : CcArgs)
  | sltI (t : TileId) (a : CcArgs)
  | liH (t : TileId) (a : CcArgs)
  | ldt (t : TileId) (a : CcArgs)
  | ldtW (t : TileId) (a : CcArgs)
  | stt (t : TileId) (a : CcArgs)
  | sttW (t : TileId) (a : CcArgs)
  | ld (t : TileId) (a : CcArgs)
  | ldW (t : TileId) (a : CcArgs)
  | st (t : TileId) (a : CcArgs)
  | stW (t : TileId) (a : CcArgs)
  | beq (t : TileId) (a : CcArgs)
  | bne (t : TileId) (a : CcArgs)
  | blt (t : TileId) (a : CcArgs)
  | bge (t : TileId) (a : CcArgs)
  | bltu (t : TileId) (a : CcArgs)
  | bgeu (t : TileId) (a : CcArgs)
  | jal (t : TileId) (a : CcArgs)
  | jr (t : TileId) (a : CcArgs)
  | pcmpEq (t : TileId) (a : CcArgs)
  | pcmpNe (t : TileId) (a : CcArgs)
  | pcmpLt (t : TileId) (a : CcArgs)
  | pcmpLtu (t : TileId) (a : CcArgs)
  | pcmpEqI (t : TileId) (a : CcArgs)
  | pcmpLtI (t : TileId) (a : CcArgs)
  | pand (t : TileId) (a : CcArgs)
  | por (t : TileId) (a : CcArgs)
  | pxor (t : TileId) (a : CcArgs)
  | pnot (t : TileId) (a : CcArgs)
  | pset (t : TileId) (a : CcArgs)
  | twait (t : TileId) (a : CcArgs)
  | tsig (t : TileId) (a : CcArgs)
  | tread (t : TileId) (a : CcArgs)
  | fenceSb (t : TileId) (a : CcArgs)
  | fenceSc (t : TileId) (a : CcArgs)
  | fenceU (t : TileId) (a : CcArgs)
  | fenceAll (t : TileId) (a : CcArgs)
  | epochBegin (t : TileId) (a : CcArgs)
  | epochCommit (t : TileId) (a : CcArgs)
  | epochRein (t : TileId) (a : CcArgs)
  | endItem (t : TileId) (a : CcArgs)
  | tsrr (t : TileId) (a : CcArgs)
  | tsrw (t : TileId) (a : CcArgs)
  | tlbInv (t : TileId) (a : CcArgs)
  | resume (t : TileId) (a : CcArgs)
  | abandon (t : TileId) (a : CcArgs)
  -- Berbo, the units
  | mmaP (t : TileId) (a : UArgs)
  | mmaD (t : TileId) (a : UArgs)
  | mmaS (t : TileId) (a : UArgs)
  | mmaW (t : TileId) (a : UArgs)
  | mmaPZ (t : TileId) (a : UArgs)
  | mmaDZ (t : TileId) (a : UArgs)
  | mmaSZ (t : TileId) (a : UArgs)
  | wld (t : TileId) (a : UArgs)
  | wldSp (t : TileId) (a : UArgs)
  | wldSpt (t : TileId) (a : UArgs)
  | swap (t : TileId) (a : UArgs)
  | vadd (t : TileId) (a : UArgs)
  | vsub (t : TileId) (a : UArgs)
  | vmul (t : TileId) (a : UArgs)
  | vmax (t : TileId) (a : UArgs)
  | vmin (t : TileId) (a : UArgs)
  | vand (t : TileId) (a : UArgs)
  | vor (t : TileId) (a : UArgs)
  | vxor (t : TileId) (a : UArgs)
  | vshl (t : TileId) (a : UArgs)
  | vshr (t : TileId) (a : UArgs)
  | vcvt (t : TileId) (a : UArgs)
  | vld (t : TileId) (a : UArgs)
  | vst (t : TileId) (a : UArgs)
  | vbcast (t : TileId) (a : UArgs)
  | vlane (t : TileId) (a : UArgs)
  | vrsum (t : TileId) (a : UArgs)
  | lblSt (t : TileId) (a : UArgs)
  | qexp (t : TileId) (a : UArgs)
  | qcmp (t : TileId) (a : UArgs)
  | qmrgU (t : TileId) (a : UArgs)
  | qmrgI (t : TileId) (a : UArgs)
  | qsort (t : TileId) (a : UArgs)
  | qred (t : TileId) (a : UArgs)
  | gath (t : TileId) (a : UArgs)
  | gathR (t : TileId) (a : UArgs)
  | gathQ8 (t : TileId) (a : UArgs)
  | gathQ4 (t : TileId) (a : UArgs)
  | gathPf (t : TileId) (a : UArgs)
  | hlook (t : TileId) (a : UArgs)
  | scat (t : TileId) (a : UArgs)
  | hpref (t : TileId) (a : UArgs)
  | hupdQ8 (t : TileId) (a : UArgs)
  | hupdQ4 (t : TileId) (a : UArgs)
  | treLdl (t : TileId) (a : UArgs)
  | treLdn (t : TileId) (a : UArgs)
  | treLadder (t : TileId) (a : UArgs)
  | treWalk (t : TileId) (a : UArgs)
  -- two more events of a tile
  | scatterEntryAccept (t : TileId) (i : Nat)
  | deviceLoadReturn (t : TileId) (i : Nat)
  -- events of all chapters that carry nothing
  | frameBoundary
  | lateArrivalWindowClose
  | poseDeadline
  | reinBackStart
  | hoardScatterDiscard
  | dreyEpochInvalidate
  | reinBackRelease
  | commit
  | ingestReturn
  | poseWaitExpiry
  | dreyInsert
  | dreyRetirementScanEnd
  | dreyRepartition
  | bondErrorWindow
  | itemDispatch
  | shardLoadWindow
  | patrolScrub
  | ppsInEdge
  | ppsOutSecond
  | jtagBypass
  | jtagIdcode
  | jtagSamplePreload
  | jtagExtest
  | jtagIntest
  | svcAccessDone
  | contribWaitExpiry
  | hitchBroadcastTimeout
  | wheelAwaitLog
  | gaitRequestRefuse
  | drainComplete
  | trotToWalkDone
  | l2WriteBackDone
  | walkToStableDone
  | stableToWalkDone
  | canWakeNFall
  | wakeTimeReached
  | perstNRise
  | pwrGoodMainRise
  | pwrGoodMainTimeout
  | pwrGoodMainFall
  | refClockLoss
  | powerOnReset
  | resetNAssert
  | resetWake
  | idkCommandDone
  | packageWatchdogExpiry
  | xtalFail
  | xtalEdgesReturn
  -- events of the memory, the clock, the wake pins and the I3C buses
  | i3cHotJoin (bus : Fin 2) (head : Fin 4)
  | i3cInBandInterrupt (bus : Fin 2) (head : Fin 4)
  | refreshRateRead (c : Fin 2) (rate : BitVec 8)
  | dqsOscillatorCheck (c : Fin 2) (drift : BitVec 8)
  | gpioWakeEdge (n : Fin 4) (rising : Bool)
  | xtalCalibrate (corr : Int)
  deriving DecidableEq, Repr

end Sys2Proof
end

