-- ==== Sys2Proof/Decode.lean ====
section
/-! DEFINITION. The words of commands. The opcode table gives no row bits, so `decodeTableWord` names none. The 64-bit instruction
words of Berbo (Tables 11-2, 11-3, 11-4, 12-1 and 12-3), which the spec gives and the table does not, are read and written
here by `berboDecode` and `berboEncode`. -/

namespace Sys2Proof

/-- The command a word spells by the opcode table's bits: the table gives no row any. -/
def decodeTableWord (nbits w : Nat) : Option Instr :=
  match nbits, w with
  | _, _ => none

/-- Bits [49:0] and PMODE of a control-core word, Table 11-3. -/
def readCc (w : W64) : CcArgs :=
  { pmode := w.extractLsb' 50 2, pred := w.extractLsb' 47 3, rd := w.extractLsb' 42 5, rs1 := w.extractLsb' 37 5
    rs2 := w.extractLsb' 32 5, imm := w.extractLsb' 0 32 }

/-- Bits [51:0] of a unit word, Tables 11-2 and 12-1. -/
def readU (w : W64) : UArgs :=
  { pmode := w.extractLsb' 50 2, pred := w.extractLsb' 47 3, wt := w.extractLsb' 43 4, wc := w.extractLsb' 39 4
    st := w.extractLsb' 35 4, se := w.getLsbD 34, sqs := w.getLsbD 33, ga := w.extractLsb' 28 5, gb := w.extractLsb' 23 5
    gc := w.extractLsb' 18 5, rd := w.extractLsb' 13 5, imm := w.extractLsb' 0 13 }

/-- A control-core word, Table 11-3. -/
def wordCc (cls op : BitVec 6) (a : CcArgs) : W64 := cls ++ op ++ a.pmode ++ a.pred ++ a.rd ++ a.rs1 ++ a.rs2 ++ a.imm

/-- A unit word, Tables 11-2 and 12-1. -/
def wordU (cls op : BitVec 6) (a : UArgs) : W64 :=
  cls ++ op ++ a.pmode ++ a.pred ++ a.wt ++ a.wc ++ a.st ++ BitVec.ofBool a.se ++ BitVec.ofBool a.sqs ++ a.ga ++ a.gb ++ a.gc ++ a.rd
    ++ a.imm

/-- CLASS and OP of a control-core mnemonic, with its operands (Table 12-3). -/
def ccWord : Instr → Option (TileId × BitVec 6 × BitVec 6 × CcArgs)
  | .add t a => some (t, 0x01, 0x00, a)
  | .sub t a => some (t, 0x01, 0x01, a)
  | .and t a => some (t, 0x01, 0x02, a)
  | .or t a => some (t, 0x01, 0x03, a)
  | .xor t a => some (t, 0x01, 0x04, a)
  | .sll t a => some (t, 0x01, 0x05, a)
  | .srl t a => some (t, 0x01, 0x06, a)
  | .sra t a => some (t, 0x01, 0x07, a)
  | .slt t a => some (t, 0x01, 0x08, a)
  | .sltu t a => some (t, 0x01, 0x09, a)
  | .min t a => some (t, 0x01, 0x0A, a)
  | .max t a => some (t, 0x01, 0x0B, a)
  | .mul t a => some (t, 0x01, 0x0C, a)
  | .mulh t a => some (t, 0x01, 0x0D, a)
  | .addI t a => some (t, 0x01, 0x10, a)
  | .andI t a => some (t, 0x01, 0x12, a)
  | .orI t a => some (t, 0x01, 0x13, a)
  | .xorI t a => some (t, 0x01, 0x14, a)
  | .sllI t a => some (t, 0x01, 0x15, a)
  | .srlI t a => some (t, 0x01, 0x16, a)
  | .sraI t a => some (t, 0x01, 0x17, a)
  | .sltI t a => some (t, 0x01, 0x18, a)
  | .liH t a => some (t, 0x01, 0x1F, a)
  | .ldt t a => some (t, 0x02, 0x00, a)
  | .ldtW t a => some (t, 0x02, 0x01, a)
  | .stt t a => some (t, 0x02, 0x04, a)
  | .sttW t a => some (t, 0x02, 0x05, a)
  | .ld t a => some (t, 0x02, 0x08, a)
  | .ldW t a => some (t, 0x02, 0x09, a)
  | .st t a => some (t, 0x02, 0x0C, a)
  | .stW t a => some (t, 0x02, 0x0D, a)
  | .beq t a => some (t, 0x03, 0x00, a)
  | .bne t a => some (t, 0x03, 0x01, a)
  | .blt t a => some (t, 0x03, 0x02, a)
  | .bge t a => some (t, 0x03, 0x03, a)
  | .bltu t a => some (t, 0x03, 0x04, a)
  | .bgeu t a => some (t, 0x03, 0x05, a)
  | .jal t a => some (t, 0x03, 0x08, a)
  | .jr t a => some (t, 0x03, 0x09, a)
  | .pcmpEq t a => some (t, 0x04, 0x00, a)
  | .pcmpNe t a => some (t, 0x04, 0x01, a)
  | .pcmpLt t a => some (t, 0x04, 0x02, a)
  | .pcmpLtu t a => some (t, 0x04, 0x03, a)
  | .pcmpEqI t a => some (t, 0x04, 0x08, a)
  | .pcmpLtI t a => some (t, 0x04, 0x0A, a)
  | .pand t a => some (t, 0x04, 0x10, a)
  | .por t a => some (t, 0x04, 0x11, a)
  | .pxor t a => some (t, 0x04, 0x12, a)
  | .pnot t a => some (t, 0x04, 0x13, a)
  | .pset t a => some (t, 0x04, 0x14, a)
  | .twait t a => some (t, 0x05, 0x00, a)
  | .tsig t a => some (t, 0x05, 0x01, a)
  | .tread t a => some (t, 0x05, 0x02, a)
  | .fenceSb t a => some (t, 0x05, 0x08, a)
  | .fenceSc t a => some (t, 0x05, 0x09, a)
  | .fenceU t a => some (t, 0x05, 0x0A, a)
  | .fenceAll t a => some (t, 0x05, 0x0B, a)
  | .epochBegin t a => some (t, 0x06, 0x00, a)
  | .epochCommit t a => some (t, 0x06, 0x01, a)
  | .epochRein t a => some (t, 0x06, 0x02, a)
  | .endItem t a => some (t, 0x07, 0x00, a)
  | .tsrr t a => some (t, 0x07, 0x01, a)
  | .tsrw t a => some (t, 0x07, 0x02, a)
  | .tlbInv t a => some (t, 0x07, 0x03, a)
  | .resume t a => some (t, 0x07, 0x04, a)
  | .abandon t a => some (t, 0x07, 0x05, a)
  | _ => none

/-- CLASS and OP of a unit mnemonic, with its operands (Table 12-3). -/
def unitWord : Instr → Option (TileId × BitVec 6 × BitVec 6 × UArgs)
  | .mmaP t a => some (t, 0x10, 0x00, a)
  | .mmaD t a => some (t, 0x10, 0x01, a)
  | .mmaS t a => some (t, 0x10, 0x02, a)
  | .mmaW t a => some (t, 0x10, 0x03, a)
  | .mmaPZ t a => some (t, 0x10, 0x04, a)
  | .mmaDZ t a => some (t, 0x10, 0x05, a)
  | .mmaSZ t a => some (t, 0x10, 0x06, a)
  | .wld t a => some (t, 0x11, 0x00, a)
  | .wldSp t a => some (t, 0x11, 0x01, a)
  | .wldSpt t a => some (t, 0x11, 0x02, a)
  | .swap t a => some (t, 0x11, 0x03, a)
  | .vadd t a => some (t, 0x14, 0x00, a)
  | .vsub t a => some (t, 0x14, 0x01, a)
  | .vmul t a => some (t, 0x14, 0x02, a)
  | .vmax t a => some (t, 0x14, 0x03, a)
  | .vmin t a => some (t, 0x14, 0x04, a)
  | .vand t a => some (t, 0x14, 0x05, a)
  | .vor t a => some (t, 0x14, 0x06, a)
  | .vxor t a => some (t, 0x14, 0x07, a)
  | .vshl t a => some (t, 0x14, 0x08, a)
  | .vshr t a => some (t, 0x14, 0x09, a)
  | .vcvt t a => some (t, 0x14, 0x0A, a)
  | .vld t a => some (t, 0x14, 0x10, a)
  | .vst t a => some (t, 0x14, 0x11, a)
  | .vbcast t a => some (t, 0x14, 0x18, a)
  | .vlane t a => some (t, 0x14, 0x19, a)
  | .vrsum t a => some (t, 0x14, 0x1A, a)
  | .lblSt t a => some (t, 0x14, 0x20, a)
  | .qexp t a => some (t, 0x18, 0x00, a)
  | .qcmp t a => some (t, 0x18, 0x01, a)
  | .qmrgU t a => some (t, 0x18, 0x02, a)
  | .qmrgI t a => some (t, 0x18, 0x03, a)
  | .qsort t a => some (t, 0x18, 0x04, a)
  | .qred t a => some (t, 0x18, 0x05, a)
  | .gath t a => some (t, 0x1C, 0x00, a)
  | .gathR t a => some (t, 0x1C, 0x01, a)
  | .gathQ8 t a => some (t, 0x1C, 0x02, a)
  | .gathQ4 t a => some (t, 0x1C, 0x03, a)
  | .gathPf t a => some (t, 0x1C, 0x04, a)
  | .hlook t a => some (t, 0x1C, 0x05, a)
  | .scat t a => some (t, 0x1C, 0x06, a)
  | .hpref t a => some (t, 0x1C, 0x07, a)
  | .hupdQ8 t a => some (t, 0x1C, 0x08, a)
  | .hupdQ4 t a => some (t, 0x1C, 0x09, a)
  | .treLdl t a => some (t, 0x20, 0x00, a)
  | .treLdn t a => some (t, 0x20, 0x01, a)
  | .treLadder t a => some (t, 0x20, 0x02, a)
  | .treWalk t a => some (t, 0x20, 0x03, a)
  | _ => none

/-- The word of a Berbo command: none for a command that is no Berbo instruction. -/
def berboEncode (i : Instr) : Option W64 :=
  match ccWord i with
  | some (_, c, o, a) => some (wordCc c o a)
  | none =>
    match unitWord i with
    | some (_, c, o, a) => some (wordU c o a)
    | none => none

/-- The control-core command of a CLASS and OP; none where the OP is unassigned (R368, R392). -/
def ccOf (t : TileId) (cls op : Nat) (a : CcArgs) : Option Instr :=
  match cls, op with
  | 0x01, 0x00 => some (.add t a)
  | 0x01, 0x01 => some (.sub t a)
  | 0x01, 0x02 => some (.and t a)
  | 0x01, 0x03 => some (.or t a)
  | 0x01, 0x04 => some (.xor t a)
  | 0x01, 0x05 => some (.sll t a)
  | 0x01, 0x06 => some (.srl t a)
  | 0x01, 0x07 => some (.sra t a)
  | 0x01, 0x08 => some (.slt t a)
  | 0x01, 0x09 => some (.sltu t a)
  | 0x01, 0x0A => some (.min t a)
  | 0x01, 0x0B => some (.max t a)
  | 0x01, 0x0C => some (.mul t a)
  | 0x01, 0x0D => some (.mulh t a)
  | 0x01, 0x10 => some (.addI t a)
  | 0x01, 0x12 => some (.andI t a)
  | 0x01, 0x13 => some (.orI t a)
  | 0x01, 0x14 => some (.xorI t a)
  | 0x01, 0x15 => some (.sllI t a)
  | 0x01, 0x16 => some (.srlI t a)
  | 0x01, 0x17 => some (.sraI t a)
  | 0x01, 0x18 => some (.sltI t a)
  | 0x01, 0x1F => some (.liH t a)
  | 0x02, 0x00 => some (.ldt t a)
  | 0x02, 0x01 => some (.ldtW t a)
  | 0x02, 0x04 => some (.stt t a)
  | 0x02, 0x05 => some (.sttW t a)
  | 0x02, 0x08 => some (.ld t a)
  | 0x02, 0x09 => some (.ldW t a)
  | 0x02, 0x0C => some (.st t a)
  | 0x02, 0x0D => some (.stW t a)
  | 0x03, 0x00 => some (.beq t a)
  | 0x03, 0x01 => some (.bne t a)
  | 0x03, 0x02 => some (.blt t a)
  | 0x03, 0x03 => some (.bge t a)
  | 0x03, 0x04 => some (.bltu t a)
  | 0x03, 0x05 => some (.bgeu t a)
  | 0x03, 0x08 => some (.jal t a)
  | 0x03, 0x09 => some (.jr t a)
  | 0x04, 0x00 => some (.pcmpEq t a)
  | 0x04, 0x01 => some (.pcmpNe t a)
  | 0x04, 0x02 => some (.pcmpLt t a)
  | 0x04, 0x03 => some (.pcmpLtu t a)
  | 0x04, 0x08 => some (.pcmpEqI t a)
  | 0x04, 0x0A => some (.pcmpLtI t a)
  | 0x04, 0x10 => some (.pand t a)
  | 0x04, 0x11 => some (.por t a)
  | 0x04, 0x12 => some (.pxor t a)
  | 0x04, 0x13 => some (.pnot t a)
  | 0x04, 0x14 => some (.pset t a)
  | 0x05, 0x00 => some (.twait t a)
  | 0x05, 0x01 => some (.tsig t a)
  | 0x05, 0x02 => some (.tread t a)
  | 0x05, 0x08 => some (.fenceSb t a)
  | 0x05, 0x09 => some (.fenceSc t a)
  | 0x05, 0x0A => some (.fenceU t a)
  | 0x05, 0x0B => some (.fenceAll t a)
  | 0x06, 0x00 => some (.epochBegin t a)
  | 0x06, 0x01 => some (.epochCommit t a)
  | 0x06, 0x02 => some (.epochRein t a)
  | 0x07, 0x00 => some (.endItem t a)
  | 0x07, 0x01 => some (.tsrr t a)
  | 0x07, 0x02 => some (.tsrw t a)
  | 0x07, 0x03 => some (.tlbInv t a)
  | 0x07, 0x04 => some (.resume t a)
  | 0x07, 0x05 => some (.abandon t a)
  | _, _ => none

/-- The unit command of a CLASS and OP; none where the CLASS is reserved or the OP unassigned (R368, R392). -/
def unitOf (t : TileId) (cls op : Nat) (a : UArgs) : Option Instr :=
  match cls, op with
  | 0x10, 0x00 => some (.mmaP t a)
  | 0x10, 0x01 => some (.mmaD t a)
  | 0x10, 0x02 => some (.mmaS t a)
  | 0x10, 0x03 => some (.mmaW t a)
  | 0x10, 0x04 => some (.mmaPZ t a)
  | 0x10, 0x05 => some (.mmaDZ t a)
  | 0x10, 0x06 => some (.mmaSZ t a)
  | 0x11, 0x00 => some (.wld t a)
  | 0x11, 0x01 => some (.wldSp t a)
  | 0x11, 0x02 => some (.wldSpt t a)
  | 0x11, 0x03 => some (.swap t a)
  | 0x14, 0x00 => some (.vadd t a)
  | 0x14, 0x01 => some (.vsub t a)
  | 0x14, 0x02 => some (.vmul t a)
  | 0x14, 0x03 => some (.vmax t a)
  | 0x14, 0x04 => some (.vmin t a)
  | 0x14, 0x05 => some (.vand t a)
  | 0x14, 0x06 => some (.vor t a)
  | 0x14, 0x07 => some (.vxor t a)
  | 0x14, 0x08 => some (.vshl t a)
  | 0x14, 0x09 => some (.vshr t a)
  | 0x14, 0x0A => some (.vcvt t a)
  | 0x14, 0x10 => some (.vld t a)
  | 0x14, 0x11 => some (.vst t a)
  | 0x14, 0x18 => some (.vbcast t a)
  | 0x14, 0x19 => some (.vlane t a)
  | 0x14, 0x1A => some (.vrsum t a)
  | 0x14, 0x20 => some (.lblSt t a)
  | 0x18, 0x00 => some (.qexp t a)
  | 0x18, 0x01 => some (.qcmp t a)
  | 0x18, 0x02 => some (.qmrgU t a)
  | 0x18, 0x03 => some (.qmrgI t a)
  | 0x18, 0x04 => some (.qsort t a)
  | 0x18, 0x05 => some (.qred t a)
  | 0x1C, 0x00 => some (.gath t a)
  | 0x1C, 0x01 => some (.gathR t a)
  | 0x1C, 0x02 => some (.gathQ8 t a)
  | 0x1C, 0x03 => some (.gathQ4 t a)
  | 0x1C, 0x04 => some (.gathPf t a)
  | 0x1C, 0x05 => some (.hlook t a)
  | 0x1C, 0x06 => some (.scat t a)
  | 0x1C, 0x07 => some (.hpref t a)
  | 0x1C, 0x08 => some (.hupdQ8 t a)
  | 0x1C, 0x09 => some (.hupdQ4 t a)
  | 0x20, 0x00 => some (.treLdl t a)
  | 0x20, 0x01 => some (.treLdn t a)
  | 0x20, 0x02 => some (.treLadder t a)
  | 0x20, 0x03 => some (.treWalk t a)
  | _, _ => none

/-- The Berbo command a word is, fetched by tile `t`; none for a word that R368 makes illegal by its CLASS or OP. -/
def berboDecode (t : TileId) (w : W64) : Option Instr :=
  let c := (w.extractLsb' 58 6).toNat
  let o := (w.extractLsb' 52 6).toNat
  if c < 8 then ccOf t c o (readCc w) else unitOf t c o (readU w)

end Sys2Proof
end

