-- ==== Sys2Proof/Machine/Crypto.lean ====
section
/-! DEFINITION. The cryptographic functions the spec names by standard: CRC-16 (R531), AES-128, AES-CMAC (NIST SP 800-38B, R544),
AES key wrap (NIST SP 800-38F KW, R548), SHA-256, HMAC-SHA-256, the deterministic nonce of RFC 6979, and ECDSA and ECDH
on P-256 (R575, R580). -/

namespace Sys2Proof.Machine

/-! ### CRC-16 (R531) -/

/-- One byte into the CRC-16 register, most significant bit first. -/
def crc16Byte (c : Nat) (b : Byte) : Nat :=
  (List.range 8).foldl (fun c _ => if 32768 ≤ c then (2 * c) % 65536 ^^^ 0x1021 else 2 * c) (c ^^^ b.toNat * 256)

/-- CRC-16 with polynomial 0x1021 and initial value 0xFFFF. -/
def crc16 (bs : List Byte) : Nat := bs.foldl crc16Byte 0xFFFF

/-! ### AES-128 (FIPS 197), on blocks of 16 numbers below 256 -/

/-- Doubling in GF(2^8). -/
def gfDouble (a : Nat) : Nat := if 128 ≤ a then (2 * a) % 256 ^^^ 0x1B else 2 * a

/-- Product in GF(2^8). -/
def gfMul (a b : Nat) : Nat :=
  ((List.range 8).foldl (fun (x : Nat × Nat) i => (if b / 2 ^ i % 2 = 1 then x.1 ^^^ x.2 else x.1, gfDouble x.2)) (0, a)).1

/-- Inverse in GF(2^8): the 254th power; 0 for 0. -/
def gfInv (a : Nat) : Nat :=
  let a2 := gfMul a a
  let a4 := gfMul a2 a2
  let a8 := gfMul a4 a4
  let a16 := gfMul a8 a8
  let a32 := gfMul a16 a16
  let a64 := gfMul a32 a32
  let a128 := gfMul a64 a64
  gfMul a128 (gfMul a64 (gfMul a32 (gfMul a16 (gfMul a8 (gfMul a4 a2)))))

/-- A byte rotated left. -/
def rotl8 (a k : Nat) : Nat := (a * 2 ^ k % 256) + a / 2 ^ (8 - k)

/-- The AES S-box. -/
def aesSub (a : Nat) : Nat :=
  let b := gfInv a
  b ^^^ rotl8 b 1 ^^^ rotl8 b 2 ^^^ rotl8 b 3 ^^^ rotl8 b 4 ^^^ 0x63

/-- The inverse AES S-box. -/
def aesSubInv (a : Nat) : Nat := gfInv (rotl8 a 1 ^^^ rotl8 a 3 ^^^ rotl8 a 6 ^^^ 0x05)

/-- Bytewise exclusive or. -/
def xorL (a b : List Nat) : List Nat := List.zipWith (· ^^^ ·) a b

/-- The next round key from one and the round constant. -/
def aesNextKey (k : List Nat) (rc : Nat) : List Nat :=
  let w := fun (i : Nat) => (k.drop (4 * i)).take 4
  let t := match w 3 with
    | [a, b, c, d] => [aesSub b ^^^ rc, aesSub c, aesSub d, aesSub a]
    | l => l
  let w0 := xorL (w 0) t
  let w1 := xorL (w 1) w0
  let w2 := xorL (w 2) w1
  w0 ++ w1 ++ w2 ++ xorL (w 3) w2

/-- The eleven round keys. -/
def aesKeys (k : List Nat) : List (List Nat) :=
  ([1, 2, 4, 8, 16, 32, 64, 128, 0x1B, 0x36].foldl (fun (x : List (List Nat) × List Nat) rc =>
    let n := aesNextKey x.2 rc
    (x.1 ++ [n], n)) ([k], k)).1

/-- ShiftRows: column-major state, row r moved left by r. -/
def aesShift (s : List Nat) : List Nat := (List.range 16).map (fun i => s.getD ((i + 4 * (i % 4)) % 16) 0)

/-- ShiftRows undone. -/
def aesShiftInv (s : List Nat) : List Nat := (List.range 16).map (fun i => s.getD ((i + 16 * 4 - 4 * (i % 4)) % 16) 0)

/-- MixColumns with the given first row of coefficients. -/
def aesMix (m : List Nat) (s : List Nat) : List Nat :=
  (List.range 16).map (fun i =>
    let c := i / 4 * 4
    (List.range 4).foldl (fun x j => x ^^^ gfMul (m.getD ((j + 4 - i % 4) % 4) 0) (s.getD (c + j) 0)) 0)

/-- AES-128 encryption of one block. -/
def aesEnc (k b : List Nat) : List Nat :=
  let ks := aesKeys k
  let s := xorL b (ks.getD 0 [])
  let s := (List.range 9).foldl (fun s i => xorL (aesMix [2, 3, 1, 1] (aesShift (s.map aesSub))) (ks.getD (i + 1) [])) s
  xorL (aesShift (s.map aesSub)) (ks.getD 10 [])

/-- AES-128 decryption of one block. -/
def aesDec (k b : List Nat) : List Nat :=
  let ks := aesKeys k
  let s := (aesShiftInv (xorL b (ks.getD 10 []))).map aesSubInv
  let s := (List.range 9).foldl (fun s i =>
    (aesShiftInv (aesMix [14, 11, 13, 9] (xorL s (ks.getD (9 - i) [])))).map aesSubInv) s
  xorL s (ks.getD 0 [])

/-- Doubling of a 128-bit block in CMAC. -/
def cmacDouble (b : List Nat) : List Nat :=
  let n := b.foldl (fun a x => 256 * a + x) 0
  let d := if 2 ^ 127 ≤ n then (2 * n) % 2 ^ 128 ^^^ 0x87 else 2 * n
  (toBe d 16).map (·.toNat)

/-- CBC-MAC of full blocks. -/
def cbcMac (k : List Nat) : Nat → List Nat → List Nat → List Nat
  | 0, x, _ => x
  | n + 1, x, m => cbcMac k n (aesEnc k (xorL x (m.take 16))) (m.drop 16)

/-- AES-CMAC. -/
def cmac (k m : List Nat) : List Nat :=
  let k1 := cmacDouble (aesEnc k (List.replicate 16 0))
  let n := m.length
  if n ≠ 0 ∧ n % 16 = 0 then
    cbcMac k (n / 16) (List.replicate 16 0) (m.take (n - 16) ++ xorL (m.drop (n - 16)) k1)
  else
    let q := n / 16 * 16
    let last := m.drop q ++ [0x80] ++ List.replicate (15 - n % 16) 0
    cbcMac k (n / 16 + 1) (List.replicate 16 0) (m.take q ++ xorL last (cmacDouble k1))

/-- AES key wrap of a 16-byte key: 24 bytes. -/
def kwWrap (kek p : List Nat) : List Nat :=
  let step := fun (x : List Nat × List Nat × List Nat) (t : Nat) =>
    let (a, r1, r2) := x
    let odd := t % 2 = 1
    let b := aesEnc kek (a ++ (if odd then r1 else r2))
    let a' := xorL (b.take 8) [0, 0, 0, 0, 0, 0, 0, t]
    if odd then (a', b.drop 8, r2) else (a', r1, b.drop 8)
  let (a, r1, r2) := (List.range 12).foldl (fun x i => step x (i + 1)) (List.replicate 8 0xA6, p.take 8, p.drop 8)
  a ++ r1 ++ r2

/-- AES key unwrap of 24 bytes: none where the integrity check fails. -/
def kwUnwrap (kek c : List Nat) : Option (List Nat) :=
  let step := fun (x : List Nat × List Nat × List Nat) (t : Nat) =>
    let (a, r1, r2) := x
    let odd := t % 2 = 1
    let b := aesDec kek (xorL a [0, 0, 0, 0, 0, 0, 0, t] ++ (if odd then r1 else r2))
    if odd then (b.take 8, b.drop 8, r2) else (b.take 8, r1, b.drop 8)
  let (a, r1, r2) := (List.range 12).foldl (fun x i => step x (12 - i)) (c.take 8, (c.drop 8).take 8, c.drop 16)
  if a = List.replicate 8 0xA6 then some (r1 ++ r2) else none

/-! ### SHA-256 (FIPS 180-4) -/

/-- SHA-256 round constants. -/
def shaK : List Nat :=
  [0x428a2f98, 0x71374491, 0xb5c0fbcf, 0xe9b5dba5, 0x3956c25b, 0x59f111f1, 0x923f82a4, 0xab1c5ed5] ++
  [0xd807aa98, 0x12835b01, 0x243185be, 0x550c7dc3, 0x72be5d74, 0x80deb1fe, 0x9bdc06a7, 0xc19bf174] ++
  [0xe49b69c1, 0xefbe4786, 0x0fc19dc6, 0x240ca1cc, 0x2de92c6f, 0x4a7484aa, 0x5cb0a9dc, 0x76f988da] ++
  [0x983e5152, 0xa831c66d, 0xb00327c8, 0xbf597fc7, 0xc6e00bf3, 0xd5a79147, 0x06ca6351, 0x14292967] ++
  [0x27b70a85, 0x2e1b2138, 0x4d2c6dfc, 0x53380d13, 0x650a7354, 0x766a0abb, 0x81c2c92e, 0x92722c85] ++
  [0xa2bfe8a1, 0xa81a664b, 0xc24b8b70, 0xc76c51a3, 0xd192e819, 0xd6990624, 0xf40e3585, 0x106aa070] ++
  [0x19a4c116, 0x1e376c08, 0x2748774c, 0x34b0bcb5, 0x391c0cb3, 0x4ed8aa4a, 0x5b9cca4f, 0x682e6ff3] ++
  [0x748f82ee, 0x78a5636f, 0x84c87814, 0x8cc70208, 0x90befffa, 0xa4506ceb, 0xbef9a3f7, 0xc67178f2]

/-- SHA-256 initial hash. -/
def shaH : List Nat := [0x6a09e667, 0xbb67ae85, 0x3c6ef372, 0xa54ff53a, 0x510e527f, 0x9b05688c, 0x1f83d9ab, 0x5be0cd19]

/-- A 32-bit word rotated right. -/
def rotr32 (x k : Nat) : Nat := x / 2 ^ k + (x % 2 ^ k) * 2 ^ (32 - k)

/-- The message schedule of one block, newest word first. -/
def shaSched (w : List Nat) : List Nat :=
  (List.range 48).foldl (fun (l : List Nat) _ =>
    let g := fun i => l.getD i 0
    let s0 := rotr32 (g 14) 7 ^^^ rotr32 (g 14) 18 ^^^ (g 14) / 8
    let s1 := rotr32 (g 1) 17 ^^^ rotr32 (g 1) 19 ^^^ (g 1) / 1024
    ((g 15 + s0 + g 6 + s1) % 2 ^ 32) :: l) w.reverse

/-- One block compressed. -/
def shaBlock (h : List Nat) (blk : List Byte) : List Nat :=
  let w := (List.range 16).map (fun i => beNat ((blk.drop (4 * i)).take 4))
  let ws := (shaSched w).reverse
  let out := (List.zip shaK ws).foldl (fun (v : List Nat) (kw : Nat × Nat) =>
    match v with
    | [a, b, c, d, e, f, g, hh] =>
      let s1 := rotr32 e 6 ^^^ rotr32 e 11 ^^^ rotr32 e 25
      let ch := (e &&& f) ^^^ ((0xFFFFFFFF - e) &&& g)
      let t1 := hh + s1 + ch + kw.1 + kw.2
      let s0 := rotr32 a 2 ^^^ rotr32 a 13 ^^^ rotr32 a 22
      let mj := (a &&& b) ^^^ (a &&& c) ^^^ (b &&& c)
      [(t1 + s0 + mj) % 2 ^ 32, a, b, c, (d + t1) % 2 ^ 32, e, f, g]
    | l => l) h
  List.zipWith (fun a b => (a + b) % 2 ^ 32) h out

/-- Blocks compressed in order. -/
def shaBlocks : Nat → List Nat → List Byte → List Nat
  | 0, h, _ => h
  | n + 1, h, m => shaBlocks n (shaBlock h (m.take 64)) (m.drop 64)

/-- SHA-256 of a byte list, 32 bytes. -/
def sha256 (m : List Byte) : List Byte :=
  let n := m.length
  let z := (55 + 64 - n % 64) % 64
  let p := m ++ [0x80] ++ List.replicate z 0 ++ toBe (8 * n) 8
  (shaBlocks (p.length / 64) shaH p).flatMap (fun w => toBe w 4)

/-- HMAC-SHA-256 with a key of at most 64 bytes. -/
def hmac (k m : List Byte) : List Byte :=
  let kp := k ++ List.replicate (64 - k.length) 0
  sha256 (kp.map (· ^^^ 0x5C) ++ sha256 (kp.map (· ^^^ 0x36) ++ m))

/-! ### P-256 -/

/-- The field prime. -/
def p256P : Nat := 0xffffffff00000001000000000000000000000000ffffffffffffffffffffffff
/-- The group order. -/
def p256N : Nat := 0xffffffff00000000ffffffffffffffffbce6faada7179e84f3b9cac2fc632551
/-- The curve coefficient b. -/
def p256B : Nat := 0x5ac635d8aa3a93e7b3ebbd55769886bc651d06b0cc53b0f63bce3c3e27d2604b
/-- The base point. -/
def p256G : Nat × Nat :=
  (0x6b17d1f2e12c4247f8bce6e563a440f277037d812deb33a0f4a13945d898c296,
   0x4fe342e2fe1a7f9b8ee7eb4a7c0f9e162bce33576b315ececbb6406837bf51f5)

/-- Modular power by 256 squarings of the exponent's bits, high first. -/
def powMod (m a e : Nat) : Nat :=
  (List.range 256).foldl (fun r i =>
    let r := r * r % m
    if e / 2 ^ (255 - i) % 2 = 1 then r * a % m else r) 1

/-- Inverse modulo a prime. -/
def invMod (m a : Nat) : Nat := powMod m (a % m) (m - 2)

/-- Whether (x, y) lies on the curve. -/
def onCurve (x y : Nat) : Bool :=
  decide (x < p256P ∧ y < p256P ∧ y * y % p256P = (x * x % p256P * x + (p256P - 3) * x + p256B) % p256P)

/-- Addition of points, none for the point at infinity. -/
def ecAdd (a b : Option (Nat × Nat)) : Option (Nat × Nat) :=
  match a, b with
  | none, q => q
  | q, none => q
  | some (x1, y1), some (x2, y2) =>
    let p := p256P
    if x1 = x2 ∧ (y1 + y2) % p = 0 then none
    else
      let l := if x1 = x2 then (3 * x1 * x1 + p - 3) % p * invMod p (2 * y1) % p
        else (y2 + p - y1) % p * invMod p (x2 + p - x1) % p
      let x := (l * l + 2 * p - x1 - x2) % p
      some (x, (l * ((x1 + p - x) % p) + p - y1) % p)

/-- A multiple of a point. -/
def ecMul (k : Nat) (q : Nat × Nat) : Option (Nat × Nat) :=
  (List.range 256).foldl (fun r i =>
    let r := ecAdd r r
    if k / 2 ^ (255 - i) % 2 = 1 then ecAdd r (some q) else r) none

/-- ECDSA verification of a digest. -/
def ecdsaVerify (qx qy : Nat) (digest : List Byte) (r sg : Nat) : Bool :=
  let n := p256N
  if onCurve qx qy && decide (0 < r ∧ r < n ∧ 0 < sg ∧ sg < n) then
    let w := invMod n sg
    match ecAdd (ecMul (beNat digest * w % n) p256G) (ecMul (r * w % n) (qx, qy)) with
    | some (x, _) => x % n == r
    | none => false
  else false

/-- The candidates for k of RFC 6979 in order, from the generator's state (K, V). -/
def rfc6979 : Nat → List Byte → List Byte → Option Nat
  | 0, _, _ => none
  | fuel + 1, k, v =>
    let v := hmac k v
    let c := beNat v
    if 0 < c ∧ c < p256N then some c
    else
      let k := hmac k (v ++ [0])
      rfc6979 fuel k (hmac k v)

/-- The deterministic k of RFC 6979 for a private key and a 32-byte digest. -/
def detK (d : Nat) (digest : List Byte) : Nat :=
  let h := toBe (beNat digest % p256N) 32
  let v : List Byte := List.replicate 32 1
  let k : List Byte := List.replicate 32 0
  let k := hmac k (v ++ [0] ++ toBe d 32 ++ h)
  let v := hmac k v
  let k := hmac k (v ++ [1] ++ toBe d 32 ++ h)
  let v := hmac k v
  (rfc6979 64 k v).getD 1

/-- ECDSA signature of a 32-byte digest: r and s. -/
def ecdsaSign (d : Nat) (digest : List Byte) : Nat × Nat :=
  let n := p256N
  let k := detK d digest
  let r := match ecMul k p256G with
    | some (x, _) => x % n
    | none => 0
  (r, invMod n k * ((beNat digest + r * d) % n) % n)

end Sys2Proof.Machine
end

