-- ==== Sys2Proof/Config.lean ====
section
/-! DEFINITION. What the implementation fixes and no register shows (fused secrets, the manufacturer's certificate), and the
values the spec leaves open. All of them are opaque: nothing can prove a value of one. -/

namespace Sys2Proof

/-- The `n`-th value the spec leaves open (log 1). A step that needs one applies this to the state's counter `freeCtr`
and moves the counter on; the user takes as many low bits as the value has. -/
opaque Config.freeNat : Nat → Nat
/-- The fused P-256 identity private key (R579, log 9). -/
opaque Config.idkPrivate : Nat
/-- The fused 128-bit Halter wrapping key (R548, log 9). -/
opaque Config.wrapKey : Nat
/-- Word `k` of the identity certificate, Table 17-9 (log 9). -/
opaque Config.certWord : Nat → BitVec 32
/-- The fused SHA-256 hash of boot key slot `k` (Table 17-8, log 9). -/
opaque Config.keyHash : Nat → Nat
/-- Whether boot key slot `k` is revoked (Table 17-8, log 9). -/
opaque Config.keyRevoked : Nat → Bool

/-- What a base-die engine finds in byte `a` of another member's memory (log 51). -/
opaque Config.remoteByte : Nat → BitVec 8

/-- The manufacturer code of IDCODE (R481), which the spec names and does not give (log 9). -/
opaque Config.jtagMfr : BitVec 11

end Sys2Proof
end

