-- ==== Sys2Proof/Machine/Sparse.lean ====
section
/-! DEFINITION. Sparse maps as plain data: a list of (key, value) pairs with keys strictly rising and no entry equal to what an
unlisted key reads as. Registers, memory, tile stores and every other large array of the machine are held this way,
so that equal contents are equal data. -/

namespace Sys2Proof.Machine

/-- What key `k` reads as: its entry, or `d k` where none is listed. -/
def spGet {α : Type} (d : Nat → α) (m : List (Nat × α)) (k : Nat) : α :=
  match m with
  | [] => d k
  | (j, v) :: r => if j = k then v else spGet d r k

/-- A new entry put at its place in key order. -/
def spIns {α : Type} (k : Nat) (v : α) : List (Nat × α) → List (Nat × α)
  | [] => [(k, v)]
  | (j, w) :: r => if j < k then (j, w) :: spIns k v r else (k, v) :: (j, w) :: r

/-- The list without any entry for `k`. -/
def spDel {α : Type} (k : Nat) : List (Nat × α) → List (Nat × α)
  | [] => []
  | (j, w) :: r => if j = k then spDel k r else (j, w) :: spDel k r

/-- `k` made to read as `v`; writing what the key reads as when unlisted removes its entry. -/
def spSet {α : Type} [DecidableEq α] (d : Nat → α) (m : List (Nat × α)) (k : Nat) (v : α) : List (Nat × α) :=
  if v = d k then spDel k m else spIns k v (spDel k m)

/-- Every key of `m` lies above `lo` in strictly rising order and no entry is a default: the canonical form above `lo`. -/
def spWfFrom {α : Type} [DecidableEq α] (d : Nat → α) : Nat → List (Nat × α) → Bool
  | _, [] => true
  | lo, (k, v) :: r => decide (lo ≤ k) && decide (v ≠ d k) && spWfFrom d (k + 1) r

/-- The canonical form. -/
def spWf {α : Type} [DecidableEq α] (d : Nat → α) (m : List (Nat × α)) : Bool := spWfFrom d 0 m

end Sys2Proof.Machine
end

