-- ==== Sys2Proof/Machine/RegMap.lean ====
section
/-! DEFINITION. The register map: one row for each register of the spec's register tables (Tables 03-7, 04-4, 05-7, 06-4,
06-11, 07-5, 08-8, 09-6, 10-8, 11-7, 13-8, 13-9, 14-5, 15-9, 16-5, 17-10, 18-6, 19-4 to 19-6) with its block, offset,
access code (Table 00-3), writable bits and reset value; the register offset of each (R615); and each 32-bit
counter's place in its block's sticky overflow register (R607). -/

namespace Sys2Proof.Machine

/-- An access code, Table 00-3. -/
inductive Acc where
  | ro | rw | w1c | wo | rws | rc
  deriving DecidableEq, Repr

/-- One register of a table: its offset in its block, the index ranges it repeats over (count, stride), its 32-bit
words, access code, writable bits, reset value, and whether the table's reset is X (undefined until written). -/
structure RegRow where
  off : Nat
  dims : List (Nat × Nat)
  words : Nat
  acc : Acc
  mask : Nat
  rst : Nat
  isX : Bool
  deriving DecidableEq, Repr

/-- A 32-bit saturating counter: its register, and its bit in its block's overflow register (R607). -/
structure Ctr where
  reg : Nat
  ovf : Nat
  bit : Nat
  deriving DecidableEq, Repr

/-! ### Register offsets -/
namespace Reg

/-- GAIT_STAT (17_gaits.md R583). -/
def gaitStat : Nat := 0x0
/-- GAIT_REQ (17_gaits.md R555, R583). -/
def gaitReq : Nat := 0x4
/-- GAIT_TILE_IDLE (17_gaits.md R554, R583). -/
def gaitTileIdle : Nat := 0x8
/-- GAIT_CORE_RUN (17_gaits.md R560, R583). -/
def gaitCoreRun : Nat := 0xC
/-- GAIT_RESUME_VEC (17_gaits.md R560, R583). -/
def gaitResumeVec : Nat := 0x10
/-- GAIT_WAKE_EN (17_gaits.md R566, R583). -/
def gaitWakeEn : Nat := 0x18
/-- GAIT_WAKE_SRC (17_gaits.md R566, R583). -/
def gaitWakeSrc : Nat := 0x1C
/-- GAIT_WAKE_TGT (17_gaits.md R566, R583). -/
def gaitWakeTgt : Nat := 0x20
/-- GAIT_WAKE_GPIO (17_gaits.md R583). -/
def gaitWakeGpio : Nat := 0x24
/-- GAIT_WAKE_TIME (17_gaits.md R566, R583). -/
def gaitWakeTime : Nat := 0x28
/-- GAIT_TIME (17_gaits.md R561, R583). -/
def gaitTime : Nat := 0x30
/-- GAIT_TIME_SET (17_gaits.md R562, R583). -/
def gaitTimeSet : Nat := 0x38
/-- GAIT_FRM_ORIGIN (17_gaits.md R563, R583). -/
def gaitFrmOrigin : Nat := 0x40
/-- GAIT_FRM_START (17_gaits.md R563, R583). -/
def gaitFrmStart : Nat := 0x48
/-- GAIT_FRM_PERIOD (01_machine.md R31, 17_gaits.md R583). -/
def gaitFrmPeriod : Nat := 0x4C
/-- GAIT_FRM_NUM (17_gaits.md R563, R583). -/
def gaitFrmNum : Nat := 0x50
/-- GAIT_TEMP (17_gaits.md R572, R583). -/
def gaitTemp : Nat := 0x54
/-- GAIT_TWARN (17_gaits.md R572, R583). -/
def gaitTwarn : Nat := 0x58
/-- GAIT_RST_CTRL (17_gaits.md R570, R583). -/
def gaitRstCtrl : Nat := 0x5C
/-- GAIT_RST_CAUSE (17_gaits.md R570, R583). -/
def gaitRstCause : Nat := 0x60
/-- GAIT_WDOG (17_gaits.md R571, R583). -/
def gaitWdog : Nat := 0x64
/-- GAIT_WDOG_KICK (17_gaits.md R571, R583). -/
def gaitWdogKick : Nat := 0x68
/-- GAIT_BOOT_STAT (17_gaits.md R575, R583). -/
def gaitBootStat : Nat := 0x70
/-- GAIT_BOOT_HINT (17_gaits.md R574, R583). -/
def gaitBootHint : Nat := 0x74
/-- GAIT_BOOT_DOORBELL (17_gaits.md R577, R583). -/
def gaitBootDoorbell : Nat := 0x78
/-- GAIT_SVN_ADV (17_gaits.md R578, R583). -/
def gaitSvnAdv : Nat := 0x7C
/-- GAIT_IDK_CMD (17_gaits.md R580, R583). -/
def gaitIdkCmd : Nat := 0x80
/-- GAIT_IDK_STAT (17_gaits.md R580, R583). -/
def gaitIdkStat : Nat := 0x84
/-- GAIT_IDK_LOCK (17_gaits.md R580, R583). -/
def gaitIdkLock : Nat := 0x88
/-- GAIT_IDK_IN (17_gaits.md R580, R583). -/
def gaitIdkIn (i : Nat) : Nat := 0x100 + 0x4 * i
/-- GAIT_IDK_OUT (17_gaits.md R580, R583). -/
def gaitIdkOut (i : Nat) : Nat := 0x140 + 0x4 * i
/-- GAIT_IDK_CERT (17_gaits.md R579, R583). -/
def gaitIdkCert (i : Nat) : Nat := 0x200 + 0x4 * i
/-- GAIT_CNT_REFUSE (17_gaits.md R555, R583). -/
def gaitCntRefuse : Nat := 0x300
/-- GAIT_CNT_PWRFAIL (17_gaits.md R559, R583). -/
def gaitCntPwrfail : Nat := 0x304
/-- GAIT_CNT_TWARN (17_gaits.md R572, R583). -/
def gaitCntTwarn : Nat := 0x308
/-- GAIT_CNT_OVF (17_gaits.md R583). -/
def gaitCntOvf : Nat := 0x30C
/-- GAIT_DEVID (19_registers.md R632). -/
def gaitDevid : Nat := 0x400
/-- GAIT_SERIAL (19_registers.md R632). -/
def gaitSerial : Nat := 0x408
/-- GAIT_ACC_LOCK (19_registers.md R629, R632). -/
def gaitAccLock : Nat := 0x410
/-- GAIT_ACC_ERR (19_registers.md R630, R632). -/
def gaitAccErr : Nat := 0x418
/-- GAIT_BCAST_STAT (19_registers.md R620, R632). -/
def gaitBcastStat (i : Nat) : Nat := 0x500 + 0x4 * i
/-- GAIT_GRP_TILE (19_registers.md R617, R632). -/
def gaitGrpTile (i : Nat) : Nat := 0x600 + 0x4 * i
/-- GAIT_GRP_PORT (19_registers.md R617, R632). -/
def gaitGrpPort (i : Nat) : Nat := 0x620 + 0x4 * i
/-- GAIT_GRP_DREY (19_registers.md R617, R632). -/
def gaitGrpDrey (i : Nat) : Nat := 0x640 + 0x4 * i
/-- HLT_CTRL (16_halter.md R541, R551). -/
def hltCtrl : Nat := 0x40000
/-- HLT_LIFE (16_halter.md R534, R551). -/
def hltLife : Nat := 0x40004
/-- HLT_PROP_BASE (16_halter.md R524, R551). -/
def hltPropBase (i : Nat) : Nat := 0x40008 + 0x8 * i
/-- HLT_ZONE_COVER (16_halter.md R523, R551). -/
def hltZoneCover (i : Nat) : Nat := 0x40020 + 0x4 * i
/-- HLT_VERDICT_FRAME (16_halter.md R535, R551). -/
def hltVerdictFrame : Nat := 0x40040
/-- HLT_VERDICT_ZONES (16_halter.md R535, R551). -/
def hltVerdictZones : Nat := 0x40048
/-- HLT_VERDICT_TIME (16_halter.md R551). -/
def hltVerdictTime : Nat := 0x40050
/-- HLT_PAIR_CTRL (16_halter.md R547, R551). -/
def hltPairCtrl : Nat := 0x40060
/-- HLT_PAIR_STAT (16_halter.md R547, R551). -/
def hltPairStat : Nat := 0x40064
/-- HLT_PAIR_PEER (16_halter.md R551). -/
def hltPairPeer : Nat := 0x40068
/-- HLT_PAIR_KEY (16_halter.md R547, R551). -/
def hltPairKey (i : Nat) : Nat := 0x40070 + 0x4 * i
/-- HLT_PAIR_BLOB (16_halter.md R548, R551). -/
def hltPairBlob (i : Nat) : Nat := 0x40080 + 0x4 * i
/-- HLT_CNT_PROPBAD (16_halter.md R525, R551). -/
def hltCntPropbad : Nat := 0x400A0
/-- HLT_CNT_UNWRAP (16_halter.md R548, R551). -/
def hltCntUnwrap : Nat := 0x400A4
/-- HLT_PORT_STAT (16_halter.md R551). -/
def hltPortStat (i : Nat) : Nat := 0x40100 + 0x80 * i
/-- HLT_CNT_POLL (16_halter.md R551). -/
def hltCntPoll (i : Nat) : Nat := 0x40108 + 0x80 * i
/-- HLT_CNT_SHORT (16_halter.md R532, R551). -/
def hltCntShort (i : Nat) : Nat := 0x40110 + 0x80 * i
/-- HLT_CNT_PCRC (16_halter.md R532, R551). -/
def hltCntPcrc (i : Nat) : Nat := 0x40114 + 0x80 * i
/-- HLT_CNT_PFMT (16_halter.md R532, R551). -/
def hltCntPfmt (i : Nat) : Nat := 0x40118 + 0x80 * i
/-- HLT_CNT_TRUNC (16_halter.md R532, R551). -/
def hltCntTrunc (i : Nat) : Nat := 0x4011C + 0x80 * i
/-- HLT_CNT_SEQ (16_halter.md R538, R551). -/
def hltCntSeq (i : Nat) : Nat := 0x40120 + 0x80 * i
/-- HLT_CNT_WAKE (16_halter.md R542, R551). -/
def hltCntWake (i : Nat) : Nat := 0x40124 + 0x80 * i
/-- HLT_CNT_STALE (16_halter.md R551). -/
def hltCntStale (i : Nat) : Nat := 0x4012C + 0x80 * i
/-- HLT_CNT_OVF (16_halter.md R551). -/
def hltCntOvf : Nat := 0x401F0
/-- EVT_LOG_SEQ (18_faults.md R602, R611). -/
def evtLogSeq : Nat := 0x80000
/-- EVT_LOG_OVWR (18_faults.md R602, R611). -/
def evtLogOvwr : Nat := 0x80004
/-- EVT_LOG_SW_DATA (18_faults.md R604, R611). -/
def evtLogSwData : Nat := 0x80008
/-- EVT_LOG_SW (18_faults.md R604, R611). -/
def evtLogSw : Nat := 0x80010
/-- EVT_FSR_BASE (18_faults.md R605, R611). -/
def evtFsrBase : Nat := 0x80018
/-- EVT_FSR_SLOTS (18_faults.md R605, R611). -/
def evtFsrSlots : Nat := 0x80020
/-- EVT_FSR_HEAD (18_faults.md R605, R611). -/
def evtFsrHead : Nat := 0x80024
/-- EVT_QUAR_STAT (18_faults.md R587, R611). -/
def evtQuarStat : Nat := 0x80028
/-- EVT_OOS_STAT (18_faults.md R611). -/
def evtOosStat : Nat := 0x8002C
/-- EVT_LIMP_STAT (18_faults.md R597, R611). -/
def evtLimpStat : Nat := 0x80030
/-- EVT_CNT_QUAR (18_faults.md R587, R611). -/
def evtCntQuar : Nat := 0x80034
/-- EVT_CNT_LIMP (18_faults.md R597, R611). -/
def evtCntLimp : Nat := 0x80038
/-- EVT_CNT_MISM (18_faults.md R598, R611). -/
def evtCntMism : Nat := 0x8003C
/-- EVT_CNT_OVERRUN (18_faults.md R611, 02_frame.md R62). -/
def evtCntOverrun : Nat := 0x80040
/-- EVT_CNT_SRAM_CE (18_faults.md R584, R611). -/
def evtCntSramCe (i : Nat) : Nat := 0x80044 + 0x4 * i
/-- EVT_CNT_BASE_UE (18_faults.md R585, R611). -/
def evtCntBaseUe : Nat := 0x80054
/-- EVT_OVF (18_faults.md R611). -/
def evtOvf : Nat := 0x80058
/-- EVT_CNT_BUR_CE (19_registers.md R634, 13_memory.md R424). -/
def evtCntBurCe (i : Nat) : Nat := 0x80100 + 0x4 * i
/-- EVT_CNT_BUR_UE (19_registers.md R634, 13_memory.md R424). -/
def evtCntBurUe (i : Nat) : Nat := 0x80108 + 0x4 * i
/-- EVT_CNT_DDR_CE (19_registers.md R634, 13_memory.md R429). -/
def evtCntDdrCe (i : Nat) : Nat := 0x80110 + 0x4 * i
/-- EVT_CNT_DDR_UE (19_registers.md R634, 13_memory.md R429). -/
def evtCntDdrUe (i : Nat) : Nat := 0x80118 + 0x4 * i
/-- EVT_CNT_ACCERR (19_registers.md R630, R634). -/
def evtCntAccerr : Nat := 0x80120
/-- EVT_CNT_ENG_ADDR (19_registers.md R634, 13_memory.md R659). -/
def evtCntEngAddr : Nat := 0x80124
/-- EVT_LOG_WIN (18_faults.md R602, R611). -/
def evtLogWin (i : Nat) : Nat := 0xA0000 + 0x4 * i
/-- ING_CTRL (04_ingest.md R149, R150). -/
def ingCtrl : Nat := 0xC0000
/-- ING_PS_BASE (04_ingest.md R148, R150). -/
def ingPsBase : Nat := 0xC0008
/-- ING_PS_SLOTS (04_ingest.md R148, R150). -/
def ingPsSlots : Nat := 0xC0010
/-- ING_PB_BASE (04_ingest.md R138, R150). -/
def ingPbBase (i : Nat) : Nat := 0xC0018 + 0x8 * i
/-- ING_PB_CAP (04_ingest.md R138, R150). -/
def ingPbCap : Nat := 0xC0028
/-- ING_THIN_RANGE (04_ingest.md R140, R150). -/
def ingThinRange : Nat := 0xC0030
/-- ING_THIN_HI (04_ingest.md R140, R150). -/
def ingThinHi : Nat := 0xC0034
/-- ING_THIN_STEP (04_ingest.md R140, R150). -/
def ingThinStep : Nat := 0xC0038
/-- ING_POSE_BASE (04_ingest.md R148, R150). -/
def ingPoseBase : Nat := 0xC0040
/-- ING_POSE_HEAD (04_ingest.md R123, R150). -/
def ingPoseHead : Nat := 0xC0048
/-- ING_POSE_WAIT (04_ingest.md R126, R150). -/
def ingPoseWait : Nat := 0xC004C
/-- ING_POSE_DL (04_ingest.md R134, R150). -/
def ingPoseDl : Nat := 0xC0050
/-- ING_TOL_TRANS (04_ingest.md R132, R150). -/
def ingTolTrans : Nat := 0xC0054
/-- ING_TOL_YAW (04_ingest.md R132, R150). -/
def ingTolYaw : Nat := 0xC0058
/-- ING_CPOSE_FRAME (04_ingest.md R130, R150). -/
def ingCposeFrame : Nat := 0xC0060
/-- ING_CPOSE_T (04_ingest.md R130, R150). -/
def ingCposeT (i : Nat) : Nat := 0xC0064 + 0x4 * i
/-- ING_CPOSE_Q (04_ingest.md R130, R150). -/
def ingCposeQ (i : Nat) : Nat := 0xC0070 + 0x4 * i
/-- ING_CPOSE_GO (04_ingest.md R130, R150). -/
def ingCposeGo : Nat := 0xC0080
/-- ING_CNT_BP (04_ingest.md R129, R150). -/
def ingCntBp : Nat := 0xC0088
/-- ING_CNT_EXTRAP (04_ingest.md R126, R150). -/
def ingCntExtrap : Nat := 0xC0090
/-- ING_CNT_NOPOSE (04_ingest.md R127, R150). -/
def ingCntNopose : Nat := 0xC0094
/-- ING_CNT_POSEORD (04_ingest.md R124, R150). -/
def ingCntPoseord : Nat := 0xC0098
/-- ING_CNT_CPOSE_LATE (04_ingest.md R134, R150). -/
def ingCntCposeLate : Nat := 0xC009C
/-- ING_CNT_CPOSE_FRM (04_ingest.md R131, R150). -/
def ingCntCposeFrm : Nat := 0xC00A0
/-- ING_CNT_CPOSE_DUP (04_ingest.md R131, R150). -/
def ingCntCposeDup : Nat := 0xC00A4
/-- ING_CNT_REIN (04_ingest.md R150). -/
def ingCntRein : Nat := 0xC00A8
/-- ING_CFG_EVT (04_ingest.md R150). -/
def ingCfgEvt : Nat := 0xC00AC
/-- ING_CNT_OVF (04_ingest.md R150). -/
def ingCntOvf : Nat := 0xC00B0
/-- ING_CAL_BASE (04_ingest.md R148, R150; 03_range_heads.md R99). -/
def ingCalBase : Nat := 0xC00B8
/-- ING_QUOTA (04_ingest.md R140, R150). -/
def ingQuota (i : Nat) : Nat := 0xC0100 + 0x40 * i
/-- ING_ECHO (04_ingest.md R121, R150). -/
def ingEcho (i : Nat) : Nat := 0xC0104 + 0x40 * i
/-- ING_MOUNT_Q (04_ingest.md R120, R150). -/
def ingMountQ (i j : Nat) : Nat := 0xC0108 + 0x40 * i + 0x4 * j
/-- ING_MOUNT_T (04_ingest.md R120, R150). -/
def ingMountT (i j : Nat) : Nat := 0xC0118 + 0x40 * i + 0x4 * j
/-- ING_CNT_QUOTA (04_ingest.md R141, R150). -/
def ingCntQuota (i : Nat) : Nat := 0xC0124 + 0x40 * i
/-- ING_CNT_FULL (04_ingest.md R141, R150). -/
def ingCntFull (i : Nat) : Nat := 0xC0128 + 0x40 * i
/-- ING_CNT_THIN1 (04_ingest.md R141, R150). -/
def ingCntThin1 (i : Nat) : Nat := 0xC012C + 0x40 * i
/-- ING_CNT_THIN2 (04_ingest.md R141, R150). -/
def ingCntThin2 (i : Nat) : Nat := 0xC0130 + 0x40 * i
/-- ING_CNT_ECHO (04_ingest.md R121, R150). -/
def ingCntEcho (i : Nat) : Nat := 0xC0134 + 0x40 * i
/-- ING_CNT_CALRANGE (04_ingest.md R119, R150). -/
def ingCntCalrange (i : Nat) : Nat := 0xC0138 + 0x40 * i
/-- ING_CNT_PSFULL (04_ingest.md R117, R150). -/
def ingCntPsfull (i : Nat) : Nat := 0xC013C + 0x40 * i
/-- HRD_TBL_CFG (09_hoard.md R302, R338). -/
def hrdTblCfg (i : Nat) : Nat := 0x100000 + 0x1000 * i
/-- HRD_TBL_ROWS (09_hoard.md R338). -/
def hrdTblRows (i : Nat) : Nat := 0x100004 + 0x1000 * i
/-- HRD_TBL_VER (09_hoard.md R317, R338). -/
def hrdTblVer (i : Nat) : Nat := 0x100008 + 0x1000 * i
/-- HRD_SHD_HOME (09_hoard.md R301, R338). -/
def hrdShdHome (i j : Nat) : Nat := 0x100100 + 0x1000 * i + 0x20 * j
/-- HRD_SHD_NEXT (09_hoard.md R331, R338). -/
def hrdShdNext (i j : Nat) : Nat := 0x100108 + 0x1000 * i + 0x20 * j
/-- HRD_SHD_REQ (09_hoard.md R331, R338). -/
def hrdShdReq (i j : Nat) : Nat := 0x100110 + 0x1000 * i + 0x20 * j
/-- HRD_SHD_STATE (09_hoard.md R333, R338). -/
def hrdShdState (i j : Nat) : Nat := 0x100114 + 0x1000 * i + 0x20 * j
/-- HRD_SHD_LOAD (09_hoard.md R331, R338). -/
def hrdShdLoad (i j : Nat) : Nat := 0x100118 + 0x1000 * i + 0x20 * j
/-- HRD_SHD_SCALE (09_hoard.md R330, R338). -/
def hrdShdScale : Nat := 0x110000
/-- HRD_WIN_NUM (09_hoard.md R338). -/
def hrdWinNum : Nat := 0x110004
/-- HRD_CPY_BASE (13_memory.md R460). -/
def hrdCpyBase (i : Nat) : Nat := 0x120000 + 0x100 * i
/-- HRD_CPY_SIZE (13_memory.md R460). -/
def hrdCpySize (i : Nat) : Nat := 0x120008 + 0x100 * i
/-- HRD_CPY_HEAD (13_memory.md R460). -/
def hrdCpyHead (i : Nat) : Nat := 0x12000C + 0x100 * i
/-- HRD_CPY_TAIL (13_memory.md R460). -/
def hrdCpyTail (i : Nat) : Nat := 0x120010 + 0x100 * i
/-- HRD_CPY_STAT (13_memory.md R460). -/
def hrdCpyStat (i : Nat) : Nat := 0x120014 + 0x100 * i
/-- HRD_CPY_ERR (13_memory.md R460). -/
def hrdCpyErr (i : Nat) : Nat := 0x120018 + 0x100 * i
/-- HRD_CPY_CNT_BYTES (13_memory.md R460). -/
def hrdCpyCntBytes (i : Nat) : Nat := 0x120020 + 0x100 * i
/-- HRD_CPY_CNT_DROP (13_memory.md R446, R460). -/
def hrdCpyCntDrop (i : Nat) : Nat := 0x120028 + 0x100 * i
/-- HRD_CPY_OVF (13_memory.md R460). -/
def hrdCpyOvf (i : Nat) : Nat := 0x12002C + 0x100 * i
/-- TILE_DIE_STAT (14_stack.md R487). -/
def tileDieStat (i : Nat) : Nat := 0x140000 + 0x40 * i
/-- TILE_BOND_CFG (14_stack.md R476, R487). -/
def tileBondCfg : Nat := 0x140080
/-- TILE_BOND_TEST (14_stack.md R485, R487). -/
def tileBondTest : Nat := 0x140088
/-- TILE_BOND_PSTAT (14_stack.md R487). -/
def tileBondPstat (i j : Nat) : Nat := 0x140100 + 0x20 * i + 0x4 * j
/-- TILE_BOND_CNT_PAR (14_stack.md R474, R487). -/
def tileBondCntPar (i j : Nat) : Nat := 0x140200 + 0x20 * i + 0x4 * j
/-- TILE_BOND_CNT_TMO (14_stack.md R474, R487). -/
def tileBondCntTmo (i : Nat) : Nat := 0x140240 + 0x4 * i
/-- TILE_BOND_CNT_REFUSE (14_stack.md R482, R487). -/
def tileBondCntRefuse : Nat := 0x140248
/-- TILE_BOND_OVF (14_stack.md R487). -/
def tileBondOvf : Nat := 0x14024C
/-- SCI_CTRL (15_hitch.md R521). -/
def sciCtrl (i : Nat) : Nat := 0x180000 + 0x100 * i
/-- SCI_STATE (15_hitch.md R492, R521). -/
def sciState (i : Nat) : Nat := 0x180004 + 0x100 * i
/-- SCI_PEER_CAP (15_hitch.md R502, R521). -/
def sciPeerCap (i : Nat) : Nat := 0x180008 + 0x100 * i
/-- SCI_ROUTE (15_hitch.md R500, R521). -/
def sciRoute (i : Nat) : Nat := 0x18000C + 0x100 * i
/-- SCI_CNT_TXFLIT (15_hitch.md R521). -/
def sciCntTxflit (i : Nat) : Nat := 0x180010 + 0x100 * i
/-- SCI_CNT_CREDWAIT (15_hitch.md R499, R521). -/
def sciCntCredwait (i : Nat) : Nat := 0x180018 + 0x100 * i
/-- SCI_CNT_FWD (15_hitch.md R521). -/
def sciCntFwd (i : Nat) : Nat := 0x180020 + 0x100 * i
/-- SCI_CNT_CRC (15_hitch.md R495, R521). -/
def sciCntCrc (i : Nat) : Nat := 0x180028 + 0x100 * i
/-- SCI_CNT_REPLAY (15_hitch.md R495, R521). -/
def sciCntReplay (i : Nat) : Nat := 0x18002C + 0x100 * i
/-- SCI_CNT_RETRAIN (15_hitch.md R496, R521). -/
def sciCntRetrain (i : Nat) : Nat := 0x180030 + 0x100 * i
/-- SCI_CNT_DOWN (15_hitch.md R496, R521). -/
def sciCntDown (i : Nat) : Nat := 0x180034 + 0x100 * i
/-- SCI_CNT_NOROUTE (15_hitch.md R500, R521). -/
def sciCntNoroute (i : Nat) : Nat := 0x180038 + 0x100 * i
/-- SCI_CNT_TMO (15_hitch.md R501, R521). -/
def sciCntTmo (i : Nat) : Nat := 0x18003C + 0x100 * i
/-- SCI_CNT_LOST (15_hitch.md R515, R521). -/
def sciCntLost (i : Nat) : Nat := 0x180040 + 0x100 * i
/-- SCI_HITCH_STAT (15_hitch.md R521). -/
def sciHitchStat : Nat := 0x180400
/-- SCI_CONTRIB_WAIT (15_hitch.md R509, R521). -/
def sciContribWait : Nat := 0x180404
/-- SCI_TIME_OFS (15_hitch.md R505, R521). -/
def sciTimeOfs : Nat := 0x180408
/-- SCI_INBOX_BASE (15_hitch.md R512, R521). -/
def sciInboxBase (i : Nat) : Nat := 0x180410 + 0x10 * i
/-- SCI_INBOX_STAT (15_hitch.md R512, R521). -/
def sciInboxStat (i : Nat) : Nat := 0x180418 + 0x10 * i
/-- SCI_CNT_REFUSE (15_hitch.md R503, R521). -/
def sciCntRefuse : Nat := 0x180520
/-- SCI_CNT_CONTRIB_MISS (15_hitch.md R509, R521). -/
def sciCntContribMiss : Nat := 0x180524
/-- SCI_CNT_CONTRIB_LATE (15_hitch.md R509, R521). -/
def sciCntContribLate : Nat := 0x180528
/-- SCI_CNT_INBOX_LOST (15_hitch.md R512, R521). -/
def sciCntInboxLost : Nat := 0x18052C
/-- SCI_CNT_BCAST_NOANS (15_hitch.md R516, R521). -/
def sciCntBcastNoans : Nat := 0x180530
/-- SCI_CNT_OVF (15_hitch.md R521). -/
def sciCntOvf : Nat := 0x180534
/-- PORT_GTIME_CTRL (19_registers.md R633). -/
def portGtimeCtrl : Nat := 0x1C0000
/-- PORT_LATE_WIN (19_registers.md R633). -/
def portLateWin : Nat := 0x1C0004
/-- PORT_ETYPE (19_registers.md R633). -/
def portEtype : Nat := 0x1C0008
/-- DREY_CTRL (05_drey.md R188). -/
def dreyCtrl : Nat := 0x200000
/-- DREY_VOX0 (05_drey.md R151, R188). -/
def dreyVox0 : Nat := 0x200004
/-- DREY_SPLIT (05_drey.md R156, R188). -/
def dreySplit (i : Nat) : Nat := 0x200010 + 0x4 * i
/-- DREY_ET_BASE (05_drey.md R167, R188). -/
def dreyEtBase (i : Nat) : Nat := 0x200020 + 0x8 * i
/-- DREY_PM_BASE (05_drey.md R165, R188). -/
def dreyPmBase (i : Nat) : Nat := 0x200030 + 0x8 * i
/-- DREY_KM_BASE (05_drey.md R174, R188). -/
def dreyKmBase (i : Nat) : Nat := 0x200040 + 0x8 * i
/-- DREY_KM_SIZE (05_drey.md R177, R188). -/
def dreyKmSize : Nat := 0x200050
/-- DREY_SECT_CLOSE (05_drey.md R178, R188). -/
def dreySectClose (i : Nat) : Nat := 0x200060 + 0x4 * i
/-- DREY_KD (05_drey.md R172, R188). -/
def dreyKd (i : Nat) : Nat := 0x200080 + 0x4 * i
/-- DREY_OCC0 (05_drey.md R188). -/
def dreyOcc0 (i : Nat) : Nat := 0x2000C0 + 0x4 * i
/-- DREY_OCC1 (05_drey.md R188). -/
def dreyOcc1 (i : Nat) : Nat := 0x2000D0 + 0x4 * i
/-- DREY_KM_READY0 (05_drey.md R179, R188). -/
def dreyKmReady0 (i : Nat) : Nat := 0x2000E0 + 0x4 * i
/-- DREY_KM_READY1 (05_drey.md R179, R188). -/
def dreyKmReady1 (i : Nat) : Nat := 0x2000F0 + 0x4 * i
/-- DREY_SECT_STATE (05_drey.md R178, R188). -/
def dreySectState : Nat := 0x200100
/-- DREY_CFG_EVT (05_drey.md R188). -/
def dreyCfgEvt : Nat := 0x200104
/-- DREY_CNT_INS (05_drey.md R188). -/
def dreyCntIns : Nat := 0x200140
/-- DREY_CNT_STALL (05_drey.md R188). -/
def dreyCntStall : Nat := 0x200148
/-- DREY_CNT_CAPWAIT (05_drey.md R159, R188). -/
def dreyCntCapwait : Nat := 0x200150
/-- DREY_CNT_PAIRS (05_drey.md R188). -/
def dreyCntPairs : Nat := 0x200158
/-- DREY_CNT_REFUSE (05_drey.md R168, R188). -/
def dreyCntRefuse (i : Nat) : Nat := 0x200160 + 0x4 * i
/-- DREY_CNT_RANGE (05_drey.md R154, R188). -/
def dreyCntRange : Nat := 0x200170
/-- DREY_CNT_REOPEN (05_drey.md R180, R188). -/
def dreyCntReopen : Nat := 0x200174
/-- DREY_CNT_KMFULL (05_drey.md R177, R188). -/
def dreyCntKmfull : Nat := 0x200178
/-- DREY_CNT_LKSTALE (05_drey.md R182, R188). -/
def dreyCntLkstale : Nat := 0x20017C
/-- DREY_CNT_REIN (05_drey.md R185, R188). -/
def dreyCntRein : Nat := 0x200180
/-- DREY_CNT_ECC (05_drey.md R171, R188). -/
def dreyCntEcc : Nat := 0x200184
/-- DREY_CNT_OVF (05_drey.md R188). -/
def dreyCntOvf : Nat := 0x200188
/-- DREY_ENG_STATE (05_drey.md R188). -/
def dreyEngState (i : Nat) : Nat := 0x200400 + 0x100 * i
/-- TILE_SCHED_CTRL (06_tiles.md R234). -/
def tileSchedCtrl : Nat := 0x240000
/-- TILE_SCHED_PROG (06_tiles.md R226, R234). -/
def tileSchedProg (i : Nat) : Nat := 0x240008 + 0x8 * i
/-- TILE_SCHED_SEL (06_tiles.md R226, R234). -/
def tileSchedSel : Nat := 0x240018
/-- TILE_SCHED_STAT (06_tiles.md R227, R234). -/
def tileSchedStat : Nat := 0x24001C
/-- TILE_SCHED_FDESC_BASE (06_tiles.md R232, R234). -/
def tileSchedFdescBase : Nat := 0x240020
/-- TILE_SCHED_KICK (06_tiles.md R231, R234). -/
def tileSchedKick : Nat := 0x240028
/-- TILE_SCHED_CNT_DISP (06_tiles.md R234). -/
def tileSchedCntDisp : Nat := 0x240040
/-- TILE_SCHED_CNT_LOST (06_tiles.md R234). -/
def tileSchedCntLost : Nat := 0x240048
/-- TILE_SCHED_CNT_REISSUE (06_tiles.md R219, R234). -/
def tileSchedCntReissue : Nat := 0x24004C
/-- TILE_SCHED_CNT_PROGERR (06_tiles.md R227, R234). -/
def tileSchedCntProgerr : Nat := 0x240050
/-- TILE_SCHED_OVF (06_tiles.md R234). -/
def tileSchedOvf : Nat := 0x240054
/-- TILE_ID (06_tiles.md R225, 01_machine.md R25). -/
def tileId (t : Nat) : Nat := 0x1000000 + 0x1000 * t
/-- TILE_STATE (06_tiles.md R222, R225). -/
def tileState (t : Nat) : Nat := 0x1000004 + 0x1000 * t
/-- TILE_MGMT_REQ (06_tiles.md R223, R225). -/
def tileMgmtReq (t : Nat) : Nat := 0x1000008 + 0x1000 * t
/-- TILE_MGMT_STAT (06_tiles.md R223, R225). -/
def tileMgmtStat (t : Nat) : Nat := 0x100000C + 0x1000 * t
/-- TILE_EPOCH (06_tiles.md R202, R225). -/
def tileEpoch (t : Nat) : Nat := 0x1000010 + 0x1000 * t
/-- TILE_SEG_STATE (06_tiles.md R204, R225). -/
def tileSegState (t i : Nat) : Nat := 0x1000018 + 0x1000 * t + 0x4 * i
/-- TILE_SPW_BASE (06_tiles.md R206, R225). -/
def tileSpwBase (t i : Nat) : Nat := 0x1000030 + 0x1000 * t + 0x10 * i
/-- TILE_SPW_SIZE (06_tiles.md R206, R225). -/
def tileSpwSize (t i : Nat) : Nat := 0x1000038 + 0x1000 * t + 0x10 * i
/-- TILE_EPOCH_TOK (06_tiles.md R208, R225). -/
def tileEpochTok (t : Nat) : Nat := 0x1000050 + 0x1000 * t
/-- TILE_TOK_OVF (06_tiles.md R196, R225). -/
def tileTokOvf (t : Nat) : Nat := 0x1000054 + 0x1000 * t
/-- TILE_WDOG (06_tiles.md R217, R225). -/
def tileWdog (t : Nat) : Nat := 0x1000058 + 0x1000 * t
/-- TILE_RESET (06_tiles.md R216, R225). -/
def tileReset (t : Nat) : Nat := 0x100005C + 0x1000 * t
/-- TILE_EXC (06_tiles.md R212, R225). -/
def tileExc (t : Nat) : Nat := 0x1000060 + 0x1000 * t
/-- TILE_EXC_ADDR (06_tiles.md R225). -/
def tileExcAddr (t : Nat) : Nat := 0x1000068 + 0x1000 * t
/-- TILE_TOKEN (06_tiles.md R194, R225). -/
def tileToken (t i : Nat) : Nat := 0x1000080 + 0x1000 * t + 0x4 * i
/-- TILE_CNT_CYCLES (06_tiles.md R225). -/
def tileCntCycles (t : Nat) : Nat := 0x1000100 + 0x1000 * t
/-- TILE_CNT_RETIRE (06_tiles.md R225). -/
def tileCntRetire (t : Nat) : Nat := 0x1000108 + 0x1000 * t
/-- TILE_CNT_ISSTALL (06_tiles.md R190, R225). -/
def tileCntIsstall (t : Nat) : Nat := 0x1000110 + 0x1000 * t
/-- TILE_CNT_TOKWAIT (06_tiles.md R225). -/
def tileCntTokwait (t : Nat) : Nat := 0x1000118 + 0x1000 * t
/-- TILE_CNT_BANK (06_tiles.md R198, R225). -/
def tileCntBank (t : Nat) : Nat := 0x1000120 + 0x1000 * t
/-- TILE_CNT_SBFULL (06_tiles.md R201, R225). -/
def tileCntSbfull (t : Nat) : Nat := 0x1000128 + 0x1000 * t
/-- TILE_CNT_STALE (06_tiles.md R202, R225). -/
def tileCntStale (t : Nat) : Nat := 0x1000130 + 0x1000 * t
/-- TILE_CNT_EXC (06_tiles.md R225). -/
def tileCntExc (t : Nat) : Nat := 0x1000134 + 0x1000 * t
/-- TILE_CNT_LREIN (06_tiles.md R211, R225). -/
def tileCntLrein (t : Nat) : Nat := 0x1000138 + 0x1000 * t
/-- TILE_CNT_REIN (06_tiles.md R225, 12_berbo_reference.md R399). -/
def tileCntRein (t : Nat) : Nat := 0x100013C + 0x1000 * t
/-- TILE_CNT_WDOG (06_tiles.md R217, R225). -/
def tileCntWdog (t : Nat) : Nat := 0x1000140 + 0x1000 * t
/-- TILE_CNT_ABANDON (06_tiles.md R213, R225). -/
def tileCntAbandon (t : Nat) : Nat := 0x1000144 + 0x1000 * t
/-- TILE_CNT_OVF (06_tiles.md R225). -/
def tileCntOvf (t : Nat) : Nat := 0x1000148 + 0x1000 * t
/-- TILE_ARR_STAT (07_arrays.md R272). -/
def tileArrStat (t i : Nat) : Nat := 0x1000200 + 0x1000 * t + 0x40 * i
/-- TILE_ARR_CNT_PASS (07_arrays.md R272). -/
def tileArrCntPass (t i : Nat) : Nat := 0x1000208 + 0x1000 * t + 0x40 * i
/-- TILE_ARR_CNT_BUSY (07_arrays.md R272). -/
def tileArrCntBusy (t i : Nat) : Nat := 0x1000210 + 0x1000 * t + 0x40 * i
/-- TILE_ARR_FRZ_FEED (07_arrays.md R262, R272). -/
def tileArrFrzFeed (t i : Nat) : Nat := 0x1000218 + 0x1000 * t + 0x40 * i
/-- TILE_ARR_FRZ_DRAIN (07_arrays.md R263, R272). -/
def tileArrFrzDrain (t i : Nat) : Nat := 0x1000220 + 0x1000 * t + 0x40 * i
/-- TILE_ARR_CNT_SWAPWAIT (07_arrays.md R251, R272). -/
def tileArrCntSwapwait (t i : Nat) : Nat := 0x1000228 + 0x1000 * t + 0x40 * i
/-- TILE_ARR_CNT_SAT (07_arrays.md R244, R272). -/
def tileArrCntSat (t i : Nat) : Nat := 0x1000230 + 0x1000 * t + 0x40 * i
/-- TILE_ARR_CNT_LDFLT (07_arrays.md R272). -/
def tileArrCntLdflt (t i : Nat) : Nat := 0x1000234 + 0x1000 * t + 0x40 * i
/-- TILE_ARR_OVF (07_arrays.md R272). -/
def tileArrOvf (t i : Nat) : Nat := 0x100023C + 0x1000 * t + 0x40 * i
/-- QLL_STAT (08_quill.md R275, R300). -/
def qllStat (t : Nat) : Nat := 0x1000300 + 0x1000 * t
/-- QLL_CNT_ELEM (08_quill.md R300). -/
def qllCntElem (t : Nat) : Nat := 0x1000308 + 0x1000 * t
/-- QLL_CNT_MSTALL (08_quill.md R282, R300). -/
def qllCntMstall (t : Nat) : Nat := 0x1000310 + 0x1000 * t
/-- QLL_CNT_OSTALL (08_quill.md R286, R300). -/
def qllCntOstall (t : Nat) : Nat := 0x1000318 + 0x1000 * t
/-- QLL_CNT_SKEW (08_quill.md R288, R300). -/
def qllCntSkew (t i : Nat) : Nat := 0x1000320 + 0x1000 * t + 0x8 * i
/-- QLL_CNT_RANGE (08_quill.md R277, R300). -/
def qllCntRange (t : Nat) : Nat := 0x1000340 + 0x1000 * t
/-- QLL_CNT_ORDER (08_quill.md R277, R300). -/
def qllCntOrder (t : Nat) : Nat := 0x1000344 + 0x1000 * t
/-- QLL_CNT_META (08_quill.md R274, R300). -/
def qllCntMeta (t : Nat) : Nat := 0x1000348 + 0x1000 * t
/-- QLL_CNT_SAT (08_quill.md R279, R300). -/
def qllCntSat (t : Nat) : Nat := 0x100034C + 0x1000 * t
/-- QLL_CNT_MASK (08_quill.md R295, R300). -/
def qllCntMask (t : Nat) : Nat := 0x1000350 + 0x1000 * t
/-- QLL_CNT_OVF (08_quill.md R300). -/
def qllCntOvf (t : Nat) : Nat := 0x1000354 + 0x1000 * t
/-- HRD_STAT (09_hoard.md R308, R338). -/
def hrdStat (t : Nat) : Nat := 0x1000400 + 0x1000 * t
/-- HRD_LFSR (09_hoard.md R324, R338). -/
def hrdLfsr (t : Nat) : Nat := 0x1000404 + 0x1000 * t
/-- HRD_PF_MAX (09_hoard.md R319, R338). -/
def hrdPfMax (t : Nat) : Nat := 0x1000408 + 0x1000 * t
/-- HRD_CNT_ROWS (09_hoard.md R338). -/
def hrdCntRows (t : Nat) : Nat := 0x1000410 + 0x1000 * t
/-- HRD_CNT_OUTFULL (09_hoard.md R306, R338). -/
def hrdCntOutfull (t : Nat) : Nat := 0x1000418 + 0x1000 * t
/-- HRD_CNT_PFLATE (09_hoard.md R320, R338). -/
def hrdCntPflate (t : Nat) : Nat := 0x1000420 + 0x1000 * t
/-- HRD_CNT_QCLAMP (09_hoard.md R323, R338). -/
def hrdCntQclamp (t : Nat) : Nat := 0x1000428 + 0x1000 * t
/-- HRD_CNT_NULL (09_hoard.md R307, R338). -/
def hrdCntNull (t : Nat) : Nat := 0x1000430 + 0x1000 * t
/-- HRD_CNT_RANGE (09_hoard.md R307, R338). -/
def hrdCntRange (t : Nat) : Nat := 0x1000434 + 0x1000 * t
/-- HRD_CNT_QBAD (09_hoard.md R310, R338). -/
def hrdCntQbad (t : Nat) : Nat := 0x1000438 + 0x1000 * t
/-- HRD_CNT_PFSTALE (09_hoard.md R320, R338). -/
def hrdCntPfstale (t : Nat) : Nat := 0x100043C + 0x1000 * t
/-- HRD_CNT_UPDORD (09_hoard.md R325, R338). -/
def hrdCntUpdord (t : Nat) : Nat := 0x1000440 + 0x1000 * t
/-- HRD_CNT_UPDBAD (09_hoard.md R326, R338). -/
def hrdCntUpdbad (t : Nat) : Nat := 0x1000444 + 0x1000 * t
/-- HRD_CNT_DEFER (09_hoard.md R332, R338). -/
def hrdCntDefer (t : Nat) : Nat := 0x1000448 + 0x1000 * t
/-- HRD_CNT_DEFLOST (09_hoard.md R332, R338). -/
def hrdCntDeflost (t : Nat) : Nat := 0x100044C + 0x1000 * t
/-- HRD_CNT_OVF (09_hoard.md R338). -/
def hrdCntOvf (t : Nat) : Nat := 0x1000450 + 0x1000 * t
/-- TRE_STAT (10_trees.md R359, R364). -/
def treStat (t : Nat) : Nat := 0x1000500 + 0x1000 * t
/-- TRE_NODES (10_trees.md R359, R364). -/
def treNodes (t : Nat) : Nat := 0x1000504 + 0x1000 * t
/-- TRE_CNT_ENT (10_trees.md R364). -/
def treCntEnt (t : Nat) : Nat := 0x1000508 + 0x1000 * t
/-- TRE_CNT_VISIT (10_trees.md R364). -/
def treCntVisit (t : Nat) : Nat := 0x1000510 + 0x1000 * t
/-- TRE_CNT_BANK (10_trees.md R351, R364). -/
def treCntBank (t : Nat) : Nat := 0x1000518 + 0x1000 * t
/-- TRE_CNT_PASS (10_trees.md R363, R364). -/
def treCntPass (t : Nat) : Nat := 0x1000520 + 0x1000 * t
/-- TRE_CNT_LINK (10_trees.md R350, R364). -/
def treCntLink (t : Nat) : Nat := 0x1000528 + 0x1000 * t
/-- TRE_CNT_FEAT (10_trees.md R350, R364). -/
def treCntFeat (t : Nat) : Nat := 0x100052C + 0x1000 * t
/-- TRE_CNT_DEPTH (10_trees.md R350, R364). -/
def treCntDepth (t : Nat) : Nat := 0x1000530 + 0x1000 * t
/-- TRE_CNT_NAN (10_trees.md R345, R364). -/
def treCntNan (t : Nat) : Nat := 0x1000534 + 0x1000 * t
/-- TRE_CNT_SAT (10_trees.md R354, R364). -/
def treCntSat (t : Nat) : Nat := 0x1000538 + 0x1000 * t
/-- TRE_CNT_LDFLT (10_trees.md R358, R364). -/
def treCntLdflt (t : Nat) : Nat := 0x100053C + 0x1000 * t
/-- TRE_CNT_OVF (10_trees.md R364). -/
def treCntOvf (t : Nat) : Nat := 0x1000540 + 0x1000 * t
/-- TILE_HVEC (11_berbo_model.md R381, R387). -/
def tileHvec (t : Nat) : Nat := 0x1000600 + 0x1000 * t
/-- TILE_HEPC (11_berbo_model.md R381). -/
def tileHepc (t : Nat) : Nat := 0x1000608 + 0x1000 * t
/-- TILE_HSTAT (11_berbo_model.md R381, R383). -/
def tileHstat (t : Nat) : Nat := 0x1000610 + 0x1000 * t
/-- TILE_HSCR (11_berbo_model.md R382). -/
def tileHscr (t i : Nat) : Nat := 0x1000618 + 0x1000 * t + 0x8 * i
/-- TILE_ITEM (11_berbo_model.md R375). -/
def tileItem (t : Nat) : Nat := 0x1000638 + 0x1000 * t
/-- TILE_HPEND (11_berbo_model.md R370). -/
def tileHpend (t : Nat) : Nat := 0x1000640 + 0x1000 * t
/-- TILE_ISAVER (11_berbo_model.md R387, 06_tiles.md R227). -/
def tileIsaver (t : Nat) : Nat := 0x1000648 + 0x1000 * t
/-- TILE_SATP (13_memory.md R433, R459). -/
def tileSatp (t : Nat) : Nat := 0x1000700 + 0x1000 * t
/-- TILE_TLB_INV (13_memory.md R440, R459). -/
def tileTlbInv (t : Nat) : Nat := 0x1000708 + 0x1000 * t
/-- TILE_TLB_STAT (13_memory.md R440, R459). -/
def tileTlbStat (t : Nat) : Nat := 0x1000710 + 0x1000 * t
/-- TILE_CNT_TLBMISS (13_memory.md R459). -/
def tileCntTlbmiss (t : Nat) : Nat := 0x1000718 + 0x1000 * t
/-- TILE_CNT_WALKWAIT (13_memory.md R436, R459). -/
def tileCntWalkwait (t : Nat) : Nat := 0x1000720 + 0x1000 * t
/-- TILE_CNT_TFAULT (13_memory.md R437, R459). -/
def tileCntTfault (t : Nat) : Nat := 0x1000728 + 0x1000 * t
/-- TILE_MEM_OVF (13_memory.md R459). -/
def tileMemOvf (t : Nat) : Nat := 0x100072C + 0x1000 * t
/-- PORT_CTRL (03_range_heads.md R101, R114). -/
def portCtrl (p : Nat) : Nat := 0x1100000 + 0x1000 * p
/-- PORT_STATE (03_range_heads.md R114). -/
def portState (p : Nat) : Nat := 0x1100004 + 0x1000 * p
/-- PORT_HEAD_SERIAL (03_range_heads.md R98, R114). -/
def portHeadSerial (p : Nat) : Nat := 0x1100008 + 0x1000 * p
/-- PORT_CAL_CTRL (03_range_heads.md R99, R100, R114). -/
def portCalCtrl (p : Nat) : Nat := 0x1100010 + 0x1000 * p
/-- PORT_LIFE_MIN (03_range_heads.md R104, R114). -/
def portLifeMin (p : Nat) : Nat := 0x1100014 + 0x1000 * p
/-- PORT_LIFE_WARN (03_range_heads.md R108, R114). -/
def portLifeWarn (p : Nat) : Nat := 0x1100018 + 0x1000 * p
/-- PORT_LIFE_RATED (03_range_heads.md R109, R114). -/
def portLifeRated (p : Nat) : Nat := 0x110001C + 0x1000 * p
/-- PORT_CNT_FCS (03_range_heads.md R73, R114). -/
def portCntFcs (p : Nat) : Nat := 0x1100040 + 0x1000 * p
/-- PORT_CNT_NONSRP (03_range_heads.md R73, R114). -/
def portCntNonsrp (p : Nat) : Nat := 0x1100044 + 0x1000 * p
/-- PORT_CNT_HDR (03_range_heads.md R85, R114). -/
def portCntHdr (p : Nat) : Nat := 0x1100048 + 0x1000 * p
/-- PORT_CNT_LEN (03_range_heads.md R85, R114). -/
def portCntLen (p : Nat) : Nat := 0x110004C + 0x1000 * p
/-- PORT_CNT_CRC (03_range_heads.md R85, R114). -/
def portCntCrc (p : Nat) : Nat := 0x1100050 + 0x1000 * p
/-- PORT_CNT_UNVER (03_range_heads.md R85, R114). -/
def portCntUnver (p : Nat) : Nat := 0x1100054 + 0x1000 * p
/-- PORT_CNT_TUNL (03_range_heads.md R85, R114). -/
def portCntTunl (p : Nat) : Nat := 0x1100058 + 0x1000 * p
/-- PORT_CNT_DUP (03_range_heads.md R85, R114). -/
def portCntDup (p : Nat) : Nat := 0x110005C + 0x1000 * p
/-- PORT_CNT_LOST (03_range_heads.md R87, R114). -/
def portCntLost (p : Nat) : Nat := 0x1100060 + 0x1000 * p
/-- PORT_CNT_LATE (03_range_heads.md R91, R114). -/
def portCntLate (p : Nat) : Nat := 0x1100064 + 0x1000 * p
/-- PORT_CNT_FUTURE (03_range_heads.md R92, R114). -/
def portCntFuture (p : Nat) : Nat := 0x1100068 + 0x1000 * p
/-- PORT_CNT_EMPTY (03_range_heads.md R86, R114). -/
def portCntEmpty (p : Nat) : Nat := 0x110006C + 0x1000 * p
/-- PORT_CNT_BADRET (03_range_heads.md R86, R114). -/
def portCntBadret (p : Nat) : Nat := 0x1100070 + 0x1000 * p
/-- PORT_CNT_PHASE (03_range_heads.md R79, R114). -/
def portCntPhase (p : Nat) : Nat := 0x1100074 + 0x1000 * p
/-- PORT_CNT_LIFEWR (03_range_heads.md R105, R114). -/
def portCntLifewr (p : Nat) : Nat := 0x1100078 + 0x1000 * p
/-- PORT_CNT_OVF (03_range_heads.md R114). -/
def portCntOvf (p : Nat) : Nat := 0x110007C + 0x1000 * p

end Reg

/-- Rows of the GAIT block, part 1. -/
def rowsGait1 : List RegRow := [
  ⟨0x0, [], 1, .ro, 0, 0, false⟩,
  ⟨0x4, [], 1, .rw, 0xFFFF0003, 0, false⟩,
  ⟨0x8, [], 1, .rw, 0xFFFFFFFF, 20, false⟩,
  ⟨0xC, [], 1, .rw, 0xFF, 1, false⟩,
  ⟨0x10, [], 2, .rw, 0xFFFFFFFFFFFFFFFF, 0, false⟩,
  ⟨0x18, [], 1, .rws, 0x1F, 1, false⟩,
  ⟨0x1C, [], 1, .w1c, 0x1F, 0, false⟩,
  ⟨0x20, [], 1, .rws, 0x1F, 0, false⟩,
  ⟨0x24, [], 1, .rws, 0xFF, 0, false⟩,
  ⟨0x28, [], 2, .rws, 0xFFFFFFFFFFFFFFFF, 0, false⟩,
  ⟨0x30, [], 2, .ro, 0, 0, false⟩,
  ⟨0x38, [], 2, .wo, 0xFFFFFFFFFFFFFFFF, 0, false⟩,
  ⟨0x40, [], 2, .rws, 0xFFFFFFFFFFFFFFFF, 0, false⟩,
  ⟨0x48, [], 1, .wo, 0xFFFFFFFF, 0, false⟩,
  ⟨0x4C, [], 1, .rws, 0xFFFFFFFF, 50000, false⟩,
  ⟨0x50, [], 1, .ro, 0, 0, false⟩,
  ⟨0x54, [], 1, .ro, 0, 0, false⟩,
  ⟨0x58, [], 1, .rws, 0xFFFFFFFF, 115, false⟩,
  ⟨0x5C, [], 1, .wo, 0x3, 0, false⟩,
  ⟨0x60, [], 1, .rws, 0x7, 0, false⟩,
  ⟨0x64, [], 1, .rw, 0xFFFFFFFF, 0, false⟩,
  ⟨0x68, [], 1, .wo, 0xFFFFFFFF, 0, false⟩,
  ⟨0x70, [], 1, .ro, 0, 0, false⟩,
  ⟨0x74, [], 1, .rws, 0x1, 0, false⟩,
  ⟨0x78, [], 1, .wo, 0xFFFFFFFF, 0, false⟩,
  ⟨0x7C, [], 1, .wo, 0xFFFFFFFF, 0, false⟩,
  ⟨0x80, [], 1, .wo, 0x3, 0, false⟩,
  ⟨0x84, [], 1, .ro, 0, 0, false⟩,
  ⟨0x88, [], 1, .rw, 0x1, 0, false⟩,
  ⟨0x100, [(16, 0x4)], 1, .wo, 0xFFFFFFFF, 0, false⟩,
  ⟨0x140, [(16, 0x4)], 1, .ro, 0, 0, false⟩,
  ⟨0x200, [(40, 0x4)], 1, .ro, 0, 0, false⟩,
  ⟨0x300, [], 1, .rc, 0, 0, false⟩,
  ⟨0x304, [], 1, .rc, 0, 0, false⟩,
  ⟨0x308, [], 1, .rc, 0, 0, false⟩,
  ⟨0x30C, [], 1, .w1c, 0x7, 0, false⟩,
  ⟨0x400, [], 1, .ro, 0, 0, false⟩,
  ⟨0x408, [], 2, .ro, 0, 0, false⟩,
  ⟨0x410, [], 1, .rw, 0x7, 0, false⟩,
  ⟨0x418, [], 2, .rc, 0, 0, false⟩]

/-- Rows of the GAIT block, part 2. -/
def rowsGait2 : List RegRow := [
  ⟨0x500, [(11, 0x4)], 1, .ro, 0, 0, false⟩,
  ⟨0x600, [(8, 0x4)], 1, .rw, 0xFFFFFFFF, 0, false⟩,
  ⟨0x620, [(8, 0x4)], 1, .rw, 0xFF, 0, false⟩,
  ⟨0x640, [(8, 0x4)], 1, .rw, 0xF, 0, false⟩]

/-- Rows of the GAIT block. -/
def rowsGait : List RegRow := rowsGait1 ++ rowsGait2

/-- Rows of the HLT block. -/
def rowsHlt : List RegRow := [
  ⟨0x0, [], 1, .rws, 0x3, 3, false⟩,
  ⟨0x4, [], 1, .rws, 0xFFFFFFFF, 120, false⟩,
  ⟨0x8, [(2, 0x8)], 2, .rw, 0xFFFFFFFFFFFFFFFF, 0, true⟩,
  ⟨0x20, [(8, 0x4)], 1, .rws, 0xFFFFFF, 0, false⟩,
  ⟨0x40, [], 1, .ro, 0, 4294967295, false⟩,
  ⟨0x48, [], 2, .ro, 0, 281474976710655, false⟩,
  ⟨0x50, [], 2, .ro, 0, 0, false⟩,
  ⟨0x60, [], 1, .wo, 0x7, 0, false⟩,
  ⟨0x64, [], 1, .ro, 0, 0, false⟩,
  ⟨0x68, [], 2, .rws, 0xFFFFFFFFFFFFFFFF, 0, false⟩,
  ⟨0x70, [(4, 0x4)], 1, .wo, 0xFFFFFFFF, 0, false⟩,
  ⟨0x80, [(6, 0x4)], 1, .rw, 0xFFFFFFFF, 0, false⟩,
  ⟨0xA0, [], 1, .rc, 0, 0, false⟩,
  ⟨0xA4, [], 1, .rc, 0, 0, false⟩,
  ⟨0x100, [(2, 0x80)], 2, .ro, 0, 0, false⟩,
  ⟨0x108, [(2, 0x80)], 2, .rc, 0, 0, false⟩,
  ⟨0x110, [(2, 0x80)], 1, .rc, 0, 0, false⟩,
  ⟨0x114, [(2, 0x80)], 1, .rc, 0, 0, false⟩,
  ⟨0x118, [(2, 0x80)], 1, .rc, 0, 0, false⟩,
  ⟨0x11C, [(2, 0x80)], 1, .rc, 0, 0, false⟩,
  ⟨0x120, [(2, 0x80)], 1, .rc, 0, 0, false⟩,
  ⟨0x124, [(2, 0x80)], 1, .rc, 0, 0, false⟩,
  ⟨0x12C, [(2, 0x80)], 1, .rc, 0, 0, false⟩,
  ⟨0x1F0, [], 1, .w1c, 0xFFFF, 0, false⟩]

/-- Rows of the EVT block. -/
def rowsEvt : List RegRow := [
  ⟨0x0, [], 1, .ro, 0, 0, false⟩,
  ⟨0x4, [], 1, .rc, 0, 0, false⟩,
  ⟨0x8, [], 2, .rw, 0xFFFFFFFFFFFFFFFF, 0, false⟩,
  ⟨0x10, [], 1, .wo, 0xFFFFFF, 0, false⟩,
  ⟨0x18, [], 2, .rw, 0xFFFFFFFFFFFFFFFF, 0, true⟩,
  ⟨0x20, [], 1, .rw, 0xFFFFFFFF, 0, false⟩,
  ⟨0x24, [], 1, .ro, 0, 0, false⟩,
  ⟨0x28, [], 1, .ro, 0, 0, false⟩,
  ⟨0x2C, [], 1, .ro, 0, 0, false⟩,
  ⟨0x30, [], 1, .ro, 0, 0, false⟩,
  ⟨0x34, [], 1, .rc, 0, 0, false⟩,
  ⟨0x38, [], 1, .rc, 0, 0, false⟩,
  ⟨0x3C, [], 1, .rc, 0, 0, false⟩,
  ⟨0x40, [], 1, .rc, 0, 0, false⟩,
  ⟨0x44, [(4, 0x4)], 1, .rc, 0, 0, false⟩,
  ⟨0x54, [], 1, .rc, 0, 0, false⟩,
  ⟨0x58, [], 1, .w1c, 0xFFFFF, 0, false⟩,
  ⟨0x100, [(2, 0x4)], 1, .rc, 0, 0, false⟩,
  ⟨0x108, [(2, 0x4)], 1, .rc, 0, 0, false⟩,
  ⟨0x110, [(2, 0x4)], 1, .rc, 0, 0, false⟩,
  ⟨0x118, [(2, 0x4)], 1, .rc, 0, 0, false⟩,
  ⟨0x120, [], 1, .rc, 0, 0, false⟩,
  ⟨0x124, [], 1, .rc, 0, 0, false⟩,
  ⟨0x20000, [(32768, 0x4)], 1, .ro, 0, 0, false⟩]

/-- Rows of the ING block. -/
def rowsIng : List RegRow := [
  ⟨0x0, [], 1, .rw, 0x3, 0, false⟩,
  ⟨0x8, [], 2, .rw, 0xFFFFFFFFFFFFFFFF, 0, true⟩,
  ⟨0x10, [], 1, .rw, 0xFFFFFFFF, 0, false⟩,
  ⟨0x18, [(2, 0x8)], 2, .rw, 0xFFFFFFFFFFFFFFFF, 0, true⟩,
  ⟨0x28, [], 1, .rw, 0xFFFFFFFF, 2097152, false⟩,
  ⟨0x30, [], 1, .rw, 0xFFFFFFFF, 40000, false⟩,
  ⟨0x34, [], 1, .rw, 0xFFFFFFFF, 90, false⟩,
  ⟨0x38, [], 1, .rw, 0xFFFFFFFF, 97, false⟩,
  ⟨0x40, [], 2, .rw, 0xFFFFFFFFFFFFFFFF, 0, true⟩,
  ⟨0x48, [], 1, .rw, 0xFF, 0, false⟩,
  ⟨0x4C, [], 1, .rw, 0xFFFFFFFF, 20, false⟩,
  ⟨0x50, [], 1, .rw, 0xFFFFFFFF, 500, false⟩,
  ⟨0x54, [], 1, .rw, 0xFFFFFFFF, 200, false⟩,
  ⟨0x58, [], 1, .rw, 0xFFFFFFFF, 100, false⟩,
  ⟨0x60, [], 1, .rw, 0xFFFFFFFF, 0, false⟩,
  ⟨0x64, [(3, 0x4)], 1, .rw, 0xFFFFFFFF, 0, false⟩,
  ⟨0x70, [(4, 0x4)], 1, .rw, 0xFFFFFFFF, 0, false⟩,
  ⟨0x80, [], 1, .wo, 0xFFFFFFFF, 0, false⟩,
  ⟨0x88, [], 2, .rc, 0, 0, false⟩,
  ⟨0x90, [], 1, .rc, 0, 0, false⟩,
  ⟨0x94, [], 1, .rc, 0, 0, false⟩,
  ⟨0x98, [], 1, .rc, 0, 0, false⟩,
  ⟨0x9C, [], 1, .rc, 0, 0, false⟩,
  ⟨0xA0, [], 1, .rc, 0, 0, false⟩,
  ⟨0xA4, [], 1, .rc, 0, 0, false⟩,
  ⟨0xA8, [], 1, .rc, 0, 0, false⟩,
  ⟨0xAC, [], 1, .w1c, 0xF, 0, false⟩,
  ⟨0xB0, [], 2, .w1c, 0x7FFFFFFFFFFFFFFF, 0, false⟩,
  ⟨0xB8, [], 2, .rw, 0xFFFFFFFFFFFFFFFF, 0, true⟩,
  ⟨0x100, [(8, 0x40)], 1, .rw, 0xFFFFFFFF, 262144, false⟩,
  ⟨0x104, [(8, 0x40)], 1, .rw, 0x7, 5, false⟩,
  ⟨0x108, [(8, 0x40), (4, 0x4)], 1, .rw, 0xFFFFFFFF, 0, true⟩,
  ⟨0x118, [(8, 0x40), (3, 0x4)], 1, .rw, 0xFFFFFFFF, 0, true⟩,
  ⟨0x124, [(8, 0x40)], 1, .rc, 0, 0, false⟩,
  ⟨0x128, [(8, 0x40)], 1, .rc, 0, 0, false⟩,
  ⟨0x12C, [(8, 0x40)], 1, .rc, 0, 0, false⟩,
  ⟨0x130, [(8, 0x40)], 1, .rc, 0, 0, false⟩,
  ⟨0x134, [(8, 0x40)], 1, .rc, 0, 0, false⟩,
  ⟨0x138, [(8, 0x40)], 1, .rc, 0, 0, false⟩,
  ⟨0x13C, [(8, 0x40)], 1, .rc, 0, 0, false⟩]

/-- Rows of the HRD block. -/
def rowsHrd : List RegRow := [
  ⟨0x0, [(16, 0x1000)], 1, .rw, 0x1FFFFF, 6144, false⟩,
  ⟨0x4, [(16, 0x1000)], 1, .rw, 0x7FFFFFF, 0, false⟩,
  ⟨0x8, [(16, 0x1000)], 1, .ro, 0, 0, false⟩,
  ⟨0x100, [(16, 0x1000), (64, 0x20)], 2, .rw, 0xFFFFFFFFFFFFFFFF, 0, false⟩,
  ⟨0x108, [(16, 0x1000), (64, 0x20)], 2, .rw, 0xFFFFFFFFFFFFFFFF, 0, false⟩,
  ⟨0x110, [(16, 0x1000), (64, 0x20)], 1, .rw, 0xFFFF0003, 0, false⟩,
  ⟨0x114, [(16, 0x1000), (64, 0x20)], 1, .ro, 0, 0, false⟩,
  ⟨0x118, [(16, 0x1000), (64, 0x20)], 1, .ro, 0, 0, false⟩,
  ⟨0x10000, [], 1, .rw, 0xF, 12, false⟩,
  ⟨0x10004, [], 1, .ro, 0, 0, false⟩,
  ⟨0x20000, [(4, 0x100)], 2, .rw, 0xFFFFFFFFFFFFFFFF, 0, true⟩,
  ⟨0x20008, [(4, 0x100)], 1, .rw, 0xFFFFFFFF, 0, false⟩,
  ⟨0x2000C, [(4, 0x100)], 1, .rw, 0x1FFF, 0, false⟩,
  ⟨0x20010, [(4, 0x100)], 1, .ro, 0, 0, false⟩,
  ⟨0x20014, [(4, 0x100)], 1, .ro, 0, 0, false⟩,
  ⟨0x20018, [(4, 0x100)], 1, .w1c, 0x7, 0, false⟩,
  ⟨0x20020, [(4, 0x100)], 2, .rc, 0, 0, false⟩,
  ⟨0x20028, [(4, 0x100)], 1, .rc, 0, 0, false⟩,
  ⟨0x2002C, [(4, 0x100)], 1, .w1c, 0x1, 0, false⟩]

/-- Rows of the STACK block. -/
def rowsStack : List RegRow := [
  ⟨0x0, [(2, 0x40)], 1, .ro, 0, 0, false⟩,
  ⟨0x80, [], 1, .rw, 0xFF, 8, false⟩,
  ⟨0x88, [], 1, .rw, 0x7, 0, false⟩,
  ⟨0x100, [(2, 0x20), (8, 0x4)], 1, .ro, 0, 0, false⟩,
  ⟨0x200, [(2, 0x20), (8, 0x4)], 1, .rc, 0, 0, false⟩,
  ⟨0x240, [(2, 0x4)], 1, .rc, 0, 0, false⟩,
  ⟨0x248, [], 1, .rc, 0, 0, false⟩,
  ⟨0x24C, [], 1, .w1c, 0x7FFFF, 0, false⟩]

/-- Rows of the SCI block. -/
def rowsSci : List RegRow := [
  ⟨0x0, [(2, 0x100)], 1, .rw, 0xF, 2, false⟩,
  ⟨0x4, [(2, 0x100)], 1, .ro, 0, 0, false⟩,
  ⟨0x8, [(2, 0x100)], 1, .ro, 0, 0, false⟩,
  ⟨0xC, [(2, 0x100)], 1, .ro, 0, 0, false⟩,
  ⟨0x10, [(2, 0x100)], 2, .rc, 0, 0, false⟩,
  ⟨0x18, [(2, 0x100)], 2, .rc, 0, 0, false⟩,
  ⟨0x20, [(2, 0x100)], 2, .rc, 0, 0, false⟩,
  ⟨0x28, [(2, 0x100)], 1, .rc, 0, 0, false⟩,
  ⟨0x2C, [(2, 0x100)], 1, .rc, 0, 0, false⟩,
  ⟨0x30, [(2, 0x100)], 1, .rc, 0, 0, false⟩,
  ⟨0x34, [(2, 0x100)], 1, .rc, 0, 0, false⟩,
  ⟨0x38, [(2, 0x100)], 1, .rc, 0, 0, false⟩,
  ⟨0x3C, [(2, 0x100)], 1, .rc, 0, 0, false⟩,
  ⟨0x40, [(2, 0x100)], 1, .rc, 0, 0, false⟩,
  ⟨0x400, [], 1, .ro, 0, 0, false⟩,
  ⟨0x404, [], 1, .rw, 0xFFFFFFFF, 500, false⟩,
  ⟨0x408, [], 1, .ro, 0, 0, false⟩,
  ⟨0x410, [(16, 0x10)], 2, .rw, 0xFFFFFFFFFFFFFFFF, 0, true⟩,
  ⟨0x418, [(16, 0x10)], 1, .ro, 0, 0, false⟩,
  ⟨0x520, [], 1, .rc, 0, 0, false⟩,
  ⟨0x524, [], 1, .rc, 0, 0, false⟩,
  ⟨0x528, [], 1, .rc, 0, 0, false⟩,
  ⟨0x52C, [], 1, .rc, 0, 0, false⟩,
  ⟨0x530, [], 1, .rc, 0, 0, false⟩,
  ⟨0x534, [], 1, .w1c, 0x7FFFF, 0, false⟩]

/-- Rows of the PORTSH block. -/
def rowsPortsh : List RegRow := [
  ⟨0x0, [], 1, .rw, 0x1F, 13, false⟩,
  ⟨0x4, [], 1, .rw, 0x7F, 25, false⟩,
  ⟨0x8, [], 1, .rw, 0xFFFF, 34997, false⟩]

/-- Rows of the DREY block. -/
def rowsDrey : List RegRow := [
  ⟨0x0, [], 1, .rw, 0x7, 6, false⟩,
  ⟨0x4, [], 1, .rw, 0xFFFFFFFF, 100, false⟩,
  ⟨0x10, [(4, 0x4)], 1, .rw, 0xFFFFFFFF, 0, false⟩,
  ⟨0x20, [(2, 0x8)], 2, .rw, 0xFFFFFFFFFFFFFFFF, 0, true⟩,
  ⟨0x30, [(2, 0x8)], 2, .rw, 0xFFFFFFFFFFFFFFFF, 0, true⟩,
  ⟨0x40, [(2, 0x8)], 2, .rw, 0xFFFFFFFFFFFFFFFF, 0, true⟩,
  ⟨0x50, [], 2, .rw, 0xFFFFFFFFFFFFFFFF, 0, true⟩,
  ⟨0x60, [(8, 0x4)], 1, .rw, 0xFFFFFFFF, 2047, false⟩,
  ⟨0x80, [(16, 0x4)], 1, .rw, 0xFF, 0, false⟩,
  ⟨0xC0, [(4, 0x4)], 1, .ro, 0, 0, false⟩,
  ⟨0xD0, [(4, 0x4)], 1, .ro, 0, 0, false⟩,
  ⟨0xE0, [(4, 0x4)], 1, .ro, 0, 0, false⟩,
  ⟨0xF0, [(4, 0x4)], 1, .ro, 0, 0, false⟩,
  ⟨0x100, [], 1, .ro, 0, 0, false⟩,
  ⟨0x104, [], 1, .w1c, 0xF, 0, false⟩,
  ⟨0x140, [], 2, .rc, 0, 0, false⟩,
  ⟨0x148, [], 2, .rc, 0, 0, false⟩,
  ⟨0x150, [], 2, .rc, 0, 0, false⟩,
  ⟨0x158, [], 2, .rc, 0, 0, false⟩,
  ⟨0x160, [(4, 0x4)], 1, .rc, 0, 0, false⟩,
  ⟨0x170, [], 1, .rc, 0, 0, false⟩,
  ⟨0x174, [], 1, .rc, 0, 0, false⟩,
  ⟨0x178, [], 1, .rc, 0, 0, false⟩,
  ⟨0x17C, [], 1, .rc, 0, 0, false⟩,
  ⟨0x180, [], 1, .rc, 0, 0, false⟩,
  ⟨0x184, [], 1, .rc, 0, 0, false⟩,
  ⟨0x188, [], 1, .w1c, 0x3FF, 0, false⟩,
  ⟨0x400, [(4, 0x100)], 1, .ro, 0, 0, false⟩]

/-- Rows of the SCHED block. -/
def rowsSched : List RegRow := [
  ⟨0x0, [], 1, .rw, 0x1, 0, false⟩,
  ⟨0x8, [(2, 0x8)], 2, .rw, 0xFFFFFFFFFFFFFFFF, 0, true⟩,
  ⟨0x18, [], 1, .rw, 0x1, 0, false⟩,
  ⟨0x1C, [], 1, .ro, 0, 0, false⟩,
  ⟨0x20, [], 2, .rw, 0xFFFFFFFFFFFFFFFF, 0, true⟩,
  ⟨0x28, [], 1, .wo, 0xFFFF, 0, false⟩,
  ⟨0x40, [], 2, .rc, 0, 0, false⟩,
  ⟨0x48, [], 1, .rc, 0, 0, false⟩,
  ⟨0x4C, [], 1, .rc, 0, 0, false⟩,
  ⟨0x50, [], 1, .rc, 0, 0, false⟩,
  ⟨0x54, [], 1, .w1c, 0x7, 0, false⟩]

/-- Rows of the TILE block, part 1. -/
def rowsTile1 : List RegRow := [
  ⟨0x0, [], 1, .ro, 0, 0, false⟩,
  ⟨0x4, [], 1, .ro, 0, 0, false⟩,
  ⟨0x8, [], 1, .rw, 0xFFFF0007, 0, false⟩,
  ⟨0xC, [], 1, .w1c, 0x3, 0, false⟩,
  ⟨0x10, [], 1, .ro, 0, 0, false⟩,
  ⟨0x18, [(3, 0x4)], 1, .ro, 0, 0, false⟩,
  ⟨0x30, [(2, 0x10)], 2, .rw, 0xFFFFFFFFFFFFFFFF, 0, true⟩,
  ⟨0x38, [(2, 0x10)], 2, .rw, 0xFFFFFFFFFFFFFFFF, 0, false⟩,
  ⟨0x50, [], 1, .ro, 0, 0, false⟩,
  ⟨0x54, [], 1, .w1c, 0xFFFF, 0, false⟩,
  ⟨0x58, [], 1, .rw, 0xFFFFFFFF, 200, false⟩,
  ⟨0x5C, [], 1, .wo, 0xFFFFFFFF, 0, false⟩,
  ⟨0x60, [], 1, .ro, 0, 0, false⟩,
  ⟨0x68, [], 2, .ro, 0, 0, false⟩,
  ⟨0x80, [(16, 0x4)], 1, .ro, 0, 0, false⟩,
  ⟨0x100, [], 2, .rc, 0, 0, false⟩,
  ⟨0x108, [], 2, .rc, 0, 0, false⟩,
  ⟨0x110, [], 2, .rc, 0, 0, false⟩,
  ⟨0x118, [], 2, .rc, 0, 0, false⟩,
  ⟨0x120, [], 2, .rc, 0, 0, false⟩,
  ⟨0x128, [], 2, .rc, 0, 0, false⟩,
  ⟨0x130, [], 1, .rc, 0, 0, false⟩,
  ⟨0x134, [], 1, .rc, 0, 0, false⟩,
  ⟨0x138, [], 1, .rc, 0, 0, false⟩,
  ⟨0x13C, [], 1, .rc, 0, 0, false⟩,
  ⟨0x140, [], 1, .rc, 0, 0, false⟩,
  ⟨0x144, [], 1, .rc, 0, 0, false⟩,
  ⟨0x148, [], 1, .w1c, 0x3F, 0, false⟩,
  ⟨0x200, [(4, 0x40)], 1, .ro, 0, 0, false⟩,
  ⟨0x208, [(4, 0x40)], 2, .rc, 0, 0, false⟩,
  ⟨0x210, [(4, 0x40)], 2, .rc, 0, 0, false⟩,
  ⟨0x218, [(4, 0x40)], 2, .rc, 0, 0, false⟩,
  ⟨0x220, [(4, 0x40)], 2, .rc, 0, 0, false⟩,
  ⟨0x228, [(4, 0x40)], 2, .rc, 0, 0, false⟩,
  ⟨0x230, [(4, 0x40)], 1, .rc, 0, 0, false⟩,
  ⟨0x234, [(4, 0x40)], 1, .rc, 0, 0, false⟩,
  ⟨0x23C, [(4, 0x40)], 1, .w1c, 0x3, 0, false⟩,
  ⟨0x300, [], 1, .ro, 0, 0, false⟩,
  ⟨0x308, [], 2, .rc, 0, 0, false⟩,
  ⟨0x310, [], 2, .rc, 0, 0, false⟩]

/-- Rows of the TILE block, part 2. -/
def rowsTile2 : List RegRow := [
  ⟨0x318, [], 2, .rc, 0, 0, false⟩,
  ⟨0x320, [(4, 0x8)], 2, .rc, 0, 0, false⟩,
  ⟨0x340, [], 1, .rc, 0, 0, false⟩,
  ⟨0x344, [], 1, .rc, 0, 0, false⟩,
  ⟨0x348, [], 1, .rc, 0, 0, false⟩,
  ⟨0x34C, [], 1, .rc, 0, 0, false⟩,
  ⟨0x350, [], 1, .rc, 0, 0, false⟩,
  ⟨0x354, [], 1, .w1c, 0x1F, 0, false⟩,
  ⟨0x400, [], 1, .ro, 0, 0, false⟩,
  ⟨0x404, [], 1, .rw, 0xFFFFFFFF, 1, false⟩,
  ⟨0x408, [], 1, .rw, 0xFFFFFFFF, 64, false⟩,
  ⟨0x410, [], 2, .rc, 0, 0, false⟩,
  ⟨0x418, [], 2, .rc, 0, 0, false⟩,
  ⟨0x420, [], 2, .rc, 0, 0, false⟩,
  ⟨0x428, [], 2, .rc, 0, 0, false⟩,
  ⟨0x430, [], 1, .rc, 0, 0, false⟩,
  ⟨0x434, [], 1, .rc, 0, 0, false⟩,
  ⟨0x438, [], 1, .rc, 0, 0, false⟩,
  ⟨0x43C, [], 1, .rc, 0, 0, false⟩,
  ⟨0x440, [], 1, .rc, 0, 0, false⟩,
  ⟨0x444, [], 1, .rc, 0, 0, false⟩,
  ⟨0x448, [], 1, .rc, 0, 0, false⟩,
  ⟨0x44C, [], 1, .rc, 0, 0, false⟩,
  ⟨0x450, [], 1, .w1c, 0xFF, 0, false⟩,
  ⟨0x500, [], 1, .ro, 0, 0, false⟩,
  ⟨0x504, [], 1, .ro, 0, 0, false⟩,
  ⟨0x508, [], 2, .rc, 0, 0, false⟩,
  ⟨0x510, [], 2, .rc, 0, 0, false⟩,
  ⟨0x518, [], 2, .rc, 0, 0, false⟩,
  ⟨0x520, [], 2, .rc, 0, 0, false⟩,
  ⟨0x528, [], 1, .rc, 0, 0, false⟩,
  ⟨0x52C, [], 1, .rc, 0, 0, false⟩,
  ⟨0x530, [], 1, .rc, 0, 0, false⟩,
  ⟨0x534, [], 1, .rc, 0, 0, false⟩,
  ⟨0x538, [], 1, .rc, 0, 0, false⟩,
  ⟨0x53C, [], 1, .rc, 0, 0, false⟩,
  ⟨0x540, [], 1, .w1c, 0x3F, 0, false⟩,
  ⟨0x600, [], 2, .rw, 0x3FFFF8, 0, false⟩,
  ⟨0x608, [], 1, .ro, 0, 0, false⟩,
  ⟨0x610, [], 1, .ro, 0, 0, false⟩]

/-- Rows of the TILE block, part 3. -/
def rowsTile3 : List RegRow := [
  ⟨0x618, [(4, 0x8)], 2, .rw, 0xFFFFFFFFFFFFFFFF, 0, true⟩,
  ⟨0x638, [], 1, .ro, 0, 0, false⟩,
  ⟨0x640, [], 1, .ro, 0, 0, false⟩,
  ⟨0x648, [], 1, .ro, 0, 1, false⟩,
  ⟨0x700, [], 2, .rw, 0xFFFFFFFFFFFFFFFF, 0, false⟩,
  ⟨0x708, [], 2, .wo, 0xFFFFFFFFFFFFFFFF, 0, false⟩,
  ⟨0x710, [], 1, .ro, 0, 0, false⟩,
  ⟨0x718, [], 2, .rc, 0, 0, false⟩,
  ⟨0x720, [], 2, .rc, 0, 0, false⟩,
  ⟨0x728, [], 1, .rc, 0, 0, false⟩,
  ⟨0x72C, [], 1, .w1c, 0x1, 0, false⟩]

/-- Rows of the TILE block. -/
def rowsTile : List RegRow := rowsTile1 ++ rowsTile2 ++ rowsTile3

/-- Rows of the PORT block. -/
def rowsPort : List RegRow := [
  ⟨0x0, [], 1, .rw, 0x1F, 0, false⟩,
  ⟨0x4, [], 1, .ro, 0, 0, false⟩,
  ⟨0x8, [], 2, .rw, 0xFFFFFFFFFFFFFFFF, 0, false⟩,
  ⟨0x10, [], 1, .rw, 0x1, 0, false⟩,
  ⟨0x14, [], 1, .rw, 0xFFFFFF, 0, true⟩,
  ⟨0x18, [], 1, .rw, 0xFFFFFF, 1350000, false⟩,
  ⟨0x1C, [], 1, .rw, 0xFFFFFF, 1500000, false⟩,
  ⟨0x40, [], 1, .rc, 0, 0, false⟩,
  ⟨0x44, [], 1, .rc, 0, 0, false⟩,
  ⟨0x48, [], 1, .rc, 0, 0, false⟩,
  ⟨0x4C, [], 1, .rc, 0, 0, false⟩,
  ⟨0x50, [], 1, .rc, 0, 0, false⟩,
  ⟨0x54, [], 1, .rc, 0, 0, false⟩,
  ⟨0x58, [], 1, .rc, 0, 0, false⟩,
  ⟨0x5C, [], 1, .rc, 0, 0, false⟩,
  ⟨0x60, [], 1, .rc, 0, 0, false⟩,
  ⟨0x64, [], 1, .rc, 0, 0, false⟩,
  ⟨0x68, [], 1, .rc, 0, 0, false⟩,
  ⟨0x6C, [], 1, .rc, 0, 0, false⟩,
  ⟨0x70, [], 1, .rc, 0, 0, false⟩,
  ⟨0x74, [], 1, .rc, 0, 0, false⟩,
  ⟨0x78, [], 1, .rc, 0, 0, false⟩,
  ⟨0x7C, [], 1, .w1c, 0x7FFF, 0, false⟩]

/-! ### 32-bit counters and their overflow bits (R607) -/
namespace Cnt

/-- GAIT_CNT_REFUSE, counted in GAIT_CNT_OVF. -/
def gaitCntRefuse : Ctr := ⟨Reg.gaitCntRefuse, Reg.gaitCntOvf, 0⟩
/-- GAIT_CNT_PWRFAIL, counted in GAIT_CNT_OVF. -/
def gaitCntPwrfail : Ctr := ⟨Reg.gaitCntPwrfail, Reg.gaitCntOvf, 1⟩
/-- GAIT_CNT_TWARN, counted in GAIT_CNT_OVF. -/
def gaitCntTwarn : Ctr := ⟨Reg.gaitCntTwarn, Reg.gaitCntOvf, 2⟩
/-- HLT_CNT_PROPBAD, counted in HLT_CNT_OVF. -/
def hltCntPropbad : Ctr := ⟨Reg.hltCntPropbad, Reg.hltCntOvf, 0⟩
/-- HLT_CNT_UNWRAP, counted in HLT_CNT_OVF. -/
def hltCntUnwrap : Ctr := ⟨Reg.hltCntUnwrap, Reg.hltCntOvf, 1⟩
/-- HLT_CNT_SHORT, counted in HLT_CNT_OVF. -/
def hltCntShort (i : Nat) : Ctr := ⟨Reg.hltCntShort i, Reg.hltCntOvf, 2 + 7 * i⟩
/-- HLT_CNT_PCRC, counted in HLT_CNT_OVF. -/
def hltCntPcrc (i : Nat) : Ctr := ⟨Reg.hltCntPcrc i, Reg.hltCntOvf, 3 + 7 * i⟩
/-- HLT_CNT_PFMT, counted in HLT_CNT_OVF. -/
def hltCntPfmt (i : Nat) : Ctr := ⟨Reg.hltCntPfmt i, Reg.hltCntOvf, 4 + 7 * i⟩
/-- HLT_CNT_TRUNC, counted in HLT_CNT_OVF. -/
def hltCntTrunc (i : Nat) : Ctr := ⟨Reg.hltCntTrunc i, Reg.hltCntOvf, 5 + 7 * i⟩
/-- HLT_CNT_SEQ, counted in HLT_CNT_OVF. -/
def hltCntSeq (i : Nat) : Ctr := ⟨Reg.hltCntSeq i, Reg.hltCntOvf, 6 + 7 * i⟩
/-- HLT_CNT_WAKE, counted in HLT_CNT_OVF. -/
def hltCntWake (i : Nat) : Ctr := ⟨Reg.hltCntWake i, Reg.hltCntOvf, 7 + 7 * i⟩
/-- HLT_CNT_STALE, counted in HLT_CNT_OVF. -/
def hltCntStale (i : Nat) : Ctr := ⟨Reg.hltCntStale i, Reg.hltCntOvf, 8 + 7 * i⟩
/-- EVT_LOG_OVWR, counted in EVT_OVF. -/
def evtLogOvwr : Ctr := ⟨Reg.evtLogOvwr, Reg.evtOvf, 0⟩
/-- EVT_CNT_QUAR, counted in EVT_OVF. -/
def evtCntQuar : Ctr := ⟨Reg.evtCntQuar, Reg.evtOvf, 1⟩
/-- EVT_CNT_LIMP, counted in EVT_OVF. -/
def evtCntLimp : Ctr := ⟨Reg.evtCntLimp, Reg.evtOvf, 2⟩
/-- EVT_CNT_MISM, counted in EVT_OVF. -/
def evtCntMism : Ctr := ⟨Reg.evtCntMism, Reg.evtOvf, 3⟩
/-- EVT_CNT_OVERRUN, counted in EVT_OVF. -/
def evtCntOverrun : Ctr := ⟨Reg.evtCntOverrun, Reg.evtOvf, 4⟩
/-- EVT_CNT_SRAM_CE, counted in EVT_OVF. -/
def evtCntSramCe (i : Nat) : Ctr := ⟨Reg.evtCntSramCe i, Reg.evtOvf, 5 + 1 * i⟩
/-- EVT_CNT_BASE_UE, counted in EVT_OVF. -/
def evtCntBaseUe : Ctr := ⟨Reg.evtCntBaseUe, Reg.evtOvf, 9⟩
/-- EVT_CNT_BUR_CE, counted in EVT_OVF. -/
def evtCntBurCe (i : Nat) : Ctr := ⟨Reg.evtCntBurCe i, Reg.evtOvf, 10 + 1 * i⟩
/-- EVT_CNT_BUR_UE, counted in EVT_OVF. -/
def evtCntBurUe (i : Nat) : Ctr := ⟨Reg.evtCntBurUe i, Reg.evtOvf, 12 + 1 * i⟩
/-- EVT_CNT_DDR_CE, counted in EVT_OVF. -/
def evtCntDdrCe (i : Nat) : Ctr := ⟨Reg.evtCntDdrCe i, Reg.evtOvf, 14 + 1 * i⟩
/-- EVT_CNT_DDR_UE, counted in EVT_OVF. -/
def evtCntDdrUe (i : Nat) : Ctr := ⟨Reg.evtCntDdrUe i, Reg.evtOvf, 16 + 1 * i⟩
/-- EVT_CNT_ACCERR, counted in EVT_OVF. -/
def evtCntAccerr : Ctr := ⟨Reg.evtCntAccerr, Reg.evtOvf, 18⟩
/-- EVT_CNT_ENG_ADDR, counted in EVT_OVF. -/
def evtCntEngAddr : Ctr := ⟨Reg.evtCntEngAddr, Reg.evtOvf, 19⟩
/-- ING_CNT_EXTRAP, counted in ING_CNT_OVF. -/
def ingCntExtrap : Ctr := ⟨Reg.ingCntExtrap, Reg.ingCntOvf, 0⟩
/-- ING_CNT_NOPOSE, counted in ING_CNT_OVF. -/
def ingCntNopose : Ctr := ⟨Reg.ingCntNopose, Reg.ingCntOvf, 1⟩
/-- ING_CNT_POSEORD, counted in ING_CNT_OVF. -/
def ingCntPoseord : Ctr := ⟨Reg.ingCntPoseord, Reg.ingCntOvf, 2⟩
/-- ING_CNT_CPOSE_LATE, counted in ING_CNT_OVF. -/
def ingCntCposeLate : Ctr := ⟨Reg.ingCntCposeLate, Reg.ingCntOvf, 3⟩
/-- ING_CNT_CPOSE_FRM, counted in ING_CNT_OVF. -/
def ingCntCposeFrm : Ctr := ⟨Reg.ingCntCposeFrm, Reg.ingCntOvf, 4⟩
/-- ING_CNT_CPOSE_DUP, counted in ING_CNT_OVF. -/
def ingCntCposeDup : Ctr := ⟨Reg.ingCntCposeDup, Reg.ingCntOvf, 5⟩
/-- ING_CNT_REIN, counted in ING_CNT_OVF. -/
def ingCntRein : Ctr := ⟨Reg.ingCntRein, Reg.ingCntOvf, 6⟩
/-- ING_CNT_QUOTA, counted in ING_CNT_OVF. -/
def ingCntQuota (i : Nat) : Ctr := ⟨Reg.ingCntQuota i, Reg.ingCntOvf, 7 + 7 * i⟩
/-- ING_CNT_FULL, counted in ING_CNT_OVF. -/
def ingCntFull (i : Nat) : Ctr := ⟨Reg.ingCntFull i, Reg.ingCntOvf, 8 + 7 * i⟩
/-- ING_CNT_THIN1, counted in ING_CNT_OVF. -/
def ingCntThin1 (i : Nat) : Ctr := ⟨Reg.ingCntThin1 i, Reg.ingCntOvf, 9 + 7 * i⟩
/-- ING_CNT_THIN2, counted in ING_CNT_OVF. -/
def ingCntThin2 (i : Nat) : Ctr := ⟨Reg.ingCntThin2 i, Reg.ingCntOvf, 10 + 7 * i⟩
/-- ING_CNT_ECHO, counted in ING_CNT_OVF. -/
def ingCntEcho (i : Nat) : Ctr := ⟨Reg.ingCntEcho i, Reg.ingCntOvf, 11 + 7 * i⟩
/-- ING_CNT_CALRANGE, counted in ING_CNT_OVF. -/
def ingCntCalrange (i : Nat) : Ctr := ⟨Reg.ingCntCalrange i, Reg.ingCntOvf, 12 + 7 * i⟩
/-- ING_CNT_PSFULL, counted in ING_CNT_OVF. -/
def ingCntPsfull (i : Nat) : Ctr := ⟨Reg.ingCntPsfull i, Reg.ingCntOvf, 13 + 7 * i⟩
/-- HRD_CPY_CNT_DROP, counted in HRD_CPY_OVF. -/
def hrdCpyCntDrop (i : Nat) : Ctr := ⟨Reg.hrdCpyCntDrop i, Reg.hrdCpyOvf i, 0⟩
/-- TILE_BOND_CNT_PAR, counted in TILE_BOND_OVF. -/
def tileBondCntPar (i j : Nat) : Ctr := ⟨Reg.tileBondCntPar i j, Reg.tileBondOvf, 0 + 8 * i + 1 * j⟩
/-- TILE_BOND_CNT_TMO, counted in TILE_BOND_OVF. -/
def tileBondCntTmo (i : Nat) : Ctr := ⟨Reg.tileBondCntTmo i, Reg.tileBondOvf, 16 + 1 * i⟩
/-- TILE_BOND_CNT_REFUSE, counted in TILE_BOND_OVF. -/
def tileBondCntRefuse : Ctr := ⟨Reg.tileBondCntRefuse, Reg.tileBondOvf, 18⟩
/-- SCI_CNT_CRC, counted in SCI_CNT_OVF. -/
def sciCntCrc (i : Nat) : Ctr := ⟨Reg.sciCntCrc i, Reg.sciCntOvf, 0 + 7 * i⟩
/-- SCI_CNT_REPLAY, counted in SCI_CNT_OVF. -/
def sciCntReplay (i : Nat) : Ctr := ⟨Reg.sciCntReplay i, Reg.sciCntOvf, 1 + 7 * i⟩
/-- SCI_CNT_RETRAIN, counted in SCI_CNT_OVF. -/
def sciCntRetrain (i : Nat) : Ctr := ⟨Reg.sciCntRetrain i, Reg.sciCntOvf, 2 + 7 * i⟩
/-- SCI_CNT_DOWN, counted in SCI_CNT_OVF. -/
def sciCntDown (i : Nat) : Ctr := ⟨Reg.sciCntDown i, Reg.sciCntOvf, 3 + 7 * i⟩
/-- SCI_CNT_NOROUTE, counted in SCI_CNT_OVF. -/
def sciCntNoroute (i : Nat) : Ctr := ⟨Reg.sciCntNoroute i, Reg.sciCntOvf, 4 + 7 * i⟩
/-- SCI_CNT_TMO, counted in SCI_CNT_OVF. -/
def sciCntTmo (i : Nat) : Ctr := ⟨Reg.sciCntTmo i, Reg.sciCntOvf, 5 + 7 * i⟩
/-- SCI_CNT_LOST, counted in SCI_CNT_OVF. -/
def sciCntLost (i : Nat) : Ctr := ⟨Reg.sciCntLost i, Reg.sciCntOvf, 6 + 7 * i⟩
/-- SCI_CNT_REFUSE, counted in SCI_CNT_OVF. -/
def sciCntRefuse : Ctr := ⟨Reg.sciCntRefuse, Reg.sciCntOvf, 14⟩
/-- SCI_CNT_CONTRIB_MISS, counted in SCI_CNT_OVF. -/
def sciCntContribMiss : Ctr := ⟨Reg.sciCntContribMiss, Reg.sciCntOvf, 15⟩
/-- SCI_CNT_CONTRIB_LATE, counted in SCI_CNT_OVF. -/
def sciCntContribLate : Ctr := ⟨Reg.sciCntContribLate, Reg.sciCntOvf, 16⟩
/-- SCI_CNT_INBOX_LOST, counted in SCI_CNT_OVF. -/
def sciCntInboxLost : Ctr := ⟨Reg.sciCntInboxLost, Reg.sciCntOvf, 17⟩
/-- SCI_CNT_BCAST_NOANS, counted in SCI_CNT_OVF. -/
def sciCntBcastNoans : Ctr := ⟨Reg.sciCntBcastNoans, Reg.sciCntOvf, 18⟩
/-- DREY_CNT_REFUSE, counted in DREY_CNT_OVF. -/
def dreyCntRefuse (i : Nat) : Ctr := ⟨Reg.dreyCntRefuse i, Reg.dreyCntOvf, 0 + 1 * i⟩
/-- DREY_CNT_RANGE, counted in DREY_CNT_OVF. -/
def dreyCntRange : Ctr := ⟨Reg.dreyCntRange, Reg.dreyCntOvf, 4⟩
/-- DREY_CNT_REOPEN, counted in DREY_CNT_OVF. -/
def dreyCntReopen : Ctr := ⟨Reg.dreyCntReopen, Reg.dreyCntOvf, 5⟩
/-- DREY_CNT_KMFULL, counted in DREY_CNT_OVF. -/
def dreyCntKmfull : Ctr := ⟨Reg.dreyCntKmfull, Reg.dreyCntOvf, 6⟩
/-- DREY_CNT_LKSTALE, counted in DREY_CNT_OVF. -/
def dreyCntLkstale : Ctr := ⟨Reg.dreyCntLkstale, Reg.dreyCntOvf, 7⟩
/-- DREY_CNT_REIN, counted in DREY_CNT_OVF. -/
def dreyCntRein : Ctr := ⟨Reg.dreyCntRein, Reg.dreyCntOvf, 8⟩
/-- DREY_CNT_ECC, counted in DREY_CNT_OVF. -/
def dreyCntEcc : Ctr := ⟨Reg.dreyCntEcc, Reg.dreyCntOvf, 9⟩
/-- TILE_SCHED_CNT_LOST, counted in TILE_SCHED_OVF. -/
def tileSchedCntLost : Ctr := ⟨Reg.tileSchedCntLost, Reg.tileSchedOvf, 0⟩
/-- TILE_SCHED_CNT_REISSUE, counted in TILE_SCHED_OVF. -/
def tileSchedCntReissue : Ctr := ⟨Reg.tileSchedCntReissue, Reg.tileSchedOvf, 1⟩
/-- TILE_SCHED_CNT_PROGERR, counted in TILE_SCHED_OVF. -/
def tileSchedCntProgerr : Ctr := ⟨Reg.tileSchedCntProgerr, Reg.tileSchedOvf, 2⟩
/-- TILE_CNT_STALE, counted in TILE_CNT_OVF. -/
def tileCntStale (t : Nat) : Ctr := ⟨Reg.tileCntStale t, Reg.tileCntOvf t, 0⟩
/-- TILE_CNT_EXC, counted in TILE_CNT_OVF. -/
def tileCntExc (t : Nat) : Ctr := ⟨Reg.tileCntExc t, Reg.tileCntOvf t, 1⟩
/-- TILE_CNT_LREIN, counted in TILE_CNT_OVF. -/
def tileCntLrein (t : Nat) : Ctr := ⟨Reg.tileCntLrein t, Reg.tileCntOvf t, 2⟩
/-- TILE_CNT_REIN, counted in TILE_CNT_OVF. -/
def tileCntRein (t : Nat) : Ctr := ⟨Reg.tileCntRein t, Reg.tileCntOvf t, 3⟩
/-- TILE_CNT_WDOG, counted in TILE_CNT_OVF. -/
def tileCntWdog (t : Nat) : Ctr := ⟨Reg.tileCntWdog t, Reg.tileCntOvf t, 4⟩
/-- TILE_CNT_ABANDON, counted in TILE_CNT_OVF. -/
def tileCntAbandon (t : Nat) : Ctr := ⟨Reg.tileCntAbandon t, Reg.tileCntOvf t, 5⟩
/-- TILE_ARR_CNT_SAT, counted in TILE_ARR_OVF. -/
def tileArrCntSat (t i : Nat) : Ctr := ⟨Reg.tileArrCntSat t i, Reg.tileArrOvf t i, 0⟩
/-- TILE_ARR_CNT_LDFLT, counted in TILE_ARR_OVF. -/
def tileArrCntLdflt (t i : Nat) : Ctr := ⟨Reg.tileArrCntLdflt t i, Reg.tileArrOvf t i, 1⟩
/-- QLL_CNT_RANGE, counted in QLL_CNT_OVF. -/
def qllCntRange (t : Nat) : Ctr := ⟨Reg.qllCntRange t, Reg.qllCntOvf t, 0⟩
/-- QLL_CNT_ORDER, counted in QLL_CNT_OVF. -/
def qllCntOrder (t : Nat) : Ctr := ⟨Reg.qllCntOrder t, Reg.qllCntOvf t, 1⟩
/-- QLL_CNT_META, counted in QLL_CNT_OVF. -/
def qllCntMeta (t : Nat) : Ctr := ⟨Reg.qllCntMeta t, Reg.qllCntOvf t, 2⟩
/-- QLL_CNT_SAT, counted in QLL_CNT_OVF. -/
def qllCntSat (t : Nat) : Ctr := ⟨Reg.qllCntSat t, Reg.qllCntOvf t, 3⟩
/-- QLL_CNT_MASK, counted in QLL_CNT_OVF. -/
def qllCntMask (t : Nat) : Ctr := ⟨Reg.qllCntMask t, Reg.qllCntOvf t, 4⟩
/-- HRD_CNT_NULL, counted in HRD_CNT_OVF. -/
def hrdCntNull (t : Nat) : Ctr := ⟨Reg.hrdCntNull t, Reg.hrdCntOvf t, 0⟩
/-- HRD_CNT_RANGE, counted in HRD_CNT_OVF. -/
def hrdCntRange (t : Nat) : Ctr := ⟨Reg.hrdCntRange t, Reg.hrdCntOvf t, 1⟩
/-- HRD_CNT_QBAD, counted in HRD_CNT_OVF. -/
def hrdCntQbad (t : Nat) : Ctr := ⟨Reg.hrdCntQbad t, Reg.hrdCntOvf t, 2⟩
/-- HRD_CNT_PFSTALE, counted in HRD_CNT_OVF. -/
def hrdCntPfstale (t : Nat) : Ctr := ⟨Reg.hrdCntPfstale t, Reg.hrdCntOvf t, 3⟩
/-- HRD_CNT_UPDORD, counted in HRD_CNT_OVF. -/
def hrdCntUpdord (t : Nat) : Ctr := ⟨Reg.hrdCntUpdord t, Reg.hrdCntOvf t, 4⟩
/-- HRD_CNT_UPDBAD, counted in HRD_CNT_OVF. -/
def hrdCntUpdbad (t : Nat) : Ctr := ⟨Reg.hrdCntUpdbad t, Reg.hrdCntOvf t, 5⟩
/-- HRD_CNT_DEFER, counted in HRD_CNT_OVF. -/
def hrdCntDefer (t : Nat) : Ctr := ⟨Reg.hrdCntDefer t, Reg.hrdCntOvf t, 6⟩
/-- HRD_CNT_DEFLOST, counted in HRD_CNT_OVF. -/
def hrdCntDeflost (t : Nat) : Ctr := ⟨Reg.hrdCntDeflost t, Reg.hrdCntOvf t, 7⟩
/-- TRE_CNT_LINK, counted in TRE_CNT_OVF. -/
def treCntLink (t : Nat) : Ctr := ⟨Reg.treCntLink t, Reg.treCntOvf t, 0⟩
/-- TRE_CNT_FEAT, counted in TRE_CNT_OVF. -/
def treCntFeat (t : Nat) : Ctr := ⟨Reg.treCntFeat t, Reg.treCntOvf t, 1⟩
/-- TRE_CNT_DEPTH, counted in TRE_CNT_OVF. -/
def treCntDepth (t : Nat) : Ctr := ⟨Reg.treCntDepth t, Reg.treCntOvf t, 2⟩
/-- TRE_CNT_NAN, counted in TRE_CNT_OVF. -/
def treCntNan (t : Nat) : Ctr := ⟨Reg.treCntNan t, Reg.treCntOvf t, 3⟩
/-- TRE_CNT_SAT, counted in TRE_CNT_OVF. -/
def treCntSat (t : Nat) : Ctr := ⟨Reg.treCntSat t, Reg.treCntOvf t, 4⟩
/-- TRE_CNT_LDFLT, counted in TRE_CNT_OVF. -/
def treCntLdflt (t : Nat) : Ctr := ⟨Reg.treCntLdflt t, Reg.treCntOvf t, 5⟩
/-- TILE_CNT_TFAULT, counted in TILE_MEM_OVF. -/
def tileCntTfault (t : Nat) : Ctr := ⟨Reg.tileCntTfault t, Reg.tileMemOvf t, 0⟩
/-- PORT_CNT_FCS, counted in PORT_CNT_OVF. -/
def portCntFcs (p : Nat) : Ctr := ⟨Reg.portCntFcs p, Reg.portCntOvf p, 0⟩
/-- PORT_CNT_NONSRP, counted in PORT_CNT_OVF. -/
def portCntNonsrp (p : Nat) : Ctr := ⟨Reg.portCntNonsrp p, Reg.portCntOvf p, 1⟩
/-- PORT_CNT_HDR, counted in PORT_CNT_OVF. -/
def portCntHdr (p : Nat) : Ctr := ⟨Reg.portCntHdr p, Reg.portCntOvf p, 2⟩
/-- PORT_CNT_LEN, counted in PORT_CNT_OVF. -/
def portCntLen (p : Nat) : Ctr := ⟨Reg.portCntLen p, Reg.portCntOvf p, 3⟩
/-- PORT_CNT_CRC, counted in PORT_CNT_OVF. -/
def portCntCrc (p : Nat) : Ctr := ⟨Reg.portCntCrc p, Reg.portCntOvf p, 4⟩
/-- PORT_CNT_UNVER, counted in PORT_CNT_OVF. -/
def portCntUnver (p : Nat) : Ctr := ⟨Reg.portCntUnver p, Reg.portCntOvf p, 5⟩
/-- PORT_CNT_TUNL, counted in PORT_CNT_OVF. -/
def portCntTunl (p : Nat) : Ctr := ⟨Reg.portCntTunl p, Reg.portCntOvf p, 6⟩
/-- PORT_CNT_DUP, counted in PORT_CNT_OVF. -/
def portCntDup (p : Nat) : Ctr := ⟨Reg.portCntDup p, Reg.portCntOvf p, 7⟩
/-- PORT_CNT_LOST, counted in PORT_CNT_OVF. -/
def portCntLost (p : Nat) : Ctr := ⟨Reg.portCntLost p, Reg.portCntOvf p, 8⟩
/-- PORT_CNT_LATE, counted in PORT_CNT_OVF. -/
def portCntLate (p : Nat) : Ctr := ⟨Reg.portCntLate p, Reg.portCntOvf p, 9⟩
/-- PORT_CNT_FUTURE, counted in PORT_CNT_OVF. -/
def portCntFuture (p : Nat) : Ctr := ⟨Reg.portCntFuture p, Reg.portCntOvf p, 10⟩
/-- PORT_CNT_EMPTY, counted in PORT_CNT_OVF. -/
def portCntEmpty (p : Nat) : Ctr := ⟨Reg.portCntEmpty p, Reg.portCntOvf p, 11⟩
/-- PORT_CNT_BADRET, counted in PORT_CNT_OVF. -/
def portCntBadret (p : Nat) : Ctr := ⟨Reg.portCntBadret p, Reg.portCntOvf p, 12⟩
/-- PORT_CNT_PHASE, counted in PORT_CNT_OVF. -/
def portCntPhase (p : Nat) : Ctr := ⟨Reg.portCntPhase p, Reg.portCntOvf p, 13⟩
/-- PORT_CNT_LIFEWR, counted in PORT_CNT_OVF. -/
def portCntLifewr (p : Nat) : Ctr := ⟨Reg.portCntLifewr p, Reg.portCntOvf p, 14⟩

end Cnt

/-- The blocks of Table 19-2 that are not slots: base register offset and rows. -/
def fixedBlocks : List (Nat × List RegRow) := [
  (0x0, rowsGait), (0x40000, rowsHlt), (0x80000, rowsEvt), (0xC0000, rowsIng), (0x100000, rowsHrd),
  (0x140000, rowsStack), (0x180000, rowsSci), (0x1C0000, rowsPortsh), (0x200000, rowsDrey), (0x240000, rowsSched)]

/-- The word of a repeated register that lies `rel` past its first: `some` word index within its instance. -/
def RegRow.hit : List (Nat × Nat) → (words rel : Nat) → Option Nat
  | [], words, rel => if rel < 4 * words then some (rel / 4) else none
  | (c, st) :: r, words, rel => if rel / st < c then RegRow.hit r words (rel % st) else none

/-- The row of a block's table that holds the word at block offset `o`, with the word's index in its register. -/
def findRow : List RegRow → Nat → Option (RegRow × Nat)
  | [], _ => none
  | r :: rest, o =>
    if r.off ≤ o then
      match RegRow.hit r.dims r.words (o - r.off) with
      | some w => some (r, w)
      | none => findRow rest o
    else findRow rest o

/-- The rows of the block that holds register offset `off`, and the offset in that block (Table 19-2). A word of a Drey
engine slot is the DREY block's own (R615). -/
def blockOf (off : Nat) : Option (List RegRow × Nat) :=
  if off < 0x280000 then (fixedBlocks[off / 0x40000]?).map (fun b => (b.2, off % 0x40000))
  else if 0x1000000 ≤ off ∧ off < 0x1020000 then some (rowsTile, off % 0x1000)
  else if 0x1100000 ≤ off ∧ off < 0x1108000 then some (rowsPort, off % 0x1000)
  else none

/-- The register row and word index at a word-aligned register offset. -/
def regAt (off : Nat) : Option (RegRow × Nat) :=
  match blockOf off with
  | some (rows, o) => findRow rows o
  | none => none

/-- Reset value of the word at register offset `off`: its table's Reset column; 0 where the table gives X or none (log 5,
log 6). DREY_SPLIT resets to the default split of R155. -/
def regReset (off : Nat) : W32 :=
  if off == 0x200010 then 1048576
  else if off == 0x200014 then 262144
  else if off == 0x200018 then 131072
  else if off == 0x20001C then 131072
  else match regAt off with
  | some (r, w) => BitVec.ofNat 32 (r.rst >>> (32 * w))
  | none => 0

end Sys2Proof.Machine
end

