-- ==== Sys2Proof/Machine/StateBase.lean ====
section
/-! DEFINITION. The parts of the machine's state that belong to the base die and the always-on domain: what each unit holds
besides its registers, which all live in the one register file. -/

namespace Sys2Proof.Machine

/-! ### Installation and memory -/

/-- What a package is built and fitted with (log 9): variant and die revisions (Table 19-4), serial number, installed
LPDDR5X in GiB with both controllers together, and inline ECC (R426, R427, R429). -/
structure Install where
  variant14 : Bool
  baseRev : BitVec 4
  cmpRev : BitVec 4
  serial : BitVec 64
  lpddrGiB : Nat
  inlineEcc : Bool
  deriving DecidableEq, Repr

/-- Device memory of the package: burrow memory and LPDDR5X (Table 13-1) by local physical address. An unlisted byte
reads 0, or, once a store's contents have been lost, a free value named from the fill (log 10). `bad` lists the
uncorrectable words (burrow: 64-bit word address; LPDDR5X: 64-byte granule address), true for one that holds the copy
engine's poison code (R424, R425, R429); `soft` lists the words that hold a correctable error. `l2Dirty` holds the bytes of dirty host-cache lines (R431). -/
structure Mem where
  cells : List Host.Cell
  burFill : Option Nat
  ddrFill : Option Nat
  bad : List (Nat × Bool)
  soft : List Nat
  l2Dirty : List Host.Cell
  deriving DecidableEq, Repr

/-- The memory controllers and the scrubber: the refresh-rate code last read and the write-DQ retrains made, by controller
(R430, R652), the 64-byte line each burrow half's scrubber reads next (R424), and the copy channel whose block the copy
engine moves next (R445). -/
structure DdrSt where
  rate : Vector Nat 2
  retrains : Vector Nat 2
  scrub : Nat
  copyTurn : Nat
  deriving DecidableEq, Repr

/-! ### Poses -/

/-- A vector of exact rationals, in 0.1 mm or mm as its user says. -/
structure Vec3 where
  x : Rat
  y : Rat
  z : Rat
  deriving DecidableEq, Repr

/-- A quaternion W, X, Y, Z, of any norm. -/
structure Quat where
  w : Rat
  x : Rat
  y : Rat
  z : Rat
  deriving DecidableEq, Repr

/-- A rigid motion: translation in 0.1 mm, rotation as a quaternion of any norm. -/
structure Motion where
  t : Vec3
  q : Quat
  deriving DecidableEq, Repr

/-- One valid pose-ring entry the ingest engine holds (Table 04-2): its ring index, time in ns and pose. -/
structure PoseEntry where
  idx : Nat
  time : Nat
  pose : Motion
  deriving DecidableEq, Repr

/-- A closed interval that holds an exact real value. -/
structure Iv where
  lo : Rat
  hi : Rat
  deriving DecidableEq, Repr

/-- A vector of intervals. -/
structure IvVec where
  x : Iv
  y : Iv
  z : Iv
  deriving DecidableEq, Repr

/-- A quaternion of intervals. -/
structure IvQuat where
  w : Iv
  x : Iv
  y : Iv
  z : Iv
  deriving DecidableEq, Repr

/-- A rigid motion whose parts are known as intervals, in the units of `Motion`: exact where the intervals are points. -/
structure IvMotion where
  t : IvVec
  q : IvQuat
  deriving DecidableEq, Repr

/-! ### Frames and epochs -/

/-- How far the rein-back of an epoch has come, Table 02-4. `wait`: the test failed, the late-arrival window is still
open (R133). `run`: step 1 done; the tiles still to report, and whether steps 3 and 4 are done. `rerun`: ingest has
been released. -/
inductive Rein where
  | none
  | wait
  | run (tilesLeft : List TileId) (hoardDone dreyDone : Bool)
  | rerun
  deriving DecidableEq, Repr

/-- The pose decision of a frame (R46 to R50): not taken, corrected pose accepted and within tolerance, accepted but
outside it, or the deadline passed without one. -/
inductive Decision where
  | open
  | passed
  | failed
  | unconfirmed
  deriving DecidableEq, Repr

/-- What one epoch has done with one port's returns (R139, R141, Table 18-4). -/
structure PortTally where
  admitted : Nat
  beyond : Nat
  quota : Nat
  full : Nat
  thin1 : Nat
  thin2 : Nat
  psFull : Nat
  deriving DecidableEq, Repr

/-- A point the ingest engine has put in the point buffer and Drey has inserted: index, level-0 row and sector of its
level-0 cell, whether it is unresolved, the LATE bit of its word, and its keys, finest first (R165, R171, R177). -/
structure PtInfo where
  idx : Nat
  row0 : Nat
  sector : Nat
  unres : Bool
  late : Bool
  keys : List Nat
  deriving DecidableEq, Repr

/-- The standing of a tagged item of an epoch (R229): waiting, in the queue of a tile or running there, finished, lost. -/
inductive ItemSt where
  | waiting
  | held (t : TileId)
  | finished
  | lost
  deriving DecidableEq, Repr

/-- The placement of one die for an epoch (R594): full, N-1, or N-1 in limp operation, with the tiles its slots map to. -/
structure Placement where
  full : Bool
  limp : Bool
  slots : List TileId
  deriving DecidableEq, Repr

/-- A live epoch: one frame's work (R42 to R44). -/
structure Epoch where
  /-- Frame number; its epoch tag is this modulo 256. -/
  frame : Nat
  /-- B(n-1), the boundary that opened the frame, and B(n), as scheduled when the epoch opened, in ns. -/
  openT : Nat
  closeT : Nat
  /-- B(n) has passed. -/
  closed : Bool
  /-- The register file as latched when the epoch opened (R145, R155, R226), and its words whose reset is X that had been
  written by then (R660). -/
  conf : List (Nat × W32)
  wrote : List Nat
  /-- Ride-ahead was enabled when it opened (R45). -/
  ride : Bool
  /-- It opened with no tile work (R227), or its selected program buffer. -/
  noWork : Bool
  buf : Fin 2
  place : List Placement
  /-- Tiles in service at its opening, bit per logical ID. -/
  inService : Nat
  /-- pose(B(n-1)), fixed at opening (R128); none when the ring held no pose there. -/
  refPose : Option IvMotion
  /-- Ports covered at B(n) (R523) and ports absent there (R113). -/
  covered : Nat
  absent : Nat
  /-- The late-arrival window in force at B(n), ns, the pose deadline in force, ns, and whether the window has ended. -/
  lateWin : Nat
  poseDl : Nat
  lateDone : Bool
  /-- The pose decision, the accepted corrected motion, and the correction Δ computed at its acceptance; none where the ring gave
  no predicted motion then (R132). -/
  decision : Decision
  cpose : Option Motion
  delta : Option IvMotion
  rein : Rein
  reined : Bool
  promoted : Bool
  /-- Ingest's place in arrival order: packets and records already taken for this epoch; and how far the first pass of a frame
  that was reined back had come (R144). -/
  cursor : Nat × Nat
  reached : Nat × Nat
  /-- Returns skipped on the first pass for want of a pose: arrival number and record (R127, R143). -/
  nopose : List (Nat × Nat)
  /-- Points admitted (occ of R139), and per-port tallies. -/
  occ : Nat
  ports : Vector PortTally 8
  /-- A head past rated life gave a point (Table 16-1). -/
  expiredPts : Bool
  /-- Drey: directory (key word, row), refused or lost keys, points inserted, counts of Table 18-4. -/
  dir : List (Nat × Nat)
  refused : List Nat
  /-- Keys an uncorrectable directory error made unresolved for the rest of the pass (R171). -/
  eccLost : List Nat
  pts : List PtInfo
  refuse : Vector Nat 4
  unresolved : Nat
  incomplete : Nat
  reopens : Nat
  gridSat : Bool
  /-- Drey: sectors whose lists are being generated, next free pair index of the kernel-map region, first pass ended. -/
  kmBusy : Nat
  kmNext : Nat
  /-- Sectors with an incomplete list (R177). -/
  kmBad : Nat
  /-- Some cause set the degraded flag. -/
  degraded : Bool
  propBad : Bool
  /-- Tile work: standing of each tagged item, lost, uncovered sectors, a cluster-scoring item lost, tiles quarantined. -/
  items : List (Nat × ItemSt)
  lostSect : Nat
  uncovSect : Nat
  clusterLost : Bool
  clusterUncov : Bool
  quarTiles : Nat
  expDropped : Bool
  deriving DecidableEq, Repr

/-- A packet held in the packet store (Table 04-1): slot, arrival number, port, reception time, first and last frame. -/
structure PktInfo where
  slot : Nat
  arrival : Nat
  port : PortId
  rx : Nat
  f0 : Nat
  f1 : Nat
  /-- Returns before this instant are not admitted: the boundary at which the head was verified (R101). Returns at or beyond
  `upTo` were future when the packet came (R92). -/
  since : Nat
  upTo : Nat
  bytes : List Byte
  deriving DecidableEq, Repr

/-- An admitted return held for a newer pose entry (R126): its frame and time, calibrated point, record bits, place in the point
buffer, when the hold began, and whether the first pass took it before (R144). -/
structure HeldRet where
  frame : Nat
  time : Nat
  vec : IvVec
  bits : Nat
  idx : Nat
  since : Nat
  again : Bool
  deriving DecidableEq, Repr

/-- A point record on its way to Drey (stage 4 to 5): frame, point index, coordinates in mm. -/
structure Staged where
  frame : Nat
  idx : Nat
  x : Int
  y : Int
  z : Int
  deriving DecidableEq, Repr

/-- The frame timer and the frames in flight (R29, R32, R60, R563). -/
structure FrameSt where
  /-- The origin has not come yet (R564). -/
  atOrigin : Bool
  /-- Next boundary, last two boundaries and period in progress, in ns. -/
  nextB : Nat
  lastB : Nat
  prevB : Nat
  period : Nat
  /-- Frames begun and their opening boundaries, newest first, at most four. -/
  bounds : List (Nat × Nat)
  /-- The live epochs, older first (R29). -/
  live : List Epoch
  /-- First frame whose epoch has not opened, while ingest is enabled and Trot has been reached. -/
  nextOpen : Option Nat
  /-- A clear of ING_CTRL.EN has taken effect (R149). -/
  stopped : Bool
  /-- Frame most recently closed, none before the first close; the instant of its pose deadline, whether a corrected pose for it
  has been accepted (R131, R134), and the ports that were up and verified at its close (R113, R523). -/
  lastClosed : Option Nat
  cposeDl : Nat
  cposeDone : Bool
  closedGood : Nat
  /-- Instant of the last frame-period write on the lead of a hitch and the period in µs in force before it (R506). -/
  perWrite : Nat
  perPrev : Nat
  deriving DecidableEq, Repr

/-- Ingest besides its registers: packets in the store, arrival count, next slot, published pose entries, last published
ring index, held returns, and returns lost for want of a slot by frames whose epoch has not opened, as (frame, port, count)
(R117). -/
structure IngestSt where
  pkts : List PktInfo
  arrivals : Nat
  nextSlot : Nat
  ring : List PoseEntry
  ringHead : Option Nat
  waiting : List HeldRet
  lost : List (Nat × Nat × Nat)
  deriving DecidableEq, Repr

/-- Drey besides its registers: staged points, the split in force, the splits to come with the frame each applies from (R161),
entries per level still held by a retired epoch's scan, and the frame whose inserts stall for capacity (R159). -/
structure DreySt where
  staged : List Staged
  split : Vector Nat 4
  wantSplit : List (Nat × Vector Nat 4)
  scanning : Option (Vector Nat 4)
  capStall : Option Nat
  deriving DecidableEq, Repr

/-- A head port besides its registers: last accepted SEQ (none: the next packet sets the reference, R88), the PHY's link,
a lit packet accepted this second, seconds accumulated (always-on, R106), a pending life write, the waiting PORT_CTRL
request (verified or not, count of HEAD and SER_MISM changes at the write, GEN carried, writer), the count of those
changes, the boundary of the last verification, and the sweep phase offset programmed into the head, in ns (R79). -/
structure PortSt where
  seqRef : Option Nat
  phyUp : Bool
  litNow : Bool
  litSec : Nat
  lifePend : Option Nat
  req : Option (Bool × Nat × Nat × ReqId)
  reqGen : Nat
  since : Nat
  phase : Nat
  syncSeq : Nat
  pdelaySeq : Nat
  /-- gPTP messages sent by the port, newest first: kind (0 Sync, 1 Follow_Up, 2 Pdelay_Req, 3 Pdelay_Resp, 4
  Pdelay_Resp_Follow_Up), sequence number, time. -/
  sent : List (Nat × Nat × Nat)
  deriving DecidableEq, Repr

/-- A private transfer on an I3C bus (R95): the head's dynamic address, read or write, offset, bytes. -/
structure I3cXfer where
  addr : Nat
  read : Bool
  off : Nat
  bytes : List Byte
  deriving DecidableEq, Repr

/-- An I3C controller: hot-joins and in-band interrupts raised by its four heads and not yet seen by firmware, the dynamic address
ENTDAA gave each head, and the private transfers it has made, oldest first (R94, R95, R104). -/
structure I3cSt where
  hotJoin : Nat
  ibi : Nat
  addr : Vector (Option Nat) 4
  xfers : List I3cXfer
  deriving DecidableEq, Repr

/-! ### Scheduler and copy engine -/

/-- A management request waiting for the boundary: request code, GEN carried, whether it matched at the write, whether
the state changed since, requester and register offset (R598). -/
structure MgmtReq where
  code : Nat
  gen : Nat
  matched : Bool
  changed : Bool
  req : ReqId
  off : Nat
  deriving DecidableEq, Repr

/-- Program tables of one buffer as the scheduler has checked them (R227): descriptor fields it keeps, and the consumer of each
dependency word. -/
structure ProgInfo where
  t : Nat
  u : Nat
  deps : Nat
  itemBase : Nat
  depBase : Nat
  placeBase : Nat
  exp0 : Nat
  exp1 : Nat
  proposal : Nat
  fills : List Nat
  cons : List Nat
  deriving DecidableEq, Repr

/-- The tile scheduler besides its registers: checked programs, a check in progress, the untagged items of trigger 0 still to run,
a sequence for each commit (buffer, next index, placement of the epoch that committed), whether one is running, kicked items,
and the instants of the last tile wakes (R553). -/
structure SchedSt where
  progs : Vector (Option ProgInfo) 2
  checking : Vector Bool 2
  untag : List (Fin 2 × Nat × List Placement)
  untagBusy : Bool
  kicks : List (Fin 2 × Nat × List Placement)
  wakes : List (Nat × Nat)
  deriving DecidableEq, Repr

/-- A copy channel besides its registers: descriptor override of channel 0 (source and length for the pair in flight),
the frame whose export is in flight, and the descriptors completed since reset; of the descriptor at its TAIL the bytes moved,
the bits of HRD_CPY_ERR it has met, whether reads of another member have been sent for it, those still to be answered (TAG,
address, bytes), the bytes they brought by address and the addresses of the 8-byte units that came poisoned, and the TAGs of its
writes whose acknowledgements are awaited (R444, R514). -/
structure CopySt where
  fill : List (Nat × Nat)
  expFrame : Option Nat
  writes : Nat
  moved : Nat
  err : Nat
  begun : Bool
  reads : List (Nat × Nat × Nat)
  buf : List Host.Cell
  poison : List Nat
  awaits : List Nat
  deriving DecidableEq, Repr

/-- A Hoard shard in the directory: a waiting request, a switch whose old requests have not all returned with the homes it
left, and requests counted below one unit (R330, R331, R333). -/
structure ShardSt where
  req : Option MgmtReq
  switching : Bool
  old : List Nat
  windowCount : Nat
  deriving DecidableEq, Repr

/-! ### PCI Express and the hitch -/

/-- A request the package has sent on PCI Express: bus address, bytes, poisoned (EP), or an MSI-X message by vector. -/
inductive PcieOut where
  | write (addr : Nat) (bytes : List Byte) (ep : Bool)
  | msix (vector : Nat)
  | msi (vector : Nat)
  deriving DecidableEq, Repr

/-- The PCI Express port: the root-port or endpoint role (R447), enabled for inbound requests (R663), what it has sent,
oldest first, and the completion of the last inbound request: status (0 successful, 1 Unsupported Request), bytes, and
the offsets of the 64-byte lines whose completions carry EP (R425). -/
structure PcieSt where
  endpoint : Bool
  ready : Bool
  sent : List PcieOut
  lastCpl : Nat × List Byte × List Nat
  deriving DecidableEq, Repr

/-- An SCI message as it stands between packages (Table 15-4): opcode, header fields, data. -/
structure SciMsg where
  op : Nat
  hdr : SciHdr
  data : List Byte
  deriving DecidableEq, Repr

/-- A verdict the lead has formed and not yet committed, waiting for contributions (R509): frame, zone word, covered zones,
flags, and when the lead's own stages finished. -/
structure PendVerdict where
  frame : Nat
  zones : Nat
  cover : Nat
  flags : Nat
  since : Nat
  deriving DecidableEq, Repr

/-- A contribution that has arrived (R508): member, frame, zone word, covered zones, flags. -/
structure Contribution where
  member : Nat
  frame : Nat
  zones : Nat
  cover : Nat
  flags : Nat
  deriving DecidableEq, Repr

/-- A request outstanding through a port (R501): its TAG, opcode and destination, and the instant it times out. -/
structure SciReq where
  tag : Nat
  op : Nat
  dst : Nat
  due : Nat
  deriving DecidableEq, Repr

/-- One SCI port besides its registers (15_hitch.md): next SEQ expected and next SEQ to send, discarding until the expected
SEQ (R495), an acknowledgement or a NAK due, the retry buffer oldest first as (SEQ, TYPE, payload), replays of its
oldest flit, link-control records and messages waiting to be sent (each message with 0 for one made here and 1 for one
forwarded), transmit credit and credit owed per VC in units of 8 bytes, the partial message received, arbitration state
(R499, R500), the flits sent since the link came up, oldest first, requests outstanding, instants of the last entries to
RETRAIN, what training reported (lanes, peer rates and strap), and a CAP received before this package had a lead to relay it
to. -/
structure SciPort where
  rxNext : Nat
  txNext : Nat
  discarding : Bool
  ackDue : Bool
  nakDue : Bool
  unacked : List (Nat × Nat × List Byte)
  replays : Nat
  ctl : List (List Byte)
  queue : List (Nat × SciMsg)
  credits : Vector Nat 6
  owed : Vector Nat 6
  rxBuf : List Byte
  alt : Bool
  wrr : Nat
  rr : Vector Nat 6
  sent : List (List Byte)
  reqs : List SciReq
  retrains : List Nat
  lanes : Nat
  peer32 : Bool
  peerLead : Bool
  cap : Option LinkRec
  /-- The instant the link state was entered (Table 15-1), and the instant since when the oldest flit has gone without
  acknowledgement or replay (R495). -/
  entered : Nat
  since : Nat
  deriving DecidableEq, Repr

/-- A port with no link. -/
def SciPort.idle : SciPort :=
  { rxNext := 0, txNext := 0, discarding := false, ackDue := false, nakDue := false, unacked := [], replays := 0, ctl := []
    queue := [], credits := Vector.replicate 6 0, owed := Vector.replicate 6 0, rxBuf := [], alt := false, wrr := 0
    rr := Vector.replicate 6 0, sent := [], reqs := [], retrains := [], lanes := 0, peer32 := false, peerLead := false
    cap := none, entered := 0, since := 0 }

/-- A device the lead has negotiated with, or a wheel's lead: number, serial number, agreed classes, port, hops, still
attached. -/
structure Member where
  num : Nat
  serial : Nat
  classes : Nat
  port : Fin 2
  hops : Nat
  attached : Bool
  deriving DecidableEq, Repr

/-- A hitch broadcast under way for a requester (R516, R517): its TAG, write or read, offset and width, members still to answer,
answers received (member, value), the status bits of its own package's part (Table 19-4), and its deadline. -/
structure Bcast where
  req : ReqId
  tag : Nat
  write : Bool
  off : Nat
  w : Nat
  waiting : List Nat
  answers : List (Nat × Nat)
  stat : Nat
  until_ : Nat
  deriving DecidableEq, Repr

/-- What the package holds of its hitch besides the SCI registers: contributions, the verdict that waits for them, messages
made here and not yet handed to a port, the members known, the up port of a wheel, a frame number to adopt at the next
boundary, broadcasts under way, and the tables of whose last 128-element push the first half was dropped (R512). -/
structure HitchSt where
  contribs : List Contribution
  verdict : Option PendVerdict
  outbox : List SciMsg
  ports : Vector SciPort 2
  members : List Member
  up : Option (Fin 2)
  /-- The frame number to adopt at the next boundary, and whether the lead's boundary differs from this package's (R507). -/
  adopt : Option Nat
  shifted : Bool
  bcasts : List Bcast
  halfLost : List (Nat × Nat)
  /-- Messages in each table's gradient inbox for its current step, and the interrupts delivered to host cores (operand, data),
  oldest first. -/
  inboxCnt : List (Nat × Nat)
  msis : List (Nat × Nat)
  deriving DecidableEq, Repr

/-! ### The die stack and test access (14_stack.md) -/

/-- The stack besides its registers: what bring-up has made of each die (0 pending, 1 up, 2 absent) and the instant of the
Walk-to-Trot request, ports that leave service at the next boundary, parity errors of the 1 s window as (die, port,
tile) and the number of windows ended, dies under field test, per die the instant its traffic is held until (R477), the JTAG
instruction of the base die and of each compute die (R479), the stack register, the words last captured along the chain, the
boundary-scan register over the balls and the wrapper registers of the base die and the compute dies; and the service port: the access under way (write, 64-bit, offset, data), and status, width, offset and data for Capture-DR. -/
structure StackSt where
  bring : Vector Nat 2
  startT : Nat
  leaving : List (Nat × Nat)
  winErrs : List (Nat × Nat × Nat)
  windows : Nat
  testing : Nat
  holdT : Vector Nat 2
  jtagIr : Nat
  dieIr : Vector Nat 2
  sel : BitVec 2
  bscan : Nat
  wrap : Vector Nat 3
  dr : List W32
  svcBusy : Option (Bool × Bool × Nat × W64)
  svcStat : Nat
  svcWide : Bool
  svcOff : Nat
  svcData : W64
  deriving DecidableEq, Repr

/-! ### Always-on domain -/

/-- A gait transition in progress, Table 17-1. -/
inductive Trans where
  | none
  | stableToWalk
  | walkToTrot
  | canterToTrot
  | trotToWalk
  | walkToStable
  deriving DecidableEq, Repr

/-- A held GAIT_REQ request (R555): target (1 Walk, 2 Trot, 3 Stable), GEN carried, time of the write, whether GEN has
changed by other than the request, its writer. -/
structure GaitReq where
  target : Nat
  gen : Nat
  at_ : Nat
  changed : Bool
  req : ReqId
  deriving DecidableEq, Repr

/-- Host core 0 (R560, R576, R577): in reset, in the boot ROM, waiting for a recovery image, in WFI after failed boot, or
started at an address. -/
inductive Core0 where
  | reset
  | rom
  | recovery
  | wfi
  | at_ (pc : Nat)
  deriving DecidableEq, Repr

/-- The gait logic, supplies, resets, watchdog, thermal and oscillator state (17_gaits.md). -/
structure GaitSt where
  /-- Straps sampled at the rise of PORST_N (Table 17-6). -/
  lead : Bool
  testmodeN : Bool
  bootSel : BitVec 2
  trans : Trans
  /-- The transition carries out the held request. -/
  ownMove : Bool
  drained : Bool
  wbDone : Bool
  held : Option GaitReq
  /-- Highest target of the wake requests not yet carried out: 0 Walk, 1 Trot. -/
  wake : Option Nat
  porstN : Bool
  pwrEn : Bool
  refEn : Bool
  pwrGood : Bool
  pwrRisen : Bool
  refRunning : Bool
  thermtrip : Bool
  /-- Per die (base, C0, C1): the last reading was at or above 135 °C; the next reading at GAIT_TWARN crosses upward. -/
  hot : Vector Bool 3
  armed : Vector Bool 3
  wdogOn : Bool
  wdogLeft : Nat
  wdogAt : Nat
  /-- Last correction of the 16 MHz oscillator, in parts per 2^20; none before the first. -/
  corr : Option Int
  wakeArmed : Bool
  core0 : Core0
  /-- A package reset is in progress: its RESET_WAKE has not come. -/
  inReset : Bool
  fuseOpen : Bool
  bootTried : Nat
  svn : BitVec 6
  /-- Identity-key command running: 1 SIGN, 2 ECDH; its sampled input. -/
  idk : Option (Nat × List W32)
  /-- Instant of the last edge on PPS_IN; the correction toward it that the time base has still to slew, in ns, and the
  nanoseconds until the next one of it (R77); instant of the last rise of PPS_OUT. -/
  ppsIn : Option Nat
  slew : Int
  slewIn : Nat
  ppsOut : Option Nat
  /-- The main group has been off since the base-die units were last reset (R664). -/
  mainOff : Bool
  /-- A power-on or package reset has happened and the boot ROM has not zeroed burrow memory since (R663). -/
  zeroDue : Bool
  deriving DecidableEq, Repr

/-- One Halter target port (16_halter.md) besides HLT_PORT_STAT: CS_N low, the 32-byte reply of the transaction, the nonce and
the key at the snapshot its MAC is still due over, whether its poll has been received whole, the nonce held for the next reply, the flags the next
reply carries, and the bytes MISO put out in the last transaction. -/
structure HaltPort where
  csLow : Bool
  reply : List Byte
  macDue : Option (Nat × Nat)
  pollSeen : Bool
  nonce : Option Nat
  gap : Bool
  bad : Bool
  sent : List Byte
  deriving DecidableEq, Repr

/-- Halter besides its registers: ports A and B, a committed verdict exists, the commit time is the register's, the bank
holds an uncorrectable word, the paired key. -/
structure HalterSt where
  ports : Vector HaltPort 2
  hasVerdict : Bool
  bankBad : Bool
  key : Option Nat
  deriving DecidableEq, Repr

/-- The event log besides its window: slots in use, uncorrectable slots, and each requester's latched entry (slot, eight
words). -/
structure LogSt where
  used : Nat
  bad : List Nat
  latch : List (Nat × Nat × List W32)
  deriving DecidableEq, Repr

end Sys2Proof.Machine
end

