-- ==== Sys2Proof/Machine/StateTile.lean ====
section
/-! DEFINITION. The parts of the machine's state that belong to a tile: control core, unit queues, stores, buffers, translation,
and what the arrays, Quill, Hoard and tree unit hold besides their registers. -/

namespace Sys2Proof.Machine

/-- A work item as the scheduler handed it to a tile (R218, R228): the frame it serves (none for an untagged item), its
index in its program's item table and program buffer, entry PC, the words G1 and G2 take, whether it is closing. -/
structure Work where
  frame : Option Nat
  idx : Nat
  buf : Fin 2
  pc : Nat
  g1 : W64
  g2 : W64
  closing : Bool
  /-- Slot of the tile's work queue of eight it holds (R218, TILE_ITEM). -/
  slot : Nat
  deriving DecidableEq, Repr

/-- The unit operations of Table 12-3. -/
inductive UOp where
  | mmaP | mmaD | mmaS | mmaW | mmaPZ | mmaDZ | mmaSZ | wld | wldSp | wldSpt | swap | vadd | vsub | vmul | vmax
  | vmin | vand | vor | vxor | vshl | vshr | vcvt | vld | vst | vbcast | vlane | vrsum | lblSt | qexp | qcmp | qmrgU
  | qmrgI | qsort | qred | gath | gathR | gathQ8 | gathQ4 | gathPf | hlook | scat | hpref | hupdQ8 | hupdQ4 | treLdl
  | treLdn | treLadder | treWalk
  deriving DecidableEq, Repr

/-- A weight bank of an array (R235): complete, its cells by byte (row 32 bytes long; for a sparse bank by 64 × block row +
column, values as numbers), and what it was loaded as (R403): 0 INT8, 1 INT4 weights, 2 BF16, and 4 + 8 × K_blk for a
sparse INT8 block. -/
structure Bank where
  full : Bool
  data : List (Nat × Int)
  fmt : Nat
  deriving DecidableEq, Repr

/-- An empty weight bank. -/
def Bank.empty : Bank := ⟨false, [], 0⟩

/-- A unit instruction in the reorder window (R191, R369): its place in issue order (its 7-bit sequence number is this modulo
128), operation and fields, queues it stands in, epoch tag, PC, captured G values, the item that issued it, whether it
has taken its wait, whether it has started, and the members of a SWAP or weight load that have armed or filled. -/
structure UEntry where
  seq : Nat
  op : UOp
  args : UArgs
  queues : List Nat
  tag : Option Nat
  pc : Nat
  ga : W64
  gb : W64
  gc : W64
  work : Option Work
  consumed : Bool
  started : Bool
  armed : List Nat
  /-- Banks a pass captured when it started, by array (R252); progress inside the instruction (rows, lanes, keys or entries
  done); accumulator words it has written as (array, first word, count); bytes that have come for it, by offset; and
  what it returns to RD so far, and whether it has written a row of its table. -/
  banks : List (Nat × Bank)
  done : Nat
  touched : List (Nat × Nat × Nat)
  buf : List Host.Cell
  ret : Nat
  wrote : Bool
  /-- Whether its first activation takes armed swaps (R252); the rows in its drain buffer of 16, with their output rows (R263);
  VERSION of its table when it issued (R318); the rows an HUPD has read and not yet updated, by key and bytes (R329). -/
  takes : Bool
  drain : List (Nat × List Nat)
  ver : Nat
  rows : List (Nat × List Byte)
  deriving DecidableEq, Repr

/-- An exception being contained or handled (R211, R212, R381): cause, unit (Q number, or none for the control core), its
place in issue order, faulting address, PC, the number of younger instructions that had retired, the unit instruction
itself, the item that issued it, and whether that item has been handed back since (R383, R386). -/
structure ExcRec where
  cause : Nat
  unit : Option Nat
  seq : Nat
  addr : Nat
  pc : Nat
  younger : Nat
  entry : Option UEntry
  work : Option Work
  back : Bool
  deriving DecidableEq, Repr

/-- A fence whose condition has not held yet (R396): 0 SB, 1 SC, 2 U, 3 ALL; the unit instructions it waits for, and the
store-buffer and scatter-stage generations it closes. -/
structure FenceRec where
  kind : Nat
  seqs : List Nat
  sbGen : Nat
  scatGen : Nat
  deriving DecidableEq, Repr

/-- A store-buffer entry (R199): 64-byte line address (physical), bytes by offset in the line, tag, the generation a
FENCE.SB closes, and, once an SCI port has accepted it, the TAGs of the writes whose acknowledgements are awaited (R515). -/
structure SbEntry where
  line : Nat
  bytes : List Host.Cell
  tag : Option Nat
  gen : Nat
  accepted : Bool
  tags : List Nat
  deriving DecidableEq, Repr

/-- A row entry of the Hoard scatter stage (R315): table, row, HOME of its shard when it was staged, physical address and bytes of
each piece it moves in (R305), tag, accepted, the instruction that staged it, its FENCE.SC generation, and the TAGs of
writes to another package whose acknowledgements are awaited. -/
structure ScatEntry where
  table : Nat
  row : Nat
  home : Nat
  parts : List (Nat × List Byte)
  tag : Option Nat
  accepted : Bool
  seq : Nat
  gen : Nat
  tags : List Nat
  deriving DecidableEq, Repr

/-- A load from device memory on its way (R200, R371, R407): destination G register, or the vector instruction and the offset
of the line in its 256 bytes; physical address, bytes, those the store buffer forwarded at issue (by offset), tag,
where the address lies in another package the TAG of the request sent there, the item that issued it, the instant its flit was
lost on the bond (R474), and whether it crosses the bond by a port that has left service (R477). -/
structure LoadReq where
  dst : Nat
  vec : Option (Nat × Nat)
  addr : Nat
  len : Nat
  fwd : List Host.Cell
  tag : Option Nat
  remote : Option Nat
  work : Option Work
  lost : Option Nat
  hold : Bool
  deriving DecidableEq, Repr

/-- A request of the Hoard unit (R306, R311, R314, R329): the instruction, its element, table, row, offset of the piece in the row
and its bytes (R305), where they go in the tile store, the array whose ring takes them, form (0 as stored, 1 Q8 to BF16,
2 Q4 to BF16, 3 row offsets of a bitmap group, 4 a row of zeros, 5 a copy from `off` of the tile store, 6 bytes of a bitmap
group, 7 bytes of a prefetched row at address `off`, 8 the read of an HUPD's row, 9 its write), tag, whether it is dropped on arrival, the key of a lookup, the TAG of the request sent to another package; HOME of its shard when it was
issued, none while it waits for an outstanding slot (R306, R336); the bytes it has got so far or writes; and `lost` and `hold` as
a load has them. -/
structure GatherReq where
  seq : Nat
  elem : Nat
  table : Nat
  row : Nat
  off : Nat
  len : Nat
  dst : Nat
  ring : Option Nat
  form : Nat
  tag : Option Nat
  drop : Bool
  look : Option W64
  remote : Option Nat
  home : Option Nat
  got : List Byte
  lost : Option Nat
  hold : Bool
  deriving DecidableEq, Repr

/-- A TLB entry (R436): ASID, virtual page number base, page bytes, physical base, writable. -/
structure TlbEntry where
  asid : Nat
  vbase : Nat
  size : Nat
  pbase : Nat
  write : Bool
  deriving DecidableEq, Repr

/-- A page walk of a tile (R436, R437): virtual address, store or load, the unit instruction that waits (none: the control
core, or the prefetch engine where `pf` is set, with the list's tag), and whether one of the shared walker's sixteen slots
serves it. -/
structure Walk where
  vaddr : Nat
  store : Bool
  seq : Option Nat
  pf : Bool
  tag : Option Nat
  slot : Bool
  deriving DecidableEq, Repr

/-- A row of a gather ring (R311, R312): the GATH.R and the index it comes from, its slot's address and size, ready bit,
output row of its pair word, and whether it holds a bitmap group. -/
structure RingRow where
  seq : Nat
  idx : Nat
  addr : Nat
  size : Nat
  ready : Bool
  out : Nat
  bitmap : Bool
  tag : Option Nat
  deriving DecidableEq, Repr

/-- An array besides its registers: active and shadow banks, armed swap, and the rows of its gather ring not yet consumed, in
order. -/
structure ArrSt where
  active : Bank
  shadow : Bank
  armed : Bool
  ring : List RingRow
  deriving DecidableEq, Repr

/-- An array with nothing loaded. -/
def ArrSt.empty : ArrSt := ⟨Bank.empty, Bank.empty, false, []⟩

/-- The merge tree while a QRED runs (R281 to R284): rows in each leaf, last key a leaf accepted, passes still to come on each
leaf, the key and lanes being summed at the root; and the passes that drain to Quill, by leaf and tag, that have retired
before a QRED names them (R411). -/
structure QllSt where
  leaves : Vector (List (Nat × List Nat)) 16
  prev : Vector (Option Nat) 16
  left : Vector Nat 16
  cur : Option (Nat × List Nat)
  early : List (Nat × Option Nat)
  deriving DecidableEq, Repr

/-- An empty merge tree. -/
def QllSt.empty : QllSt := ⟨Vector.replicate 16 [], Vector.replicate 16 none, Vector.replicate 16 0, none, []⟩

/-- A prefetch area (R318, R319): table, base address of the area, row list (empty once a rein-back has stopped the list), rows
landed, VERSION at the HPREF, tag, slot count, and the rows that hold an outstanding slot, each with the HOME it was
issued to. -/
structure Prefetch where
  table : Nat
  area : Nat
  rows : List Nat
  landed : List Nat
  version : Nat
  tag : Option Nat
  slots : Nat
  out : List (Nat × Nat)
  deriving DecidableEq, Repr

/-- One tile. -/
structure Tile where
  /-- Clocked (in Canter), the instant up to which TILE_CNT_CYCLES counts its cycles, waking, instant it last became idle, instant
  of the last retirement or first item. -/
  clocked : Bool
  cycFrom : Nat
  waking : Bool
  idleSince : Nat
  lastRetire : Nat
  /-- Items queued, the item the control core runs, items ended whose unit instructions have not all retired, frames of
  which the tile has had an item. -/
  work : List Work
  running : Option Work
  ended : List Work
  seen : List Nat
  /-- Held a work item of a live epoch in the frame in progress (R599). -/
  worked : Bool
  mgmt : Option MgmtReq
  selfTest : Bool
  /-- G0 to G31, P0 to P7 (bit per register), V (word 64r + lane), ACC (word 16384a + i), PC. -/
  g : Vector W64 32
  p : Nat
  v : List (Nat × W32)
  vFill : Option Nat
  acc : List (Nat × W32)
  accFill : Option Nat
  pc : Nat
  /-- The context epoch's tag (R203). -/
  ctx : Option Nat
  /-- Reorder window in issue order, next place, places of instructions retired while an older one was in the window. -/
  window : List UEntry
  nextSeq : Nat
  retired : List Nat
  fences : List FenceRec
  /-- The exception contained or handled, the issue point RESUME returns to, and the replay record. -/
  exc : Option ExcRec
  resumePc : Nat
  replay : List UEntry
  /-- Tile store: bytes, fill of unlisted bytes, void lines (R209). -/
  store : List Host.Cell
  storeFill : Option Nat
  voids : List Nat
  /-- Store buffer oldest first, scatter stage oldest first, their generations. -/
  sb : List SbEntry
  sbGen : Nat
  scat : List ScatEntry
  scatGen : Nat
  loads : List LoadReq
  gathers : List GatherReq
  prefetch : List Prefetch
  /-- Translation root in force (R433), TLB oldest first, walks. -/
  satp : Nat
  tlb : List TlbEntry
  walks : List Walk
  /-- Tags last recorded for each parity by EPOCH.BEGIN (R397). -/
  claimed : Vector (Option Nat) 2
  arr : Vector ArrSt 4
  qll : QllSt
  nodes : List Host.Cell
  ladder : List Host.Cell
  /-- The tree unit's feature buffer: the rows of 16 slots (R341). -/
  feat : List (List Byte)
  deriving DecidableEq, Repr

end Sys2Proof.Machine
end

