-- ==== Sys2Proof/Machine/State.lean ====
section
/-! DEFINITION. The machine's state, the reasons a step can stop, and the state right after reset. -/

namespace Sys2Proof.Machine

/-- Why a step stops with a fault. The SQ-3296 stops operating on no error of data or command (R38): nothing raises this
constructor, and the type is here because the interface asks for one (safe). -/
inductive Fault where
  /-- Raised by no meaning. Safe: it allows nothing. -/
  | none_
  deriving DecidableEq, Repr

/-- Why a step is refused. -/
inductive Refusal where
  /-- A command whose meaning is not written, named by its mnemonic. Raised by Dispatch only. Safe: the model stops
  where the hardware goes on. -/
  | notModelled (mnemonic : String)
  deriving DecidableEq, Repr

/-- The whole machine. -/
structure State where
  /-- The time base, in ns (R561), and the model's own counter naming the next free value (log 1). -/
  time : Nat
  freeCtr : Nat
  /-- The commands waiting, first in first out. -/
  pending : List Instr
  /-- Every register of control space by register offset (R615); unlisted words hold their reset value. `written` lists the
  words whose reset is X that have been written since (R660). `inForce` is the register file as it stood at the last
  frame boundary, for settings that take effect at a boundary (R145, R633), and `forceWritten` is `written` as it stood then. -/
  regs : List (Nat × W32)
  written : List Nat
  inForce : List (Nat × W32)
  forceWritten : List Nat
  /-- What the last read of each requester returned: requester and data. -/
  rdata : List (Nat × W64)
  install : Install
  mem : Mem
  ddr : DdrSt
  gait : GaitSt
  frm : FrameSt
  ports : Vector PortSt 8
  i3c : Vector I3cSt 2
  ingest : IngestSt
  drey : DreySt
  sched : SchedSt
  copy : Vector CopySt 4
  shards : List (Nat × ShardSt)
  pcie : PcieSt
  hitch : HitchSt
  stack : StackSt
  halter : HalterSt
  log : LogSt
  /-- The shared walker's cached non-leaf PTEs: ASID, address, PTE, oldest first (R437). -/
  walker : List (Nat × Nat × Nat)
  tiles : Vector Tile 32
  deriving DecidableEq, Repr

/-! ### Reset -/

/-- Free values are named from 0; the fills of the stores that hold undefined contents at power-on come first (log 1, 10). -/
def freeBase : Nat := 2 ^ 48

/-- A tile with its die powered down (TILE_STATE 0): nothing queued, contents of its stores undefined (log 10), its registers
without a stated reset value 0 (log 5). -/
def Tile.reset (t : Nat) : Tile :=
  { clocked := false, cycFrom := 0, waking := false, idleSince := 0, lastRetire := 0, work := [], running := none, ended := [], seen := []
    worked := false, mgmt := none, selfTest := false, g := Vector.replicate 32 0, p := 0, v := [], vFill := none, acc := []
    accFill := none, pc := 0, ctx := none, window := [], nextSeq := 0, retired := [], fences := [], exc := none, resumePc := 0
    replay := [], store := [], storeFill := some (2 ^ 40 + 2 ^ 24 * t), voids := [], sb := [], sbGen := 0, scat := [], scatGen := 0
    loads := [], gathers := [], prefetch := [], satp := 0, tlb := [], walks := [], claimed := Vector.replicate 2 none
    arr := Vector.replicate 4 ArrSt.empty, qll := QllSt.empty, nodes := [], ladder := [], feat := [] }

/-- A head port with no link. -/
def PortSt.reset : PortSt :=
  { seqRef := none, phyUp := false, litNow := false, litSec := 0, lifePend := none, req := none, reqGen := 0, since := 0
    phase := 0, syncSeq := 0, pdelaySeq := 0, sent := [] }

/-- A Halter port with CS_N high. -/
def HaltPort.reset : HaltPort :=
  { csLow := false, reply := [], macDue := none, pollSeen := false, nonce := none, gap := false, bad := false, sent := [] }

/-- The always-on logic at the release of power-on reset (R561, R662): Stable, straps as log 12 states, the wake to Walk still
to come. -/
def GaitSt.reset : GaitSt :=
  { lead := true, testmodeN := true, bootSel := 0, trans := .none, ownMove := false, drained := false, wbDone := false
    held := none, wake := none, porstN := true, pwrEn := false, refEn := false, pwrGood := false, pwrRisen := false
    refRunning := false, thermtrip := false, hot := Vector.replicate 3 false, armed := Vector.replicate 3 true
    wdogOn := false, wdogLeft := 0, wdogAt := 0, corr := none, wakeArmed := false, core0 := .reset, inReset := true
    fuseOpen := true, bootTried := 0, svn := 0, idk := none, ppsIn := none, slew := 0, slewIn := 0, ppsOut := none, mainOff := true, zeroDue := true }

/-- The frame timer stopped (R563). -/
def FrameSt.reset : FrameSt :=
  { atOrigin := false, nextB := 0, lastB := 0, prevB := 0, period := 50000000, bounds := [], live := [], nextOpen := none
    stopped := false, lastClosed := none, cposeDl := 0, cposeDone := false, closedGood := 0, perWrite := 0, perPrev := 50000 }

/-- A package in no hitch. -/
def HitchSt.reset : HitchSt :=
  { contribs := [], verdict := none, outbox := [], ports := Vector.replicate 2 SciPort.idle, members := [], up := none, adopt := none, shifted := false
    bcasts := [], halfLost := [], inboxCnt := [], msis := [] }

/-- The stack with both dies powered down. -/
def StackSt.reset : StackSt :=
  { bring := Vector.replicate 2 0, startT := 0, leaving := [], winErrs := [], windows := 0, testing := 0, holdT := Vector.replicate 2 0
    jtagIr := 1, dieIr := Vector.replicate 2 1, sel := 0, dr := [], bscan := 0, wrap := Vector.replicate 3 0
    svcBusy := none, svcStat := 0, svcWide := false, svcOff := 0, svcData := 0 }

/-- The machine right after the release of power-on reset (R561, R570): an SQ-3296-16E strapped as lead (log 12), the time base
at 0, the package in Stable, every register at its reset value, nothing placed in any memory. -/
def State.reset : State :=
  { time := 0, freeCtr := freeBase, pending := []
    regs := [(Reg.sciHitchStat, 4)], written := [], inForce := [(Reg.sciHitchStat, 4)], forceWritten := [], rdata := []
    install := { variant14 := false, baseRev := 0, cmpRev := 0, serial := 0, lpddrGiB := 16, inlineEcc := false }
    mem := { cells := [], burFill := some 0, ddrFill := some 0, bad := [], soft := [], l2Dirty := [] }
    ddr := { rate := Vector.replicate 2 0, retrains := Vector.replicate 2 0, scrub := 0, copyTurn := 0 }
    gait := GaitSt.reset, frm := FrameSt.reset, ports := Vector.replicate 8 PortSt.reset
    i3c := Vector.replicate 2 { hotJoin := 0, ibi := 0, addr := Vector.replicate 4 none, xfers := [] }
    ingest := { pkts := [], arrivals := 0, nextSlot := 0, ring := [], ringHead := none, waiting := [], lost := [] }
    drey := { staged := [], split := Vector.ofFn (fun i : Fin 4 => (regReset (Reg.dreySplit i.val)).toNat), wantSplit := [], scanning := none, capStall := none }
    sched := { progs := Vector.replicate 2 none, checking := Vector.replicate 2 false, untag := [], untagBusy := false, kicks := []
               wakes := [] }
    copy := Vector.replicate 4 { fill := [], expFrame := none, writes := 0, moved := 0, err := 0, begun := false, reads := [], buf := [], poison := [], awaits := [] }
    shards := [], pcie := { endpoint := true, ready := false, sent := [], lastCpl := (0, [], []) }
    hitch := HitchSt.reset, stack := StackSt.reset
    halter := { ports := Vector.replicate 2 HaltPort.reset, hasVerdict := false, bankBad := false, key := none }
    log := { used := 0, bad := [], latch := [] }
    walker := [], tiles := Vector.ofFn (fun i : Fin 32 => Tile.reset i.val) }

end Sys2Proof.Machine
end

