-- ==== Sys2Proof/Machine/Ops.lean ====
section
/-! DEFINITION. The named operations every unit uses: free values, the register file, counters, the event log, access errors,
device memory. -/

namespace Sys2Proof.Machine

/-! ### Free values and time -/

/-- The next `k` free values are taken (log 1): their base number, and the state after. -/
def State.fresh (s : State) (k : Nat) : Nat × State := (s.freeCtr, { s with freeCtr := s.freeCtr + k })

/-- The value of the next free value of `w` bits, and the state after. -/
def State.freeBits (s : State) (w : Nat) : Nat × State :=
  (Config.freeNat s.freeCtr % 2 ^ w, { s with freeCtr := s.freeCtr + 1 })

/-- The time base moved on to an event's own instant; it never runs back (log 3). -/
def State.at_ (s : State) (t : Nat) : State := { s with time := max s.time t }

/-! ### Registers -/

/-- A word of a register file. -/
def regWord (m : List (Nat × W32)) (off : Nat) : W32 := spGet regReset m off

/-- A word of a register file as a number. -/
def regN (m : List (Nat × W32)) (off : Nat) : Nat := (regWord m off).toNat

/-- A register pair of a register file as a number. -/
def regN64 (m : List (Nat × W32)) (off : Nat) : Nat := regN m off + 2 ^ 32 * regN m (off + 4)

/-- The word at a register offset. -/
def State.rd (s : State) (off : Nat) : Nat := regN s.regs off

/-- A 64-bit register. -/
def State.rd64 (s : State) (off : Nat) : Nat := regN64 s.regs off

/-- Bits [hi:lo] of a register word. -/
def State.fld (s : State) (off hi lo : Nat) : Nat := bitsN (s.rd off) hi lo

/-- Bit `i` of a register word. -/
def State.bit (s : State) (off i : Nat) : Bool := bitN (s.rd off) i

/-- A register word set. -/
def State.put (s : State) (off v : Nat) : State := { s with regs := spSet regReset s.regs off (BitVec.ofNat 32 v) }

/-- A 64-bit register set. -/
def State.put64 (s : State) (off v : Nat) : State := (s.put off v).put (off + 4) (v / 2 ^ 32)

/-- Bits [hi:lo] of a register word set. -/
def State.putF (s : State) (off hi lo v : Nat) : State := s.put off (putBits (s.rd off) hi lo v)

/-- Bit `i` of a register word set. -/
def State.putB (s : State) (off i : Nat) (b : Bool) : State := s.putF off i i (b2n b)

/-- Set bits of a register word (bits already set stay set). -/
def State.orReg (s : State) (off v : Nat) : State := s.put off (s.rd off ||| v)

/-- A register word marked as written since its reset made it X (R660). -/
def State.markWritten (s : State) (off : Nat) : State :=
  if off ∈ s.written then s else { s with written := s.written ++ [off] }

/-- Whether some word of a register of `words` words whose table's reset is X has not been written (R660). -/
def State.isUnset (s : State) (off words : Nat) : Bool :=
  (List.range words).any (fun k => !(s.written.contains (off + 4 * k)))

/-- The same in the register file in force since the last boundary, for settings latched from it. -/
def State.forceUnset (s : State) (off words : Nat) : Bool :=
  (List.range words).any (fun k => !(s.forceWritten.contains (off + 4 * k)))

/-- The same in the register file an epoch latched when it opened. -/
def Epoch.isUnset (e : Epoch) (off words : Nat) : Bool :=
  (List.range words).any (fun k => !(e.wrote.contains (off + 4 * k)))

/-- A 32-bit counter moved on by `n`: it saturates, and its sticky overflow bit is set when it reaches 0xFFFF_FFFF or
loses an event there (R607). -/
def State.count (s : State) (c : Ctr) (n : Nat := 1) : State :=
  if n = 0 then s else
  let v := s.rd c.reg + n
  if v < 0xFFFFFFFF then s.put c.reg v
  else (s.put c.reg 0xFFFFFFFF).orReg (c.ovf + 4 * (c.bit / 32)) (2 ^ (c.bit % 32))

/-- A 64-bit counter moved on by `n`; it wraps. -/
def State.count64 (s : State) (off : Nat) (n : Nat := 1) : State := s.put64 off ((s.rd64 off + n) % 2 ^ 64)

/-- Whether the register file in force at the last boundary, not the live one, holds a field (R145, R633). -/
def State.force (s : State) (off : Nat) : Nat := regN s.inForce off

/-! ### The event log (R602, R603) -/

/-- Register offset of word `k` of log slot `i`. -/
def logWord (i k : Nat) : Nat := 0xA0000 + 32 * (i % 4096) + 4 * k

/-- Frame number now in progress. -/
def State.frameNum (s : State) : Nat := s.rd Reg.gaitFrmNum

/-- Source code of a requester (Table 18-2): 1 firmware, 2 external host, 3 SCI debug, 4 service port. -/
def ReqId.source (r : ReqId) : Nat := if r.val < 8 then 1 else r.val - 6

/-- The words of a new log entry written to its slot (Table 18-2), and EVT_LOG_SEQ moved on. -/
def State.logPut (s : State) (n frm w4 data : Nat) : State :=
  let i := n % 4096
  let s := (s.put64 (logWord i 0) s.time).put (logWord i 2) frm
  let s := (s.put (logWord i 3) n).put (logWord i 4) w4
  let s := (s.put (logWord i 5) 0).put64 (logWord i 6) data
  s.put Reg.evtLogSeq ((n + 1) % 2 ^ 32)

/-- An event entered in the log: merged into the newest entry when code, unit, source, data and frame match and that
entry holds no uncorrectable word (R603), a new slot otherwise (R602). -/
def State.logEvent (s : State) (code unit src data : Nat) : State :=
  let n := s.rd Reg.evtLogSeq
  let last := (n + 4095) % 4096
  let frm := s.frameNum
  let w4 := code % 2 ^ 16 + 2 ^ 16 * (unit % 256) + 2 ^ 24 * (src % 256)
  if s.log.used ≠ 0 ∧ s.rd (logWord last 2) = frm ∧ s.rd (logWord last 4) = w4
      ∧ s.rd (logWord last 6) = data % 2 ^ 32 ∧ s.rd (logWord last 7) = data / 2 ^ 32 % 2 ^ 32
      ∧ ¬ s.log.bad.contains last then
    let c := s.fld (logWord last 5) 15 0
    s.putF (logWord last 5) 15 0 (if c < 65535 then c + 1 else c)
  else
    let s := (if 4096 ≤ s.log.used then s.count Cnt.evtLogOvwr else s).logPut n frm w4 data
    { s with log := { s.log with used := min 4096 (s.log.used + 1), bad := s.log.bad.filter (· ≠ n % 4096) } }

/-- The package's unit code in the log (Table 18-2). -/
def pkgUnit : Nat := 0xFF

/-- Causes of an access error, Table 19-4. -/
inductive AccCause where
  | reserved | hostOnly | locked | unreachable | notStatic
  deriving DecidableEq, Repr

/-- The code GAIT_ACC_ERR[34:32] gives a cause. -/
def AccCause.code : AccCause → Nat
  | .reserved => 1 | .hostOnly => 2 | .locked => 3 | .unreachable => 4 | .notStatic => 5

/-- An access error recorded (R630). -/
def State.accErr (s : State) (r : ReqId) (off : Nat) (c : AccCause) : State :=
  (s.count Cnt.evtCntAccerr).put64 Reg.gaitAccErr (off % 2 ^ 28 + 2 ^ 28 * r.val + 2 ^ 32 * c.code + 2 ^ 35)

/-- The data a read returns to its requester. -/
def State.give (s : State) (r : ReqId) (v : Nat) : State :=
  { s with rdata := spSet (fun _ => 0) s.rdata r.val (BitVec.ofNat 64 v) }

/-! ### Gait, tiles, ports read from their registers -/

/-- Every clock of the package can run: power-on reset is released and no thermal trip stands (R573). -/
def State.alive (s : State) : Bool := s.gait.porstN && !s.gait.thermtrip

/-- The gait (GAIT_STAT[1:0]): 0 Stable, 1 Walk, 2 Trot, 3 Canter. -/
def State.gaitN (s : State) : Nat := s.fld Reg.gaitStat 1 0

/-- TILE_STATE.STATE of a tile (Table 06-5). -/
def State.tileState (s : State) (t : Nat) : Nat := s.fld (Reg.tileState t) 2 0

/-- A change of TILE_STATE.STATE increments GEN (R222) and is a change for a waiting management request (R598). -/
def State.setTileState (s : State) (t : TileId) (v : Nat) : State :=
  if s.tileState t = v then s else
  let g := s.fld (Reg.tileState t) 31 16
  let s := s.put (Reg.tileState t) (v + 2 ^ 16 * ((g + 1) % 2 ^ 16))
  let tl := s.tiles[t]
  { s with tiles := s.tiles.set t { tl with mgmt := tl.mgmt.map (fun m => { m with changed := true }) } }

/-- A tile's state record changed. -/
def State.modTile (s : State) (t : TileId) (f : Tile → Tile) : State :=
  { s with tiles := s.tiles.set t (f s.tiles[t]) }

/-- A port's state record changed. -/
def State.modPort (s : State) (p : PortId) (f : PortSt → PortSt) : State :=
  { s with ports := s.ports.set p (f s.ports[p]) }

/-- PORT_STATE.HEAD of a port: 0 absent, 1 unverified, 2 verified (Table 03-9). -/
def State.headOf (s : State) (p : Nat) : Nat := s.fld (Reg.portState p) 2 1

/-- A change of PORT_STATE bits [5:0] increments its GEN (Table 03-9); a change of HEAD or SER_MISM is a change for a
waiting PORT_CTRL request (R101). -/
def State.setPortBits (s : State) (p : PortId) (v : Nat) : State :=
  let old := s.rd (Reg.portState p)
  if bitsN old 5 0 = v % 64 then s else
  let g := (bitsN old 31 16 + 1) % 2 ^ 16
  let s := s.put (Reg.portState p) (putBits (putBits old 5 0 v) 31 16 g)
  if bitsN old 3 1 = bitsN v 3 1 then s else s.modPort p (fun q => { q with reqGen := q.reqGen + 1 })

/-- One bit field of PORT_STATE[5:0] changed. -/
def State.setPortF (s : State) (p : PortId) (hi lo v : Nat) : State :=
  s.setPortBits p (putBits (s.fld (Reg.portState p) 5 0) hi lo v)

/-- Frame records changed. -/
def State.modFrm (s : State) (f : FrameSt → FrameSt) : State := { s with frm := f s.frm }

/-- Gait records changed. -/
def State.modGait (s : State) (f : GaitSt → GaitSt) : State := { s with gait := f s.gait }

/-- The live epoch of a frame. -/
def State.epoch? (s : State) (f : Nat) : Option Epoch := s.frm.live.find? (fun e => e.frame == f)

/-- The live epoch of a frame changed. -/
def State.modEpoch (s : State) (f : Nat) (g : Epoch → Epoch) : State :=
  { s with frm := { s.frm with live := s.frm.live.map (fun e => if e.frame = f then g e else e) } }

/-- Every live epoch changed. -/
def State.mapLive (s : State) (f : Epoch → Epoch) : State := { s with frm := { s.frm with live := s.frm.live.map f } }

/-- The live epoch whose tag has parity `p`. -/
def State.epochOfParity (s : State) (p : Nat) : Option Epoch := s.frm.live.find? (fun e => e.frame % 2 == p)

/-- Every live epoch's frame commits with DEGRADED. -/
def State.degradeAll (s : State) : State := s.mapLive (fun e => { e with degraded := true })

/-- A frame commits with DEGRADED. -/
def State.degrade (s : State) (f : Nat) : State := s.modEpoch f (fun e => { e with degraded := true })

/-! ### Device memory (R417 to R429) -/

/-- What a local physical address selects, Table 13-1. -/
inductive Area where
  | west | east | control | pcie | ddr | reserved
  deriving DecidableEq, Repr

/-- Usable LPDDR5X in bytes (R427). -/
def Install.ddrBytes (i : Install) : Nat :=
  let b := i.lpddrGiB * 2 ^ 30
  if i.inlineEcc then b / 8 * 7 else b

/-- The area of a package-local address, Table 13-1; LPDDR5X beyond the usable capacity is as reserved (R419). -/
def State.area (s : State) (a : Nat) : Area :=
  if a < 0x4000000 then .west
  else if a < 0x8000000 then .east
  else if a < 0xE0000000 then .reserved
  else if a < 0xF0000000 then .control
  else if a < 0x100000000 then .reserved
  else if a < 0x1000000000 then .pcie
  else if a < 0x1000000000 + s.install.ddrBytes then .ddr
  else .reserved

/-- Burrow memory or usable LPDDR5X. -/
def State.isMem (s : State) (a : Nat) : Bool :=
  match s.area a with
  | .west | .east | .ddr => true
  | _ => false

/-- Every byte of a range lies in burrow memory or usable LPDDR5X; the two do not touch, so the ends decide. -/
def State.memRange (s : State) (a n : Nat) : Bool :=
  decide (n = 0) || (s.isMem a && s.isMem (a + n - 1) && decide (a + n ≤ 0x8000000 ∨ 0x1000000000 ≤ a))

/-- What an unlisted byte reads as: 0, or a free value once the store's contents were lost (log 10). -/
def Mem.dflt (m : Mem) (a : Nat) : Byte :=
  match (if a < 0x8000000 then m.burFill else m.ddrFill) with
  | none => 0
  | some b => BitVec.ofNat 8 (Config.freeNat (b + a))

/-- One byte of memory as every agent sees it: a dirty host-cache line first (R431). -/
def Mem.byte (m : Mem) (a : Nat) : Byte :=
  match m.l2Dirty.find? (fun c => c.1 == a) with
  | some c => c.2
  | none => spGet m.dflt m.cells a

/-- One byte written; the cache line that holds it is invalidated there (R431). -/
def Mem.setByte (m : Mem) (a : Nat) (v : Byte) : Mem :=
  { m with cells := spSet m.dflt m.cells a v, l2Dirty := m.l2Dirty.filter (fun c => c.1 ≠ a) }

/-- The canonical form of memory. -/
def Mem.wf (m : Mem) : Bool := spWf m.dflt m.cells

/-- `n` bytes from `a`. -/
def Mem.bytes (m : Mem) (a n : Nat) : List Byte := (List.range n).map (fun i => m.byte (a + i))

/-- Bytes written from `a` on. -/
def Mem.setBytes (m : Mem) (a : Nat) : List Byte → Mem
  | [] => m
  | b :: r => (m.setByte a b).setBytes (a + 1) r

/-- The ECC unit an address lies in: its 64-bit word in burrow memory, its 64-byte granule in LPDDR5X. -/
def eccUnit (a : Nat) : Nat := if a < 0x8000000 then a / 8 * 8 else a / 64 * 64

/-- Bytes of the ECC unit at `a`. -/
def eccSize (a : Nat) : Nat := if a < 0x8000000 then 8 else 64

/-- The uncorrectable units a range meets. -/
def Mem.badIn (m : Mem) (a n : Nat) : List (Nat × Bool) :=
  m.bad.filter (fun w => decide (w.1 < a + n ∧ a < w.1 + eccSize w.1))

/-- The units of a range that hold a correctable error. -/
def Mem.softIn (m : Mem) (a n : Nat) : List Nat := m.soft.filter (fun w => decide (w < a + n ∧ a < w + eccSize w))

/-- The LPDDR5X controller of an address (R428). -/
def ddrOf (a : Nat) : Nat :=
  let o := a - 0x1000000000
  (b2n (bitN o 8) + b2n (bitN o 13) + b2n (bitN o 18) + b2n (bitN o 23) + b2n (bitN o 28) + b2n (bitN o 33)) % 2

/-- A read that meets uncorrectable words counts each one that holds no poison code, by half or by controller (R424,
R429). -/
def State.countBad (s : State) (ws : List (Nat × Bool)) : State :=
  ws.foldl (fun s w =>
    if w.2 then s
    else if w.1 < 0x8000000 then s.count (Cnt.evtCntBurUe (w.1 / 0x4000000))
    else s.count (Cnt.evtCntDdrUe (ddrOf w.1))) s

/-- The correctable errors a read meets: counted by half or by controller, corrected, and written back (R424, R429, R584). -/
def State.countSoft (s : State) (a n : Nat) : State :=
  if (s.mem.softIn a n).isEmpty then s
  else
    let hit := s.mem.softIn a n
    let s := hit.foldl (fun (s : State) w =>
      if w < 0x8000000 then s.count (Cnt.evtCntBurCe (w / 0x4000000)) else s.count (Cnt.evtCntDdrCe (ddrOf w))) s
    { s with mem := { s.mem with soft := s.mem.soft.filter (fun w => !(hit.contains w)) } }

/-- What a read of `n` bytes at `a` meets, counted (R424, R429). -/
def State.readMeets (s : State) (a n : Nat) : State := (s.countSoft a n).countBad (s.mem.badIn a n)

/-- Bytes written to memory under ECC (R424, R429): a unit covered whole is cleared of its error; a unit written in part
that is uncorrectable keeps its bytes, and the read of the merge counts. The range lies in memory. -/
def State.memWrite (s : State) (a : Nat) (bs : List Byte) : State :=
  let n := bs.length
  let whole := fun (w : Nat) => decide (a ≤ w ∧ w + eccSize w ≤ a + n)
  let part := (s.mem.badIn a n).filter (fun w => !(whole w.1))
  let s := { s with mem := { s.mem with soft := s.mem.soft.filter (fun w => !(whole w)) } }
  let s := (s.countSoft a n).countBad part
  let old := s.mem
  let m := old.setBytes a bs
  let keep := fun (c : Nat) => part.any (fun w => decide (w.1 ≤ c ∧ c < w.1 + eccSize w.1))
  let m := if part.isEmpty then m
    else (List.range n).foldl (fun m i => if keep (a + i) then m.setByte (a + i) (old.byte (a + i)) else m) m
  { s with mem := { m with bad := m.bad.filter (fun w => !(whole w.1)) } }

/-- The poison code left where ECC covers bytes at the given addresses (R425, R429). -/
def State.putPoison (s : State) (as_ : List Nat) : State :=
  let us := ((as_.filter (fun a => decide (a < 0x8000000) || s.install.inlineEcc)).map eccUnit).dedup
  if us.isEmpty then s
  else { s with mem := { s.mem with bad := s.mem.bad.filter (fun w => !(us.contains w.1)) ++ us.map (fun u => (u, true)) } }

/-- The package's own number: 0 while it is not part of a hitch (R418). -/
def State.ownPkg (s : State) : Nat := s.fld Reg.sciHitchStat 1 0

/-! ### Other members of the hitch (R418, R514) -/

/-- Where a device physical address lies: in this package at a local address, in another member, or nowhere. -/
inductive Where where
  | here (a : Nat)
  | member (n a : Nat)
  | nowhere
  deriving DecidableEq, Repr

/-- The package an address names. -/
def State.whereIs (s : State) (pa : Nat) : Where :=
  let n := pa / 2 ^ 42
  let l := pa % 2 ^ 42
  if n = s.ownPkg then .here l
  else if n < 4 ∧ s.bit Reg.sciHitchStat (4 + n) then .member n l
  else .nowhere

/-- Whether `n` bytes at a local address of another member lie outside control space and the areas reserved on every package
(R417, R419, R420); what lies beyond that member's own capacity it answers itself. -/
def remoteMay (a n : Nat) : Bool :=
  let ok := fun (x : Nat) => decide (x < 0x8000000 ∨ (0x100000000 ≤ x ∧ x < 0x2000000000))
  ok a && ok (a + n - 1)

/-- A read of another member's memory: the message is handed to the hitch's outbox; its TAG. -/
def State.sciRead (s : State) (n a size : Nat) : Nat × State :=
  let tag := s.freeCtr % 65536
  let h : SciHdr := { dst := BitVec.ofNat 2 n, src := BitVec.ofNat 2 s.ownPkg, ackReq := false, size := BitVec.ofNat 4 size
                      tag := BitVec.ofNat 16 tag, status := 0, operand := BitVec.ofNat 64 (n * 2 ^ 42 + a) }
  (tag, { s with freeCtr := s.freeCtr + 1, hitch := { s.hitch with outbox := s.hitch.outbox ++ [⟨0, h, []⟩] } })

/-- A write of `n` bytes to another member handed to the hitch's outbox, acknowledgement requested (R514): its TAG. -/
def State.sciWrite (s : State) (n a size : Nat) (bs : List Byte) : Nat × State :=
  let tag := s.freeCtr % 65536
  let h : SciHdr := { dst := BitVec.ofNat 2 n, src := BitVec.ofNat 2 s.ownPkg, ackReq := true, size := BitVec.ofNat 4 size
                      tag := BitVec.ofNat 16 tag, status := 0, operand := BitVec.ofNat 64 (n * 2 ^ 42 + a) }
  (tag, { s with freeCtr := s.freeCtr + 1, hitch := { s.hitch with outbox := s.hitch.outbox ++ [⟨1, h, bs⟩] } })

/-- The smallest SIZE that covers a read. -/
def sciSize (n : Nat) : Nat := if n ≤ 8 then 3 else if n ≤ 16 then 4 else if n ≤ 32 then 5 else if n ≤ 64 then 6 else if n ≤ 128 then 7 else 8

/-- Writes of bytes from an 8-byte boundary on to another member, acknowledgement requested: 256-byte blocks where they are aligned, else
8-byte units; a message whose bytes are poisoned says so in STATUS (log 51). -/
def memberMsgs (own m a tag : Nat) (bs : List (Byte × Bool)) : Nat → List SciMsg
  | 0 => []
  | k + 1 =>
    if bs.isEmpty then []
    else
      let n := if 256 ≤ bs.length ∧ a % 256 = 0 then 256 else 8
      let h : SciHdr := { dst := BitVec.ofNat 2 m, src := BitVec.ofNat 2 own, ackReq := true, size := if n = 256 then 8 else 3
                          tag := BitVec.ofNat 16 tag, status := BitVec.ofNat 2 (b2n ((bs.take n).any (·.2)))
                          operand := BitVec.ofNat 64 (m * 2 ^ 42 + a) }
      ⟨1, h, (bs.take n).map (·.1)⟩ :: memberMsgs own m (a + n) (tag + 1) (bs.drop n) k

/-- Bytes, each poisoned or not, sent to another member: the bytes that fill the 8-byte units at both ends are free values (log 39).
The TAGs of the writes. -/
def State.sendMember (s : State) (m a : Nat) (bs : List (Byte × Bool)) : List Nat × State :=
  let (f, s) := s.fresh 16
  let pad := fun (o k : Nat) => (List.range k).map (fun i => ((BitVec.ofNat 8 (Config.freeNat (f + o + i)) : Byte), false))
  let all := pad 0 (a % 8) ++ bs ++ pad 8 ((8 - (a + bs.length) % 8) % 8)
  let tag := s.freeCtr % 65536
  let ms := memberMsgs s.ownPkg m (a / 8 * 8) tag all all.length
  (ms.map (fun x => x.hdr.tag.toNat), { s with freeCtr := s.freeCtr + ms.length, hitch := { s.hitch with outbox := s.hitch.outbox ++ ms } })

/-! ### Accesses of the base-die engines (R659) -/

/-- Whether a base-die engine can read `n` bytes at a device physical address: memory of this package without an uncorrectable word,
or what another member does not reserve. -/
def State.engOk (s : State) (a n : Nat) : Bool :=
  match s.whereIs a with
  | .here l => s.memRange l n && (s.mem.badIn l n).isEmpty
  | .member _ l => remoteMay l n
  | .nowhere => false

/-- The bytes it finds; those of another member are free values (log 51). -/
def State.engBytes (s : State) (a n : Nat) : List Byte :=
  match s.whereIs a with
  | .here l => s.mem.bytes l n
  | _ => (List.range n).map (fun i => Config.remoteByte (a + i))

/-- What a base-die engine's access comes to (R659). -/
inductive EngRead where
  | data (bs : List Byte)
  | bad
  deriving DecidableEq, Repr

/-- A base-die engine's read of `n` bytes at `a`, whose base register is unset or not: data, or the datum is dropped, with
the count R659 names and DEGRADED for the frame it serves. A read of another member travels over SCI (R418). -/
def State.engRead (s : State) (unset : Bool) (a n : Nat) (frame : Option Nat) : EngRead × State :=
  let deg := fun (s : State) => match frame with | some f => s.degrade f | none => s
  let lost := (EngRead.bad, deg (s.count Cnt.evtCntEngAddr))
  if unset then lost
  else match s.whereIs a with
  | .here l =>
    if !(s.memRange l n) then lost
    else if (s.mem.badIn l n).isEmpty then (.data (s.mem.bytes l n), s.countSoft l n)
    else (.bad, deg (s.readMeets l n))
  | .member k l => if remoteMay l n then (.data (s.engBytes a n), (s.sciRead k (l / 8 * 8) (sciSize n)).2) else lost
  | .nowhere => lost

/-- A base-die engine's write, likewise: whether it was performed. -/
def State.engWrite (s : State) (unset : Bool) (a : Nat) (bs : List Byte) (frame : Option Nat) : Bool × State :=
  let deg := fun (s : State) => match frame with | some f => s.degrade f | none => s
  let lost := (false, deg (s.count Cnt.evtCntEngAddr))
  if unset then lost
  else match s.whereIs a with
  | .here l => if s.memRange l bs.length then (true, s.memWrite l bs) else lost
  | .member k l => if remoteMay l bs.length then (true, (s.sendMember k l (bs.map (fun b => (b, false)))).2) else lost
  | .nowhere => lost

end Sys2Proof.Machine
end

