-- ==== Sys2Proof/Machine/GaitBase.lean ====
section
/-! DEFINITION. What every unit needs of the gait logic (17_gaits.md): GAIT_STAT, starting a transition, and wake requests. -/

namespace Sys2Proof.Machine

/-- The gait changed: GAIT_STAT[1:0] and GEN. A change not made for the held request is a change for it (R555). -/
def State.setGait (s : State) (g : Nat) (forReq : Bool) : State :=
  if s.gaitN = g then s else
  let v := s.rd Reg.gaitStat
  let s := s.put Reg.gaitStat (putBits (putBits v 1 0 g) 31 16 (bitsN v 31 16 + 1))
  if forReq then s else s.modGait (fun q => { q with held := q.held.map (fun h => { h with changed := true }) })

/-- A transition begun or ended, with GAIT_STAT[2]. -/
def State.setTrans (s : State) (t : Trans) (own : Bool) : State :=
  (s.putB Reg.gaitStat 2 (t != Trans.none)).modGait (fun q => { q with trans := t, ownMove := own, drained := false, wbDone := false })

/-- Stable to Walk begins: main power and the reference are requested (Table 17-2). -/
def State.beginStableToWalk (s : State) (own : Bool) : State :=
  (s.setTrans .stableToWalk own).modGait (fun q => { q with pwrEn := true, refEn := true, pwrRisen := q.pwrGood })

/-- A package strapped as a wheel stays in Walk until it has accepted an assignment (R490). -/
def State.mayTrot (s : State) : Bool := s.bit Reg.sciHitchStat 2 || s.bit Reg.sciHitchStat 3

/-- Walk to Trot begins: each compute die starts its bring-up (R470). -/
def State.beginWalkToTrot (s : State) (own : Bool) : State :=
  if !s.mayTrot then s
  else
    let s := s.setTrans .walkToTrot own
    { s with stack := { s.stack with bring := Vector.replicate 2 0, startT := s.time } }

/-- The wake of the highest pending target carried out where no transition is under way (R567). -/
def State.runWake (s : State) : State :=
  match s.gait.wake, s.gait.trans with
  | some w, .none =>
    if s.gaitN = 0 then s.beginStableToWalk false
    else if s.gaitN = 1 ∧ 1 ≤ w then (if s.mayTrot then (s.modGait (fun q => { q with wake := none })).beginWalkToTrot false else s)
    else s.modGait (fun q => { q with wake := none })
  | _, _ => s

/-- Whether a wake request must be kept: its target lies above the gait in force, or a downward transition is under way
that goes below the target (R36, R567). -/
def State.wakeNeeded (s : State) (w : Nat) : Bool :=
  decide (s.gaitN < w + 1) || (match s.gait.trans with
    | .trotToWalk => decide (1 ≤ w)
    | .walkToStable => true
    | _ => false)

/-- A wake request to a target, 0 Walk or 1 Trot. -/
def State.wakeTo (s : State) (w : Nat) : State :=
  if s.wakeNeeded w then
    (s.modGait (fun q => { q with wake := some (max w (q.wake.getD 0)) })).runWake
  else s

/-- An event of a wake source (R566): its bit, and a wake request to its target where it is enabled. -/
def State.wakeEvent (s : State) (k : Nat) : State :=
  let s := s.orReg Reg.gaitWakeSrc (2 ^ k)
  if s.bit Reg.gaitWakeEn k then s.wakeTo (b2n (s.bit Reg.gaitWakeTgt k)) else s

/-- The timer's event, where it is armed and the time base stands at or beyond GAIT_WAKE_TIME (R566). -/
def State.wakeTimer (s : State) : State :=
  if s.gait.wakeArmed ∧ s.rd64 Reg.gaitWakeTime ≤ s.time then (s.modGait (fun q => { q with wakeArmed := false })).wakeEvent 3 else s

end Sys2Proof.Machine
end

