-- ==== Sys2Proof/Machine/TileBase.lean ====
section
/-! DEFINITION. What the tile scheduler and the resets do to a tile: starting an item, tile reset (R216), the discard of an epoch (R209),
withdrawing and cancelling items. -/

namespace Sys2Proof.Machine

/-! ### Tags and live epochs (R202) -/

/-- How a tile classifies a tag, Table 06-2. -/
inductive TagClass where
  | older | newer | stale | invalid
  deriving DecidableEq, Repr

/-- The class of tag `g` at tile `t`, from TILE_EPOCH (Table 06-2). Where no epoch is live the older tag last held, which has
retired, and the guard band below it are stale and every other tag is invalid (DESIGN CHOICE, log 48). -/
def State.classify (s : State) (t : Nat) (g : Nat) : TagClass :=
  let e := s.rd (Reg.tileEpoch t)
  let d := (g + 256 - bitsN e 7 0) % 256
  if d = 0 then (if bitN e 16 then .older else .stale)
  else if d = 1 ∧ bitN e 17 then .newer
  else if d = 254 ∨ d = 255 then .stale
  else .invalid

/-- TILE_EPOCH of every tile brought up to the live epochs (R202: at every opening and retirement), with bit [18] as its context
epoch now stands. A tile whose die is not present or that is quarantined keeps the same register, which the scheduler writes
for all. -/
def State.updateTileEpochs (s : State) : State :=
  let v := match s.frm.live with
    | [] => fun old => old &&& 0xFFFF
    | [a] => fun old => a.frame % 256 + (old &&& 0xFF00) + 2 ^ 16
    | a :: b :: _ => fun _ => a.frame % 256 + 2 ^ 8 * (b.frame % 256) + 2 ^ 16 + 2 ^ 17
  let newer := fun (g : Option Nat) => match s.frm.live, g with
    | _ :: b :: _, some g => b.frame % 256 == g
    | _, _ => false
  (List.finRange 32).foldl (fun (s : State) (t : TileId) => s.put (Reg.tileEpoch t) (v (s.rd (Reg.tileEpoch t)) + 2 ^ 18 * b2n (newer s.tiles[t].ctx))) s

/-! ### Segments (R204) -/

/-- The state of segment `k` of tile `t`: 0 Static, 1 owned by parity 0, 2 by parity 1. -/
def State.segState (s : State) (t k : Nat) : Nat :=
  bitsN (s.rd (Reg.tileSegState t (2 * k / 32))) (2 * k % 32 + 1) (2 * k % 32)

/-- A segment's state set. -/
def State.setSeg (s : State) (t k v : Nat) : State :=
  s.putF (Reg.tileSegState t (2 * k / 32)) (2 * k % 32 + 1) (2 * k % 32) v

/-- Segments of tile `t` in state `v` returned to Static, contents kept (R204). -/
def State.freeSegs (s : State) (t v : Nat) : State :=
  (List.range 48).foldl (fun s k => if s.segState t k = v then s.setSeg t k 0 else s) s

/-- When an epoch retires its segments return to Static in every tile, and its token mask is cleared (R204, R208). -/
def State.retireSegs (s : State) (parity : Nat) : State :=
  (List.range 32).foldl (fun s t => (s.freeSegs t (parity + 1)).putF (Reg.tileEpochTok t) (16 * parity + 15) (16 * parity) 0) s

/-! ### Items in a tile -/

/-- Whether the tile holds an unfinished work item (R217). -/
def Tile.hasWork (tl : Tile) : Bool := !tl.work.isEmpty || tl.running.isSome || !tl.ended.isEmpty

/-- Idle: the work queue empty and no unit instruction in the reorder window (17_gaits.md, Gait transitions). -/
def Tile.isIdle (tl : Tile) : Bool := tl.work.isEmpty && tl.running.isNone && tl.window.isEmpty

/-- Whether an access that a tile has translated is still to be performed (R440). -/
def Tile.inFlight (tl : Tile) : Bool := !tl.sb.isEmpty || !tl.scat.isEmpty || !tl.loads.isEmpty || !tl.gathers.isEmpty

/-- The rows of the lists still to ask for, in order. -/
def Tile.pfWaiting (tl : Tile) : List (Prefetch × Nat) :=
  tl.prefetch.flatMap (fun p => ((List.range p.rows.length).filter (fun i =>
    !(p.landed.contains i) && !(p.out.any (fun x => x.1 == i)))).map (fun i => (p, i)))

/-- Whether anything a tile has sent is still on its way (R35). -/
def Tile.undrained (tl : Tile) : Bool := tl.inFlight || !tl.walks.isEmpty || !tl.pfWaiting.isEmpty

/-- Cycles a clocked tile has run that TILE_CNT_CYCLES does not hold yet: 1.6 GHz, in runs of 5 ns (log 56). -/
def State.cyclesDue (s : State) (t : TileId) : Nat := if s.tiles[t].clocked then 8 * ((s.time - s.tiles[t].cycFrom) / 5) else 0

/-- Those cycles counted. -/
def State.countCycles (s : State) (t : TileId) : State :=
  let n := s.cyclesDue t
  (s.modTile t (fun tl => { tl with cycFrom := tl.cycFrom + 5 * (n / 8) })).count64 (Reg.tileCntCycles t) n

/-- The tile starts the next item of its queue: item mode at the entry PC, G1 to G3 set, context epoch clear (R375). The
first item of an epoch on the tile has G3[9] set. -/
def State.startItem (s : State) (t : TileId) : State :=
  let tl := s.tiles[t]
  match tl.running, tl.work with
  | none, w :: rest =>
    if tl.waking || s.bit (Reg.tileHstat t) 0 || tl.exc.isSome then s else
    let first := match w.frame with | some f => !(tl.seen.contains f) | none => false
    let g3 : Nat := match w.frame with
      | some f => f % 256 + 2 ^ 8 + 2 ^ 9 * b2n first
      | none => 0
    let g := ((tl.g.set 1 w.g1).set 2 w.g2).set 3 (BitVec.ofNat 64 g3)
    let seen := match w.frame with | some f => if first then f :: tl.seen else tl.seen | none => tl.seen
    let s := s.modTile t (fun tl => { tl with
      work := rest, running := some w, pc := w.pc, ctx := none, g := g, seen := seen })
    let s := s.putB (Reg.tileEpoch t) 18 false
    s.put (Reg.tileItem t) (w.slot + 8 * b2n w.frame.isSome + 16 * (match w.frame with | some f => f % 256 | none => 0))
  | _, _ => s

/-- Whether an instruction or a load was issued by an item that satisfies `p`. -/
def workIs (p : Work → Bool) (w : Option Work) : Bool := match w with | some w => p w | none => false

/-- Items handed back or ended (R209 step 7, R213): they leave the work queue and the control core, with the core's own walk
where one of them was running; an exception raised for one remembers it. Their instructions stay where they are (R210). -/
def Tile.releaseWork (tl : Tile) (p : Work → Bool) : Tile :=
  let run := workIs p tl.running
  { tl with
    work := tl.work.filter (fun w => !(p w))
    running := if run then none else tl.running
    ended := tl.ended.filter (fun w => !(p w))
    walks := tl.walks.filter (fun w => w.seq.isSome || w.pf || !run)
    exc := tl.exc.map (fun x => if workIs p x.work then { x with back := true } else x) }

/-- Whether a request belongs to the instruction at place `seq`; a piece of a prefetched row belongs to none. -/
def GatherReq.of (q : GatherReq) (seq : Nat) : Bool := q.form != 7 && q.seq == seq

/-- Items cancelled (R219, R384, R588): they leave the tile with their unit instructions, those in the replay record too, and
their loads; responses of those instructions are dropped on arrival. -/
def Tile.dropWork (tl : Tile) (p : Work → Bool) : Tile :=
  let own := fun (u : UEntry) => workIs p u.work
  let gone := (tl.window.filter own).map (·.seq)
  let tl := tl.releaseWork p
  { tl with
    window := tl.window.filter (fun u => !(own u))
    gathers := tl.gathers.map (fun g => if gone.any g.of then { g with drop := true } else g)
    loads := tl.loads.filter (fun q => !(workIs p q.work))
    walks := tl.walks.filter (fun w => match w.seq with | some q => !(gone.contains q) | none => true)
    replay := tl.replay.filter (fun u => !(own u)) }

/-- The items a tile holds. -/
def Tile.items (tl : Tile) : List Work := tl.work ++ tl.running.toList ++ tl.ended

/-! ### Fences (R396) -/

/-- Whether the condition of a fence holds (R396). -/
def FenceRec.met (f : FenceRec) (tl : Tile) : Bool :=
  f.seqs.all (fun q => !(tl.window.any (fun u => u.seq == q)))
    && (f.kind == 1 || f.kind == 2 || tl.sb.all (fun e => decide (f.sbGen ≤ e.gen)))
    && (f.kind == 0 || f.kind == 2 || tl.scat.all (fun e => decide (f.scatGen ≤ e.gen)))

/-- Fences whose condition holds retire (R396). -/
def State.settleFences (s : State) (t : TileId) : State :=
  if s.tiles[t].fences.any (fun f => f.met s.tiles[t]) then
    s.modTile t (fun tl => { tl with fences := tl.fences.filter (fun f => !(f.met tl)), lastRetire := s.time })
  else s

/-- The same in every tile. -/
def State.settleAllFences (s : State) : State := (List.finRange 32).foldl (fun s t => s.settleFences t) s

/-! ### Rein-back inside a tile (R209) -/

/-- What an unlisted accumulator word reads as: 0, or a free value once the contents were lost (log 10). -/
def Tile.accDflt (tl : Tile) (k : Nat) : W32 :=
  match tl.accFill with
  | none => 0
  | some b => BitVec.ofNat 32 (Config.freeNat (b + k))

/-- Accumulator word `i` of array `a`. -/
def Tile.accGet (tl : Tile) (a i : Nat) : Nat := (spGet tl.accDflt tl.acc (16384 * a + i)).toNat

/-- An accumulator word set. -/
def Tile.accSet (tl : Tile) (a i v : Nat) : Tile :=
  { tl with acc := spSet tl.accDflt tl.acc (16384 * a + i) (BitVec.ofNat 32 v) }

/-- Words an aborted pass has written take free values (R265). -/
def State.accUndefined (s : State) (t : TileId) (spans : List (Nat × Nat × Nat)) : State :=
  spans.foldl (fun (s : State) (x : Nat × Nat × Nat) =>
    let (b, s) := s.fresh x.2.2
    s.modTile t (fun tl => (List.range x.2.2).foldl (fun (tl : Tile) i => tl.accSet x.1 (x.2.1 + i) (Config.freeNat (b + i))) tl)) s

/-- Whether an operation loads a weight bank. -/
def UOp.isWld : UOp → Bool
  | .wld | .wldSp | .wldSpt => true
  | _ => false

/-- What the abort of a started instruction leaves behind: a weight load that has not completed empties its shadow banks (R266), a tree load
invalidates its image (R360), a Quill operation flushes the merge tree (R297), a pass leaves its rows undefined (R265) and no
array frozen; its outstanding requests are discarded on arrival and its ring rows go. The passes that retired under a QRED stay to
be named by the next (R411). -/
def State.abortStarted (s : State) (t : TileId) (u : UEntry) : State :=
  let s := s.accUndefined t u.touched
  let s := s.modTile t (fun tl => { tl with
    gathers := tl.gathers.map (fun q => if q.of u.seq then { q with drop := true } else q)
    loads := tl.loads.filter (fun q => match q.vec with | some x => x.1 != u.seq | none => true)
    walks := tl.walks.filter (fun w => w.seq != some u.seq)
    arr := tl.arr.map (fun a => { a with ring := a.ring.filter (fun r => r.seq != u.seq) }) })
  match u.op with
  | .treLdl => s.putB (Reg.treStat t) 3 false
  | .treLdn => s.putB (Reg.treStat t) 4 false
  | .qexp | .qcmp | .qmrgU | .qmrgI | .qsort => s.modTile t (fun tl => { tl with qll := { QllSt.empty with early := tl.qll.early } })
  | .qred =>
    let taken := fun (tl : Tile) => (List.range 4).flatMap (fun a =>
      if bitN u.args.imm.toNat (9 + a) then List.replicate (bitsN u.gb.toNat 15 0 - tl.qll.left.toList.getD a 0) (a, u.tag) else [])
    s.modTile t (fun tl => { tl with qll := { QllSt.empty with early := taken tl ++ tl.qll.early } })
  | op =>
    if op.isWld then
      if u.done ≠ 0 then s else
      s.modTile t (fun tl => { tl with
        arr := Vector.ofFn (fun a : Fin 4 => if u.queues.contains a.val then { tl.arr[a] with shadow := Bank.empty } else tl.arr[a]) })
    else (u.queues.filter (· < 4)).foldl (fun (s : State) a => s.putB (Reg.tileArrStat t a) 8 false) s

/-- Steps 1, 2, 3, 4 and 6 of R209 for tag `g` at tile `t`: queued and started instructions of `g` leave the window,
unaccepted store-buffer and scatter entries go, its segments' lines are void, its responses are dropped on arrival. -/
def State.discardEpoch (s : State) (t : TileId) (g : Nat) : State :=
  let parity := g % 2
  let segs := (List.range 48).filter (fun k => s.segState t k = parity + 1)
  let lines := segs.flatMap (fun k => (List.range 1024).map (fun i => k * 1024 + i))
  let mine := fun (x : Option Nat) => x == some g
  let s := (s.tiles[t].window.filter (fun u => mine u.tag && u.started)).foldl (fun (s : State) u => s.abortStarted t u) s
  let s := s.modTile t (fun tl => { tl with
    window := tl.window.filter (fun u => !(mine u.tag))
    sb := tl.sb.filter (fun e => !(mine e.tag) || e.accepted)
    voids := (tl.voids.filter (fun l => !(lines.contains l))) ++ lines
    gathers := tl.gathers.map (fun q => if mine q.tag then { q with drop := true } else q)
    loads := tl.loads.filter (fun q => !(mine q.tag))
    prefetch := tl.prefetch.map (fun q => if mine q.tag then { q with rows := [], landed := [], out := [] } else q)
    qll := { tl.qll with early := tl.qll.early.filter (fun x => !(mine x.2)) }
    arr := tl.arr.map (fun a => { a with ring := a.ring.filter (fun r => !(mine r.tag)) }) })
  let mask := s.fld (Reg.tileEpochTok t) (16 * parity + 15) (16 * parity)
  ((List.range 16).foldl (fun s k => if bitN mask k then s.put (Reg.tileToken t k) 0 else s) s).settleFences t

/-- The items of a frame leave the tile (step 7 of R209): the scheduler takes them back. Untagged instructions they issued go
on (R210). -/
def State.handBack (s : State) (t : TileId) (f : Nat) : State :=
  let s := s.modTile t (fun tl => tl.releaseWork (fun w => w.frame == some f))
  s.modEpoch f (fun e => { e with items := e.items.map (fun (i, st) =>
    if st = .held t then (i, .waiting) else (i, st)) })

/-- Whether the item now running serves frame `f`. -/
def Tile.runsFrame (tl : Tile) (f : Nat) : Bool := workIs (fun w => w.frame == some f) tl.running

/-- The item whose exception is contained or handled. -/
def Tile.faulting (tl : Tile) : Option Work := tl.exc.bind (·.work)

/-- Where the handler is running for an item that satisfies `p`, HANDED_BACK is set and RESUMABLE cleared (R386). -/
def State.markBack (s : State) (t : TileId) (p : Work → Bool) : State :=
  if s.bit (Reg.tileHstat t) 0 && workIs p s.tiles[t].faulting then
    (s.putB (Reg.tileHstat t) 2 true).putB (Reg.tileHstat t) 1 false
  else s

/-- EPOCH.REIN for a frame at a tile (R209, R386): the discard, the unfinished items handed back; where the handler is
running for an item of that epoch, HANDED_BACK is set and RESUMABLE cleared, and that epoch's replay copies go. -/
def State.reinTile (s : State) (t : TileId) (f : Nat) : State :=
  let g := f % 256
  let run := s.tiles[t].runsFrame f
  let s := (s.discardEpoch t g).modTile t (fun tl => { tl with
    replay := tl.replay.filter (fun u => u.tag != some g), ctx := if run then none else tl.ctx })
  let s := (s.handBack t f).markBack t (fun w => w.frame == some f)
  let s := if run then s.putB (Reg.tileEpoch t) 18 false else s
  (s.count (Cnt.tileCntRein t)).startItem t

/-- What an epoch's retirement leaves in a tile: its unfinished items are gone, and its instructions are stale, dropped and
counted (R202); its responses count as they arrive. -/
def State.staleWork (s : State) (t : TileId) (f : Nat) : State :=
  let mine := fun (u : UEntry) => u.tag == some (f % 256)
  let was := s.tiles[t]
  let old := was.window.filter mine
  if old.isEmpty && !(was.items.any (fun w => w.frame == some f)) then s
  else
    let s := (old.filter (·.started)).foldl (fun (s : State) u => s.abortStarted t u) s
    let s := s.modTile t (fun tl => { tl.releaseWork (fun w => w.frame == some f) with
      window := tl.window.filter (fun u => !(mine u)), replay := tl.replay.filter (fun u => !(mine u))
      qll := { tl.qll with early := tl.qll.early.filter (fun x => x.2 != some (f % 256)) }
      gathers := was.gathers, loads := was.loads, ctx := if was.runsFrame f then none else tl.ctx })
    let s := s.markBack t (fun w => w.frame == some f)
    ((s.count (Cnt.tileCntStale t) old.length).settleFences t).startItem t

/-! ### Tile reset (R216) -/

/-- Tile reset: control core, queues, tokens, buffers, TLB and epoch registers as R216's table says; G1 to G31, P and V take
free values; accepted store-buffer and scatter entries still complete; every item leaves the tile (its standing is the
caller's to settle). -/
def State.resetTile (s : State) (t : TileId) : State :=
  let (b, s) := s.fresh 40
  let (vb, s) := s.fresh (2048 + 65536)
  let g : Vector W64 32 := Vector.ofFn (fun i : Fin 32 => if i.val = 0 then 0 else BitVec.ofNat 64 (Config.freeNat (b + i.val)))
  let s := s.modTile t (fun tl => { tl with
    work := [], running := none, ended := [], seen := [], g := g, p := Config.freeNat (b + 32) % 256
    v := [], vFill := some vb, window := [], nextSeq := 0, retired := [], fences := [], exc := none, replay := []
    sb := tl.sb.filter (·.accepted), scat := tl.scat.filter (·.accepted)
    loads := [], gathers := tl.gathers.map (fun q => { q with drop := true }), prefetch := [], ctx := none
    tlb := [], walks := [], claimed := Vector.replicate 2 none, qll := QllSt.empty
    acc := [], accFill := some (vb + 2048)
    arr := tl.arr.map (fun a => { a with active := Bank.empty, shadow := Bank.empty, armed := false, ring := [] }) })
  let s := (List.range 16).foldl (fun s k => s.put (Reg.tileToken t k) 0) s
  let s := (List.range 3).foldl (fun s k => s.put (Reg.tileSegState t k) 0) s
  let s := (((s.put (Reg.tileEpoch t) 0).put (Reg.tileEpochTok t) 0).put (Reg.tileHstat t) 0).put (Reg.tileItem t) 0
  let s := s.put (Reg.tileTlbStat t) 0
  (List.range 4).foldl (fun s a => s.put (Reg.tileArrStat t a) 0) s

end Sys2Proof.Machine
end

