-- ==== Sys2Proof/Machine/Sched.lean ====
section
/-! DEFINITION. The tile scheduler (R218 to R234), placement (R593 to R597), lost items (R588 to R590) and the failure of a tile (R587):
operations that the frame, tile and event commands share. -/

namespace Sys2Proof.Machine

/-! ### Program tables -/

/-- A little-endian number read by the scheduler at a device physical address; none where the read drops (R659). -/
def State.schedRead (s : State) (a n : Nat) : Option Nat × State :=
  match s.engRead false a n none with
  | (.data bs, s) => (some (leNat bs), s)
  | (.bad, s) => (none, s)

/-- The fields of an item descriptor the scheduler reads (Table 06-8). -/
structure ItemDesc where
  pc : Nat
  kind : Nat
  flags : Nat
  sector : Nat
  mask : Nat
  crange : Nat
  deriving DecidableEq, Repr

/-- Item `i` of a program, as memory holds it; none where its descriptor cannot be read. -/
def State.itemDesc (s : State) (p : ProgInfo) (i : Nat) : Option ItemDesc :=
  let a := p.itemBase + 64 * i
  if s.engOk a 16 then
    let b := s.engBytes a 16
    some { pc := leAt b 0 4, kind := leAt b 4 1, flags := leAt b 5 1, sector := leAt b 6 1, mask := leAt b 8 2, crange := leAt b 12 4 }
  else none

/-- Dependency `k` of a program: producer and consumer (R229). -/
def State.depWord (s : State) (p : ProgInfo) (k : Nat) : Option (Nat × Nat) :=
  let a := p.depBase + 4 * k
  if s.engOk a 4 then
    let n := leNat (s.engBytes a 4)
    some (n % 2 ^ 16, n / 2 ^ 16)
  else none

/-- The placement byte of item `i` on die `d`, in the full or the N-1 array (R230): none where it cannot be read, 0xFF
where the item does not run there. -/
def State.placeByte (s : State) (p : ProgInfo) (d : Nat) (full : Bool) (i : Nat) : Option Nat :=
  let n := (p.t + p.u + 63) / 64 * 64
  let a := p.placeBase + n * (2 * d + (if full then 0 else 1)) + i
  if s.engOk a 1 then some (leNat (s.engBytes a 1)) else none

/-- Whether `n` bytes at a device physical address cannot be read by the scheduler (R659). -/
def State.unreadable (s : State) (x : Nat × Nat) : Bool := !(s.engOk x.1 x.2)

/-- Reads that cannot be made, counted as R659 says. -/
def State.countReads (s : State) (xs : List (Nat × Nat)) (frame : Option Nat) : State :=
  (xs.filter s.unreadable).foldl (fun (s : State) x => (s.engRead false x.1 x.2 frame).2) s

/-- The address of item `i`'s descriptor, and its placement byte on a die. -/
def ProgInfo.descAt (p : ProgInfo) (i : Nat) : Nat × Nat := (p.itemBase + 64 * i, 16)
/-- The address of a placement byte (R230). -/
def ProgInfo.placeAt (p : ProgInfo) (d : Nat) (full : Bool) (i : Nat) : Nat × Nat :=
  (p.placeBase + (p.t + p.u + 63) / 64 * 64 * (2 * d + (if full then 0 else 1)) + i, 1)
/-- The address of dependency word `k`. -/
def ProgInfo.depAt (p : ProgInfo) (k : Nat) : Nat × Nat := (p.depBase + 4 * k, 4)

/-- Every edge of the dependency table that can be read. -/
def State.depList (s : State) (p : ProgInfo) : List (Nat × Nat) := (List.range p.deps).filterMap (s.depWord p)

/-- Whether a byte range is all zero. -/
def zeroBytes (b : List Byte) (o n : Nat) : Bool := ((b.drop o).take n).all (· == 0)

/-- The check of R227: the failing step, 0 for a pass, and the program's fields where step 1 could read them. -/
def State.checkProgram (s : State) (b : Nat) : Nat × Option ProgInfo × State :=
  let base := s.rd64 (Reg.tileSchedProg b) / 64 * 64
  match s.engRead (s.isUnset (Reg.tileSchedProg b) 2) base 128 none with
  | (.bad, s) => (1, none, s)
  | (.data d, s) =>
    let info : ProgInfo := { t := leAt d 6 2, u := leAt d 8 2, deps := leAt d 0xC 4, itemBase := leAt d 0x10 8 / 64 * 64
                             depBase := leAt d 0x18 8 / 4 * 4, placeBase := leAt d 0x20 8 / 64 * 64
                             exp0 := leAt d 0x28 8 / 32 * 32, exp1 := leAt d 0x30 8 / 32 * 32, proposal := leAt d 0x38 2
                             fills := (List.range 8).map (fun k => leAt d (0x40 + 2 * k) 2), cons := [] }
    if ¬ (leAt d 0 4 = 1 ∧ zeroBytes d 0xA 2 ∧ zeroBytes d 0x3A 6 ∧ zeroBytes d 0x50 48) then (1, none, s)
    else if leAt d 4 2 ≠ s.fld (Reg.tileIsaver 0) 15 0 then (2, none, s)
    else if ¬ (1 ≤ info.t ∧ info.t ≤ 16384 ∧ info.u ≤ 1024 ∧ info.deps ≤ 262144) then (3, none, s)
    else
      let okKind := fun (i k : Nat) => i < info.t && (match s.itemDesc info i with
        | some x => x.kind == k && bitN x.flags 1
        | none => false)
      if ¬ (okKind info.proposal 4 ∧ info.fills.all (fun f => okKind f 3)) then
        let at4 := ((info.proposal :: info.fills).filter (fun i => i < info.t)).map info.descAt
        (4, none, s.countReads ((at4.find? s.unreadable).toList) none)
      else
        let deps := (List.range info.deps).map (s.depWord info)
        let okEdge := deps.all (fun e => match e with | some (p, c) => p < c && c < info.t | none => false)
        let cons := deps.filterMap (fun e => e.map (·.2))
        let sorted := (cons.zip (cons.drop 1)).all (fun x => x.1 ≤ x.2)
        if ¬ (okEdge ∧ sorted) then
          let at5 := (List.range info.deps).map info.depAt
          (5, none, s.countReads ((at5.find? s.unreadable).toList) none)
        else
          let pb := fun (d : Nat) (full : Bool) (i : Nat) => (s.placeByte info d full i).getD 0x100
          let inRange := fun (i : Nat) => (List.range 2).all (fun d =>
            decide ((pb d true i ≤ 15 ∨ pb d true i = 0xFF) ∧ (pb d false i ≤ 13 ∨ pb d false i = 0xFF)))
          let okItem := fun (i : Nat) =>
            let on := fun (d : Nat) => decide (pb d true i ≤ 15 ∧ pb d false i ≤ 13)
            let off := fun (d : Nat) => decide (pb d true i = 0xFF ∧ pb d false i = 0xFF)
            (on 0 && off 1) || (off 0 && on 1)
          if (List.range info.t).all okItem && (List.range (info.t + info.u)).all inRange then (0, some { info with cons := cons }, s)
          else
            let at6 := (List.range (info.t + info.u)).flatMap (fun i =>
              [info.placeAt 0 true i, info.placeAt 0 false i, info.placeAt 1 true i, info.placeAt 1 false i])
            (6, none, s.countReads ((at6.find? s.unreadable).toList) none)

/-! ### Placement (R594) -/

/-- Whether a tile is in service (R594): its die present, and its STATE neither quarantined nor out of service. -/
def State.inService (s : State) (t : Nat) : Bool :=
  s.bit (Reg.tileDieStat (t / 16)) 0 && s.tileState t != 4 && s.tileState t != 5

/-- In-service tiles of a die in ascending logical ID. -/
def State.dieTiles (s : State) (d : Nat) : List TileId :=
  (List.finRange 32).filter (fun t => decide (t.val / 16 = d) && s.inService t && !(s.tiles[t].selfTest))

/-- The placement of a die now (R594). -/
def State.choosePlace (s : State) (d : Nat) : Placement :=
  let ts := s.dieTiles d
  if ts.length = 16 then ⟨true, false, ts⟩
  else ⟨false, decide (ts.length < 14), ts.take 14⟩

/-- The placements of both dies now. -/
def State.places (s : State) : List Placement := [s.choosePlace 0, s.choosePlace 1]

/-- The die and slot of item `i` under the placements `pl`. -/
def State.itemSlot (s : State) (p : ProgInfo) (pl : List Placement) (i : Nat) : Option (Nat × Nat) :=
  ((List.range 2).filterMap (fun d =>
    match pl[d]? with
    | some q => match s.placeByte p d q.full i with
      | some b => if b < 16 then some (d, b) else none
      | none => none
    | none => none)).head?

/-- The tile that serves a slot, if the slot is served. -/
def slotTile (pl : List Placement) (x : Nat × Nat) : Option TileId := (pl[x.1]?).bind (fun q => q.slots[x.2]?)

/-! ### Items of an epoch (R229, R588) -/

/-- Standing of an item; unlisted items wait. -/
def Epoch.item (e : Epoch) (i : Nat) : ItemSt := spGet (fun _ => ItemSt.waiting) e.items i

/-- An item's standing set. -/
def Epoch.setItem (e : Epoch) (i : Nat) (v : ItemSt) : Epoch := { e with items := spSet (fun _ => ItemSt.waiting) e.items i v }

/-- Several items' standing set. -/
def Epoch.setItems (e : Epoch) (is : List Nat) (v : ItemSt) : Epoch := is.foldl (fun e i => e.setItem i v) e

/-- A tile no longer awaited in step 2 of a rein-back. -/
def Rein.dropTile (r : Rein) (t : TileId) : Rein :=
  match r with
  | .run ts h d => .run (ts.filter (· ≠ t)) h d
  | r => r

/-- The program an epoch runs. -/
def State.progOf (s : State) (e : Epoch) : Option ProgInfo := if e.noWork then none else s.sched.progs[e.buf]

/-- Whether the sector's items other than its fill item have all finished or been lost. -/
def State.sectorDone (s : State) (e : Epoch) (p : ProgInfo) (sct fill : Nat) : Bool :=
  (List.range p.t).all (fun i =>
    i == fill || (match s.itemDesc p i with
      | some d => if d.sector = sct ∧ d.kind ≠ 3 then e.item i == .finished || e.item i == .lost else true
      | none => true))

/-- Whether an item counts as finished for its consumers and for commit: finished, or the fill item of a sector that is
neither lost nor uncovered once that sector's other items are done (R588, R589). -/
def State.itemDone (s : State) (e : Epoch) (p : ProgInfo) (i : Nat) : Bool :=
  e.item i == .finished || e.item i == .lost ||
  (match s.itemDesc p i with
   | some d => d.kind == 3 && !(bitN e.lostSect d.sector) && !(bitN e.uncovSect d.sector) && s.sectorDone e p d.sector i
   | none => false)

/-- An item made lost: its sector is a lost sector, and the loss is counted (R588). -/
def State.loseItem (s : State) (e : Epoch) (p : ProgInfo) (i : Nat) : Epoch × State :=
  if e.item i = .lost then (e, s) else
  let e := { e.setItem i .lost with degraded := true }
  let e := match s.itemDesc p i with
    | some d =>
      let e := if d.sector < 8 then { e with lostSect := e.lostSect ||| 2 ^ d.sector } else e
      if d.kind = 2 then { e with clusterLost := true } else e
    | none => e
  (e, s.count Cnt.tileSchedCntLost)

/-- Losses carried along the item graph: a consumer of a lost item that is not a closing item is lost too (R588). The
table is sorted by consumer with producers below, so one pass settles it. -/
def State.spreadLoss (s : State) (f : Nat) : State :=
  match s.epoch? f with
  | none => s
  | some e =>
    match s.progOf e with
    | none => s
    | some p =>
      let (e', s') := (s.depList p).foldl (fun (x : Epoch × State) (pc : Nat × Nat) =>
        let (e, s) := x
        let closing : Bool := match s.itemDesc p pc.2 with | some d => bitN d.flags 1 | none => false
        if e.item pc.1 == .lost && !closing && e.item pc.2 != .finished then s.loseItem e p pc.2 else (e, s)) (e, s)
      s'.modEpoch f (fun _ => e')

/-- Items of frame `f` that satisfy `p` made lost. -/
def State.loseItems (s : State) (f : Nat) (is : List Nat) : State :=
  match s.epoch? f with
  | none => s
  | some e =>
    match s.progOf e with
    | none => s
    | some p =>
      let (e', s') := is.foldl (fun (x : Epoch × State) i => x.2.loseItem x.1 p i) (e, s)
      (s'.modEpoch f (fun _ => e')).spreadLoss f

/-- What the scheduler reads of a tagged item under the placements `pl`: its descriptor, its placement bytes and the dependency words
it consumes (R659). -/
def ProgInfo.reads (p : ProgInfo) (pl : List Placement) (i : Nat) : List (Nat × Nat) :=
  p.descAt i :: (pl.zipIdx.map (fun x => p.placeAt x.2 x.1.full i) ++ (p.cons.zipIdx.filter (fun c => c.1 == i)).map (fun c => p.depAt c.2))

/-- Waiting items of which the scheduler cannot read a descriptor, a placement byte or a dependency word are lost, and the reads
counted (R659). -/
def State.loseUnreadable (s : State) (f : Nat) : State :=
  match s.epoch? f with
  | none => s
  | some e =>
    match s.progOf e with
    | none => s
    | some p =>
      let hit := (List.range p.t).filter (fun i => e.item i == .waiting && (p.reads e.place i).any s.unreadable)
      if hit.isEmpty then s else (s.countReads (hit.flatMap (p.reads e.place)).eraseDups (some f)).loseItems f hit

/-- At opening, the items of unserved slots are not dispatched (R595): they stand as lost without being counted, the Drey
sector each serves is uncovered, and a cluster-scoring item among them leaves every sector uncovered. Closing items are
dispatched on another tile instead (R589, R610). -/
def State.markUnserved (s : State) (f : Nat) : State :=
  let s := s.loseUnreadable f
  match s.epoch? f with
  | none => s
  | some e =>
    match s.progOf e with
    | none => s
    | some p =>
      let e' := (List.range p.t).foldl (fun (e : Epoch) i =>
        if e.item i = .lost then e else
        match s.itemSlot p e.place i, s.itemDesc p i with
        | some x, some d =>
          if (slotTile e.place x).isSome then e
          else
            let e := if d.sector < 8 then { e with uncovSect := e.uncovSect ||| 2 ^ d.sector } else e
            let e := if d.kind = 2 then { e with uncovSect := 0xFF, clusterUncov := true } else e
            let e := { e with degraded := true }
            if bitN d.flags 1 then e else e.setItem i .lost
        | _, _ => { (e.setItem i .lost) with degraded := true }) e
      (s.modEpoch f (fun _ => e')).spreadLoss f

/-! ### Dispatch (R218, R229, R231) -/

/-- Whether an item's sector lists are ready (R218): every descriptor of its mask, for its sector, at the epoch's parity. -/
def State.listsReady (s : State) (parity : Nat) (d : ItemDesc) : Bool :=
  if d.sector < 8 then
    (List.range 16).all (fun k =>
      !(bitN d.mask k) ||
      (let b := 8 * k + d.sector
       let w := if parity = 0 then Reg.dreyKmReady0 (b / 32) else Reg.dreyKmReady1 (b / 32)
       s.bit w (b % 32)))
  else true

/-- The tile an item goes to: its slot's, or for a closing item whose slot has no in-service tile the first in-service tile
of the same die, else of the other die (R610). -/
def State.itemTile (s : State) (e : Epoch) (p : ProgInfo) (i : Nat) (d : ItemDesc) : Option TileId :=
  match s.itemSlot p e.place i with
  | none => none
  | some x =>
    match slotTile e.place x with
    | some t => if s.inService t ∧ ¬ s.tiles[t].selfTest then some t
                else if bitN d.flags 1 then (s.dieTiles x.1 ++ s.dieTiles (1 - x.1)).head? else none
    | none => if bitN d.flags 1 then (s.dieTiles x.1 ++ s.dieTiles (1 - x.1)).head? else none

/-- Items queued or running in a tile's work queue of eight (R218). -/
def Tile.queued (tl : Tile) : Nat := tl.work.length + (if tl.running.isSome then 1 else 0)

/-- The first queue slot no item holds. -/
def Tile.freeSlot (tl : Tile) : Nat :=
  let used := (tl.work ++ tl.running.toList).map (·.slot)
  ((List.range 8).filter (fun k => !(used.contains k))).headD 0

/-- Whether every dispatch condition of R229 holds for item `i` of epoch `e`. -/
def State.itemReady (s : State) (e : Epoch) (p : ProgInfo) (deps : List (Nat × Nat)) (i : Nat) : Option (TileId × ItemDesc) :=
  if e.item i ≠ .waiting then none else
  match s.itemDesc p i with
  | none => none
  | some d =>
    let prods := (deps.filter (fun x => x.2 == i)).map (·.1)
    let okProds := prods.all (s.itemDone e p)
    let needed := d.kind != 3 || ((bitN e.lostSect d.sector || bitN e.uncovSect d.sector) && s.sectorDone e p d.sector i)
    if okProds && needed && s.listsReady (e.frame % 2) d && (!(bitN d.flags 0) || e.promoted) then
      match s.itemTile e p i d with
      | some t => if s.tiles[t].queued < 8 then some (t, d) else none
      | none => none
    else none

/-- Tile wake started where a dispatch meets a clock-gated tile (R552, R553): at most 8 in any 500 ns; whether it may start. -/
def State.wakeTile (s : State) (t : TileId) : Bool × State :=
  if s.tiles[t].clocked ∨ s.tiles[t].waking then (true, s)
  else
    let recent := s.sched.wakes.filter (fun w => s.time < w.1 + 500)
    if 8 ≤ recent.length then (false, s)
    else (true, { s.modTile t (fun tl => { tl with waking := true }) with sched := { s.sched with wakes := (s.time, t.val) :: recent } })

/-- An item handed to a tile. -/
def State.sendItem (s : State) (t : TileId) (w : Work) : State :=
  let s := s.modTile t (fun tl => { tl with
    work := tl.work ++ [{ w with slot := tl.freeSlot }]
    worked := tl.worked || w.frame.isSome
    satp := s.rd64 (Reg.tileSatp t)
    tlb := if tl.satp = s.rd64 (Reg.tileSatp t) then tl.tlb else []
    lastRetire := if tl.hasWork then tl.lastRetire else s.time })
  (s.count64 Reg.tileSchedCntDisp).startItem t

/-- The words an item's code finds in G2 (R228): the sector, or the cluster range. -/
def ItemDesc.g2 (d : ItemDesc) : Nat := if d.sector ≠ 0xFF then d.sector else d.crange

/-- The first tagged item, of the older epoch first and in ascending index, whose conditions hold. -/
def State.nextTagged (s : State) : Option (Epoch × ProgInfo × Nat × TileId × ItemDesc) :=
  s.frm.live.findSome? (fun e =>
    match s.progOf e with
    | none => none
    | some p =>
      let deps := s.depList p
      (List.range p.t).findSome? (fun i =>
        match s.itemReady e p deps i with
        | some (t, d) => some (e, p, i, t, d)
        | none => none))

/-- The next untagged index from `i` whose trigger is 0 (R231). -/
def State.nextTrig0 (s : State) (p : ProgInfo) (i : Nat) : Option Nat :=
  ((List.range (p.t + p.u)).drop i).find? (fun k => match s.itemDesc p k with
    | some d => decide (p.t ≤ k) && !(bitN d.flags 2)
    | none => false)

/-- The sequence of untagged items of trigger 0 goes past item `i` of buffer `b`, once that has finished or been lost; the
sequence of a later commit follows where this one ends. -/
def State.untagNext (s : State) (b : Fin 2) (i : Nat) : State :=
  match s.sched.untag with
  | (b', i', pl) :: rest =>
    if b' = b ∧ i' = i then
      let nxt := match s.sched.progs[b] with | some p => s.nextTrig0 p (i + 1) | none => none
      { s with sched := { s.sched with untag := (nxt.map (fun k => (b, k, pl))).toList ++ rest, untagBusy := false } }
    else s
  | [] => s

/-- The tile an untagged item would go to: none where its slot has no in-service tile. -/
def State.untagTile (s : State) (b : Fin 2) (i : Nat) (pl : List Placement) : Option (TileId × ItemDesc × ProgInfo) :=
  match s.sched.progs[b] with
  | none => none
  | some p =>
    match s.itemSlot p pl i, s.itemDesc p i with
    | some x, some d =>
      match slotTile pl x with
      | some t => if s.inService t then some (t, d, p) else none
      | none => none
    | _, _ => none

/-- An untagged item of which the scheduler cannot read the descriptor or a placement byte is lost and counted (R659). -/
def State.untagLost (s : State) (b : Fin 2) (i : Nat) (pl : List Placement) : State :=
  match s.sched.progs[b] with
  | none => s
  | some p =>
    let rs := p.descAt i :: pl.zipIdx.map (fun x => p.placeAt x.2 x.1.full i)
    if rs.any s.unreadable then (s.countReads rs none).count Cnt.tileSchedCntLost else s

/-- An untagged item, kicked or next in the sequence, that no in-service tile serves is passed over (R595; log 49). -/
def State.skipUnserved (s : State) : State :=
  let gone := s.sched.kicks.filter (fun k => (s.untagTile k.1 k.2.1 k.2.2).isNone)
  let s := gone.foldl (fun (s : State) k => s.untagLost k.1 k.2.1 k.2.2) s
  let s := { s with sched := { s.sched with kicks := s.sched.kicks.filter (fun k => (s.untagTile k.1 k.2.1 k.2.2).isSome) } }
  match s.sched.untag with
  | (b, i, pl) :: _ => if !s.sched.untagBusy && (s.untagTile b i pl).isNone then (s.untagLost b i pl).untagNext b i else s
  | [] => s

/-- The next untagged item (R231): the first kicked one whose tile has room, with its place among the kicks, else the next of
trigger 0 after a commit, if none of these is running. -/
def State.nextUntagged (s : State) : Option (Option Nat × Fin 2 × Nat × TileId × ItemDesc × ProgInfo) :=
  let room := fun (b : Fin 2) (i : Nat) (pl : List Placement) =>
    (s.untagTile b i pl).filter (fun x => decide (s.tiles[x.1].queued < 8))
  match s.sched.kicks.zipIdx.findSome? (fun k => (room k.1.1 k.1.2.1 k.1.2.2).map (fun x => (some k.2, k.1.1, k.1.2.1, x))) with
  | some r => some r
  | none =>
    match s.sched.untag with
    | (b, i, pl) :: _ => if s.sched.untagBusy then none else (room b i pl).map (fun x => (none, b, i, x))
    | [] => none

/-! ### Cancel, reissue and tile failure -/

/-- Items of a frame taken back from every tile that holds one of them. -/
def State.pullItems (s : State) (f : Nat) (p : Nat → Bool) : State :=
  (List.finRange 32).foldl (fun s t =>
    let mine := fun (w : Work) => w.frame == some f && p w.idx
    if s.tiles[t].items.any mine || workIs mine s.tiles[t].faulting then
      (((s.modTile t (fun tl => tl.dropWork mine)).markBack t mine).settleFences t).startItem t
    else s) s

/-- Sector reopening at the scheduler (R219): every item of sectors s-1, s and s+1 from the first that reads their lists on
is cancelled where unfinished and waits again, and those that had been dispatched or finished count as reissued. -/
def State.reopenItems (s : State) (f sct : Nat) : State :=
  match s.epoch? f with
  | none => s
  | some e =>
    match s.progOf e with
    | none => s
    | some p =>
      let inS := fun (d : ItemDesc) => d.sector < 8 && (d.sector == (sct + 7) % 8 || d.sector == sct || d.sector == (sct + 1) % 8)
      let first := (List.range p.t).find? (fun i => match s.itemDesc p i with | some d => inS d && d.mask != 0 | none => false)
      match first with
      | none => s
      | some i0 =>
        let hit := fun (i : Nat) => decide (i0 ≤ i) && (match s.itemDesc p i with | some d => inS d | none => false)
        let again := (List.range p.t).filter (fun i => hit i && (match e.item i with | .finished => true | .held _ => true | _ => false))
        let s := s.pullItems f hit
        let s := s.modEpoch f (fun e => e.setItems again .waiting)
        s.count Cnt.tileSchedCntReissue again.length

/-- A change of a die's limp status, logged (R597). -/
def State.limpLog (s : State) (d : Nat) (now : Bool) (uncov : Nat) : State :=
  if s.bit Reg.evtLimpStat d = now then s
  else (s.putB Reg.evtLimpStat d now).logEvent 0x25 d 0 (b2n now + 2 ^ 8 * uncov)

/-- The speculative epoch cancelled and reissued from its first layer under the placement now selected (R590); where that takes the
frame into limp operation (R610), that is counted and logged. -/
def State.reissueAll (s : State) (f : Nat) : State :=
  match s.epoch? f with
  | none => s
  | some e =>
    let n := (e.items.filter (fun x => match x.2 with | .finished => true | .held _ => true | _ => false)).length
    let s := s.pullItems f (fun _ => true)
    let s := (List.finRange 32).foldl (fun s t => s.discardEpoch t (f % 256)) s
    let s := s.modEpoch f (fun e => { e with items := [], lostSect := 0, uncovSect := 0, clusterLost := false, clusterUncov := false, place := s.places })
    let s := (s.count Cnt.tileSchedCntReissue n).markUnserved f
    if e.place.any (·.limp) || !(s.places.any (·.limp)) then s
    else
      let uncov := match s.epoch? f with | some e => e.uncovSect | none => 0
      (s.places.zipIdx.filter (fun x => x.1.limp)).foldl (fun (s : State) x => s.limpLog x.2 true uncov) (s.count Cnt.evtCntLimp)

/-- Items of the older, promoted epoch withdrawn from a tile, those it held (`items`) and those still queued for it: lost but
for closing items, which run elsewhere (R587, R588, R610). -/
def State.withdrawClosed (s : State) (t : TileId) (e : Epoch) (items : List Work) : State :=
  match s.progOf e with
  | none => s
  | some p =>
    let held := (items.filter (fun w => w.frame == some e.frame)).map (·.idx)
    let s := s.modEpoch e.frame (fun x => { x.setItems held .waiting with degraded := true })
    let queued := (List.range p.t).filter (fun i => e.item i == .waiting && (s.itemSlot p e.place i).bind (slotTile e.place) == some t)
    let lose := (held ++ queued).filter (fun i => match s.itemDesc p i with | some d => !(bitN d.flags 1) | none => true)
    s.loseItems e.frame lose

/-- The scheduler's part of a tile lost to service (R587 to R590): the promoted epoch's items are withdrawn, an epoch still
speculative is cancelled and reissued, and untagged items of the tile are lost, their sequence going on (log 49). -/
def State.withdrawTile (s : State) (t : TileId) (items : List Work) : State :=
  let s := s.mapLive (fun e => { e with rein := e.rein.dropTile t })
  let s := (items.filter (fun w => w.frame.isNone)).foldl (fun (s : State) w => (s.count Cnt.tileSchedCntLost).untagNext w.buf w.idx) s
  s.frm.live.foldl (fun (s : State) e =>
    if e.noWork then s
    else if e.promoted then s.withdrawClosed t e items
    else s.reissueAll e.frame) s

/-- Whether every store buffer and the traffic of every tile is drained, and on Walk to Stable that of the base-die units too: copy
channels, messages made and not sent, and what the SCI ports hold (R35, log 125). -/
def State.drained (s : State) : Bool :=
  !(s.tiles.toList.any Tile.undrained)
    && (s.gait.trans != .walkToStable
      || ((List.finRange 4).all (fun (c : Fin 4) => !(s.bit (Reg.hrdCpyStat c) 0)) && s.hitch.outbox.isEmpty
        && s.hitch.ports.toList.all (fun q => q.queue.isEmpty && q.ctl.isEmpty && q.unacked.isEmpty)))

/-- The package enters Trot from Canter, 1 µs after the drain (R552). -/
def State.enterTrot (s : State) : State :=
  let s := s.at_ (s.time + 1000)
  ((s.setGait 2 true).setTrans .none false).runWake

/-- In Canter with no tile clocked or waking, the package drains and enters Trot (R33, R552). -/
def State.leaveCanter (s : State) : State :=
  if s.tiles.toList.any (fun x => x.clocked || x.waking) ∨ s.gaitN ≠ 3 ∨ s.gait.trans ≠ .none then s
  else if s.drained then s.enterTrot
  else s.setTrans .canterToTrot false

/-- A tile taken from its work: it is idle from now on and clock-gates in its time (R33, R554); a wake it waited for is skipped, and
its place in the 500 ns window is free (R582). -/
def State.stopTile (s : State) (t : TileId) : State :=
  let s := if s.tiles[t].waking then
      { s with sched := { s.sched with wakes := s.sched.wakes.filter (fun w => w.2 ≠ t.val) } }
    else s
  (s.modTile t (fun tl => { tl with waking := false, selfTest := false, idleSince := s.time, lastRetire := s.time })).leaveCanter

/-- The failure of a tile (R587 to R590): quarantined, reset, its items withdrawn. `cause`: 0 ECC, 1 watchdog, 2 bond
parity. -/
def State.failTile (s : State) (t : TileId) (cause : Nat) : State :=
  if s.tileState t = 4 then s else
  let items : List Work := s.tiles[t].items
  let s := s.setTileState t 4
  let s := s.resetTile t
  let s := s.stopTile t
  let s := s.orReg Reg.evtQuarStat (2 ^ t.val)
  let s := s.mapLive (fun e => { e with quarTiles := e.quarTiles ||| 2 ^ t.val })
  let s := (s.count Cnt.evtCntQuar).logEvent 0x20 t.val 0 cause
  s.withdrawTile t items

end Sys2Proof.Machine
end

