-- ==== Sys2Proof/Machine/Drey.lean ====
section
/-! DEFINITION. Drey (05_drey.md): keys, the directory, inserts, sectors, kernel maps, rein-back and retirement. -/

namespace Sys2Proof.Machine

/-! ### CRC-32C (R81) and keys -/

/-- One bit of a reflected CRC. -/
def crcBit (poly : Nat) (c : Nat) : Nat := if c % 2 = 1 then (c / 2) ^^^ poly else c / 2

/-- One byte into a reflected CRC. -/
def crcByte (poly : Nat) (c : Nat) (b : Byte) : Nat :=
  let c := c ^^^ b.toNat
  (List.range 8).foldl (fun c _ => crcBit poly c) c

/-- CRC-32C of a byte list (R81). -/
def crc32c (bs : List Byte) : Nat := (bs.foldl (crcByte 0x82F63B78) 0xFFFFFFFF) ^^^ 0xFFFFFFFF

/-- "No row" (R165, R167, R182). -/
def noRow : Nat := 0x1FFFFF

/-- A key word, Table 05-1. -/
def keyWord (epoch level : Nat) (ix iy iz : Int) : Nat :=
  unsint 16 ix + 2 ^ 16 * unsint 16 iy + 2 ^ 32 * unsint 16 iz + 2 ^ 48 * level + 2 ^ 56 * epoch

/-- The engine a key is assigned to (R162). -/
def keyEngine (k : Nat) : Nat := crc32c (toLe k 8) % 4

/-- Level of a key word. -/
def keyLevel (k : Nat) : Nat := bitsN k 49 48
/-- A coordinate index of a key word: 0 X, 1 Y, 2 Z. -/
def keyIx (k c : Nat) : Int := sint 16 (k / 2 ^ (16 * c))

/-- Whether a coordinate index fits the key (R154). -/
def ixFits (i : Int) : Bool := decide (-32768 ≤ i ∧ i ≤ 32767)

/-- The Drey sector of a cell centre: 45° sectors counterclockwise from +x, of the direction (2IX+1, 2IY+1). -/
def sectorOf (ix iy : Int) : Nat :=
  let x := 2 * ix + 1
  let y := 2 * iy + 1
  if 0 < y then (if 0 < x then (if y < x then 0 else 1) else (if -x < y then 2 else 3))
  else (if x < 0 then (if -y < -x then 4 else 5) else (if x < -y then 6 else 7))

/-- The sector of a key's cell. -/
def keySector (k : Nat) : Nat := sectorOf (keyIx k 0) (keyIx k 1)

/-! ### Directory and sector state -/

/-- Row of a key in an epoch's directory. -/
def Epoch.row? (e : Epoch) (k : Nat) : Option Nat := (e.dir.find? (fun x => x.1 == k)).map (·.2)

/-- DREY_OCC register of a parity and level. -/
def occReg (parity l : Nat) : Nat := if parity = 0 then Reg.dreyOcc0 l else Reg.dreyOcc1 l

/-- Enabled levels of an epoch (R151). -/
def Epoch.levels (e : Epoch) : Nat := bitsN (regN e.conf Reg.dreyCtrl) 2 1 + 1

/-- Entries held at a level: both live epochs' and a retired epoch's until its scan ends (R157, R186). -/
def State.held (s : State) (l : Nat) : Nat :=
  s.rd (Reg.dreyOcc0 l) + s.rd (Reg.dreyOcc1 l) + (match s.drey.scanning with | some v => v.toList.getD l 0 | none => 0)

/-- Capacity of a level under the split in force (R156). -/
def State.cap (s : State) (l : Nat) : Nat := s.drey.split.toList.getD l 0

/-- Sector closed bit (DREY_SECT_STATE). -/
def State.sectClosed (s : State) (parity sct : Nat) : Bool := s.bit Reg.dreySectState (16 * parity + sct)
/-- Sector reopened bit (DREY_SECT_STATE). -/
def State.sectReopened (s : State) (parity sct : Nat) : Bool := s.bit Reg.dreySectState (16 * parity + 8 + sct)

/-- DREY_KM_READY bits of a sector set or cleared for the descriptors of `mask`. -/
def State.setReady (s : State) (parity sct mask : Nat) (v : Bool) : State :=
  (List.range 16).foldl (fun s d =>
    if bitN mask d then
      let b := 8 * d + sct
      s.putB (if parity = 0 then Reg.dreyKmReady0 (b / 32) else Reg.dreyKmReady1 (b / 32)) (b % 32) v
    else s) s

/-- A new key in a closed sector reopens it (R180, R219). -/
def State.reopen (s : State) (f sct : Nat) : State :=
  let parity := f % 2
  let near := [(sct + 7) % 8, sct, (sct + 1) % 8]
  let s := near.foldl (fun s n => s.setReady parity n 0xFFFF false) s
  let s := (s.putB Reg.dreySectState (16 * parity + sct) false).putB Reg.dreySectState (16 * parity + 8 + sct) true
  let s := s.modEpoch f (fun e => { e with reopens := e.reopens + 1,
                                           kmBusy := near.foldl (fun m n => putBits m n n 0) e.kmBusy })
  (s.count Cnt.dreyCntReopen).reopenItems f sct

/-! ### Insert (R164 to R170) -/

/-- The keys of a point at every enabled level, finest first; none where an index does not fit at some level (R154). -/
def Epoch.keysOf (e : Epoch) (x y z : Int) : Option (List Nat) :=
  let vox : Int := regN e.conf Reg.dreyVox0
  let ks := (List.range e.levels).map (fun l =>
    let c := vox * 2 ^ l
    (l, x / c, y / c, z / c))
  if ks.all (fun k => ixFits k.2.1 && ixFits k.2.2.1 && ixFits k.2.2.2) then
    some (ks.map (fun k => keyWord (e.frame % 256) k.1 k.2.1 k.2.2.1 k.2.2.2))
  else none

/-- Whether an insert of a non-older epoch must stall: a key it needs is new at a level that is full (R159). -/
def State.mustStall (s : State) (e : Epoch) (keys : List Nat) : Bool :=
  keys.any (fun k => (e.row? k).isNone && !(e.refused.contains k) && !(e.eccLost.contains k) && decide (s.cap (keyLevel k) ≤ s.held (keyLevel k)))

/-- The entry record of a new key (Table 05-4). -/
def entryRecord (key parent sct : Nat) (late : Bool) (idx : Nat) : List Byte :=
  toLe key 8 ++ toLe (parent + 2 ^ 21 * sct + 2 ^ 24 * b2n late) 4 ++ toLe (idx % 2 ^ 21) 4

/-- One level key of an insert, coarsest first so that the parent's row is known: created, found or refused. -/
def State.insertKey (s : State) (f : Nat) (idx : Nat) (key : Nat) (parent : Nat) : Nat × State :=
  match s.epoch? f with
  | none => (noRow, s)
  | some e =>
    match e.row? key with
    | some r => (r, s)
    | none =>
      let l := keyLevel key
      if e.refused.contains key || e.eccLost.contains key then (noRow, s)
      else if s.cap l ≤ s.held l then (noRow, s.modEpoch f (fun e => { e with refused := key :: e.refused }))
      else
        let parity := f % 2
        let row := s.rd (occReg parity l)
        let sct := keySector key
        let late := s.sectClosed parity sct || s.sectReopened parity sct
        let s := s.put (occReg parity l) (row + 1)
        let s := s.modEpoch f (fun e => { e with dir := (key, row) :: e.dir })
        let off := 16 * ((List.range l).foldl (fun a k => a + s.cap k) 0 + row)
        let base := regN64 e.conf (Reg.dreyEtBase parity) / 64 * 64
        let (_, s) := s.engWrite (e.isUnset (Reg.dreyEtBase parity) 2) (base + off) (entryRecord key parent sct late idx) (some f)
        (row, if s.sectClosed parity sct then s.reopen f sct else s)

/-- The keys of a point inserted, coarsest first: the row of each level, finest first. -/
def State.insertKeys (s : State) (f idx : Nat) : List Nat → List Nat × State
  | [] => ([], s)
  | k :: coarser =>
    let (rows, s) := s.insertKeys f idx coarser
    let (r, s) := s.insertKey f idx k (rows.headD noRow)
    (r :: rows, s)

/-- The finest level of a point's keys that was refused, if any (R168). -/
def Epoch.finestRefused (e : Epoch) (keys : List Nat) : Option Nat :=
  (keys.find? (fun k => e.refused.contains k)).map keyLevel

/-- The point-map word (Table 05-3) written at a point's index (R165). -/
def State.writePm (s : State) (f : Nat) (pt : PtInfo) : State :=
  match s.epoch? f with
  | none => s
  | some e =>
    let base := regN64 e.conf (Reg.dreyPmBase (f % 2)) / 64 * 64
    let w := pt.row0 + 2 ^ 29 * b2n pt.late + 2 ^ 30 * b2n pt.unres
    (s.engWrite (e.isUnset (Reg.dreyPmBase (f % 2)) 2) (base + 4 * pt.idx) (toLe w 4) (some f)).2

/-- One point record inserted (R164 to R170, R181). -/
def State.insertPoint (s : State) (p : Staged) : State :=
  match s.epoch? p.frame with
  | none => s
  | some e =>
    let f := p.frame
    match e.keysOf p.x p.y p.z with
    | none =>
      let pt : PtInfo := ⟨p.idx, noRow, 8, true, false, []⟩
      let s := s.modEpoch f (fun e => { e with pts := pt :: e.pts, unresolved := e.unresolved + 1 })
      (s.count Cnt.dreyCntRange).writePm f pt
    | some keys =>
      let k0 := keys.headD 0
      let sct := keySector k0
      let late := s.sectClosed (f % 2) sct || s.sectReopened (f % 2) sct
      let (rows, s) := s.insertKeys f p.idx keys
      let ref := ((s.epoch? f).getD e).finestRefused keys
      let unres := ref.isSome || bitN e.kmBad sct || keys.any e.eccLost.contains
      let pt : PtInfo := ⟨p.idx, rows.headD noRow, sct, unres, late, keys⟩
      let s := s.modEpoch f (fun e => { e with
        pts := pt :: e.pts, unresolved := e.unresolved + b2n unres, gridSat := e.gridSat || ref.isSome
        refuse := match ref with
          | some l => Vector.ofFn (fun i : Fin 4 => e.refuse[i] + (if i.val = l then 1 else 0))
          | none => e.refuse })
      let s := match ref with
        | some l => if e.rein = Rein.rerun then s else s.count (Cnt.dreyCntRefuse l)
        | none => s
      (s.count64 Reg.dreyCntIns).writePm f pt

/-- Whether the older epoch is inserting: in its late-arrival window or in its rerun (R160). -/
def Epoch.inserting (e : Epoch) : Bool := (e.closed && !e.lateDone) || (e.rein == .rerun && !e.promoted)

/-- Whether a frame number is `g` or one of the frames after it. -/
def frameFrom (g f : Nat) : Bool := decide ((f + 2 ^ 32 - g) % 2 ^ 32 < 2 ^ 31)

/-- Whether the inserts of a frame wait for a split that is not in force yet (R161). -/
def State.splitWaits (s : State) (f : Nat) : Bool := s.drey.wantSplit.any (fun w => frameFrom w.1 f)

/-- The staged point Drey takes next (Table 05-2, R160, R161): the older epoch's first; none while it must wait. -/
def State.nextStaged (s : State) : Option Staged :=
  let of := fun (e : Epoch) => if s.splitWaits e.frame then none else s.drey.staged.find? (fun p => p.frame == e.frame)
  match s.frm.live with
  | [] => none
  | [a] => of a
  | a :: b :: _ =>
    match of a with
    | some p => some p
    | none => if a.inserting then none else of b

/-- Whether the insert of a staged point stalls for capacity (R159): it is of the newer epoch, or of one whose predecessor's retirement
scan has not finished, and either a key it needs is new at a full level or the frame's inserts have met such a level since. -/
def State.capWaits (s : State) (e : Epoch) (p : Staged) : Bool :=
  let newer := s.frm.live.head?.map (·.frame) ≠ some p.frame
  (newer || s.drey.scanning.isSome) && (s.drey.capStall == some p.frame ||
    (match e.keysOf p.x p.y p.z with | some ks => s.mustStall e ks | none => false))

/-- Whether Drey holds back the points of a frame (R129, R159 to R161): one is staged and cannot be inserted now. -/
def State.dreyHolds (s : State) (f : Nat) : Bool :=
  match s.drey.staged.find? (fun p => p.frame == f), s.epoch? f with
  | some p, some e =>
    !(s.bit Reg.dreyCtrl 0) || s.splitWaits f || s.capWaits e p
      || (match s.frm.live.head? with | some a => a.frame != f && a.inserting | none => false)
  | _, _ => false

/-- DREY_INSERT: the next point record, unless Drey is disabled or must stall (R159). A stall of the staged points is backpressure
and counts. -/
def State.dreyInsertOne (s : State) : State :=
  if ¬ s.bit Reg.dreyCtrl 0 then s else
  match s.nextStaged with
  | none => if s.drey.staged.isEmpty then s else s.count64 Reg.dreyCntStall
  | some p =>
    match s.epoch? p.frame with
    | none => s
    | some e =>
      if s.capWaits e p then
        let s := { s with drey := { s.drey with capStall := some p.frame } }
        (s.count64 Reg.dreyCntCapwait).count64 Reg.dreyCntStall
      else
        let s := { s with drey := { s.drey with staged := s.drey.staged.erase p } }
        s.insertPoint p

/-! ### Sectors (R178) -/

/-- A sector closed; a reopened one closes again. -/
def State.closeSector (s : State) (parity sct : Nat) : State :=
  (s.putB Reg.dreySectState (16 * parity + sct) true).putB Reg.dreySectState (16 * parity + 8 + sct) false

/-- Every sector of a parity closed. -/
def State.closeAllSectors (s : State) (parity : Nat) : State :=
  (List.range 8).foldl (fun s k => s.closeSector parity k) s

/-! ### Kernel maps (R172 to R179) -/

/-- A kernel descriptor (DREY_KD): type, levels, extent. -/
structure KDesc where
  strided : Bool
  lin : Nat
  lout : Nat
  ext : Nat
  deriving DecidableEq, Repr

/-- Descriptor `d` of an epoch, none where it is off, reserved, contradicts its type or names a disabled level (R172,
R173). -/
def Epoch.kdesc (e : Epoch) (d : Nat) : Option KDesc :=
  let w := regN e.conf (Reg.dreyKd d)
  let ty := bitsN w 1 0; let li := bitsN w 3 2; let lo := bitsN w 5 4; let x := bitsN w 7 6
  if ty = 1 ∧ li = lo ∧ li < e.levels ∧ x ≤ 2 then some ⟨false, li, lo, 2 * x + 1⟩
  else if ty = 2 ∧ lo = li + 1 ∧ lo < e.levels then some ⟨true, li, lo, 2⟩
  else none

/-- Whether a descriptor is on but ignored (R173). -/
def Epoch.kdIgnored (e : Epoch) (d : Nat) : Bool := bitsN (regN e.conf (Reg.dreyKd d)) 1 0 != 0 && (e.kdesc d).isNone

/-- The descriptors that are in use, as a mask. -/
def Epoch.kdMask (e : Epoch) : Nat := (List.range 16).foldl (fun m d => if (e.kdesc d).isSome then m + 2 ^ d else m) 0

/-- Insertion of a pair in the order of R175: output row, then input row. -/
def pairIns (x : Nat × Nat) : List (Nat × Nat) → List (Nat × Nat)
  | [] => [x]
  | y :: r => if x.2 < y.2 ∨ (x.2 = y.2 ∧ x.1 ≤ y.1) then x :: y :: r else y :: pairIns x r

/-- The pairs (input row, output row) of one offset whose output row lies in the sector, sorted (R172, R175). -/
def Epoch.pairs (e : Epoch) (kd : KDesc) (sct k : Nat) : List (Nat × Nat) :=
  let l := if kd.strided then
      e.dir.filterMap (fun x =>
        if keyLevel x.1 = kd.lin then
          let ix := keyIx x.1 0; let iy := keyIx x.1 1; let iz := keyIx x.1 2
          let pk := keyWord (e.frame % 256) kd.lout (ix / 2) (iy / 2) (iz / 2)
          match e.row? pk with
          | some b =>
            if keySector pk = sct ∧ 4 * (iz % 2) + 2 * (iy % 2) + ix % 2 = (k : Int) then some (x.2, b) else none
          | none => none
        else none)
    else
      let h : Int := (kd.ext / 2 : Nat)
      let dz : Int := ((k / (kd.ext * kd.ext) : Nat) : Int) - h
      let dy : Int := ((k / kd.ext % kd.ext : Nat) : Int) - h
      let dx : Int := ((k % kd.ext : Nat) : Int) - h
      e.dir.filterMap (fun x =>
        if keyLevel x.1 = kd.lout ∧ keySector x.1 = sct then
          let jx := keyIx x.1 0 + dx; let jy := keyIx x.1 1 + dy; let jz := keyIx x.1 2 + dz
          if ixFits jx && ixFits jy && ixFits jz then
            (e.row? (keyWord (e.frame % 256) kd.lin jx jy jz)).map (fun a => (a, x.2))
          else none
        else none)
  l.foldl (fun acc x => pairIns x acc) []

/-- Offsets of a descriptor. -/
def KDesc.offsets (kd : KDesc) : Nat := if kd.strided then 8 else kd.ext * kd.ext * kd.ext

/-- Pairs written from pair index `i` on; whether every write was performed. -/
def State.writePairs (s : State) (f base : Nat) (unset : Bool) : Nat → List (Nat × Nat) → Bool × State
  | _, [] => (true, s)
  | i, (a, b) :: r =>
    let (ok, s) := s.engWrite unset (base + 8 * i) (toLe (a + 2 ^ 32 * b) 8) (some f)
    let (ok', s) := s.writePairs f base unset (i + 1) r
    (ok && ok', s)

/-- A list of a sector that is incomplete, for want of room or because a pair or its header was lost (R177, R659): counted, and the
frame is grid-saturated. -/
def State.listIncomplete (s : State) (f sct : Nat) : State :=
  (s.count Cnt.dreyCntKmfull).modEpoch f (fun e => { e with incomplete := e.incomplete + 1, gridSat := true, kmBad := e.kmBad ||| 2 ^ sct })

/-- One list of a descriptor, sector and offset written with its header (R174 to R177). `full`: an earlier list of the
descriptor and sector did not fit. Answers whether this one did not fit. -/
def State.writeList (s : State) (f d sct k : Nat) (kd : KDesc) (full : Bool) : Bool × State :=
  match s.epoch? f with
  | none => (full, s)
  | some e =>
    let parity := f % 2
    let base := regN64 e.conf (Reg.dreyKmBase parity) / 65536 * 65536
    let unset := e.isUnset (Reg.dreyKmBase parity) 2
    let words := regN64 e.conf Reg.dreyKmSize / 65536 * 65536 / 8
    let ps := e.pairs kd sct k
    let centre := !kd.strided && k == kd.offsets / 2
    let hdr := fun (s : State) (first count : Nat) (ident inc : Bool) =>
      s.engWrite unset (base + 8 * ((8 * d + sct) * 128 + k))
        (toLe (first % 2 ^ 32 + 2 ^ 32 * (count % 2 ^ 24) + 2 ^ 62 * b2n ident + 2 ^ 63 * b2n inc) 8) (some f)
    if centre ∨ ps.isEmpty then
      let (fv, s) := s.freeBits 32
      let (ok, s) := hdr s fv ps.length centre false
      (full, if ok then s else s.listIncomplete f sct)
    else
      let room := if full then 0 else words - e.kmNext
      let now := ps.take room
      let inc := decide (room < ps.length)
      let first := e.kmNext
      let (ok, s) := s.writePairs f base unset first now
      let s := s.modEpoch f (fun e => { e with kmNext := e.kmNext + now.length })
      let s := s.count64 Reg.dreyCntPairs now.length
      let (okh, s) := hdr s first now.length false (inc || !ok)
      (full || inc, if inc || !ok || !okh then s.listIncomplete f sct else s)

/-- The inserted points of a frame that satisfy `hit` become unresolved, and their point-map words say so (R171, R177). -/
def State.unresolve (s : State) (f : Nat) (hit : PtInfo → Bool) : State :=
  match s.epoch? f with
  | none => s
  | some e =>
    let ps := e.pts.filter (fun p => hit p && !p.unres)
    let s := s.modEpoch f (fun e => { e with
      pts := e.pts.map (fun p => if hit p then { p with unres := true } else p), unresolved := e.unresolved + ps.length })
    ps.foldl (fun (s : State) p => s.writePm f { p with unres := true }) s

/-- Every list of a sector written. -/
def State.writeSector (s : State) (f sct : Nat) : State :=
  match s.epoch? f with
  | none => s
  | some e =>
    let before := bitN e.kmBad sct
    let s := (List.range 16).foldl (fun s d =>
      match e.kdesc d with
      | none => s
      | some kd => ((List.range kd.offsets).foldl (fun (x : Bool × State) k => x.2.writeList f d sct k kd x.1) (false, s)).2) s
    match s.epoch? f with
    | some e' => if bitN e'.kmBad sct && !before then s.unresolve f (fun p => p.sector == sct) else s
    | none => s

/-! ### Epochs at Drey: opening, rein-back, retirement -/

/-- An epoch's Drey state cleared: occupancy registers, sector states, ready bits. -/
def State.clearDreyRegs (s : State) (parity : Nat) : State :=
  let s := (List.range 4).foldl (fun s l => s.put (occReg parity l) 0) s
  let s := (List.range 4).foldl (fun s k => s.put (if parity = 0 then Reg.dreyKmReady0 k else Reg.dreyKmReady1 k) 0) s
  s.putF Reg.dreySectState (16 * parity + 15) (16 * parity) 0

/-- Step 4 of a rein-back (R184). -/
def State.dreyInvalidate (s : State) (f : Nat) : State :=
  let s := s.clearDreyRegs (f % 2)
  let s := { s with drey := { s.drey with capStall := s.drey.capStall.filter (· ≠ f) } }
  s.modEpoch f (fun e => { e with dir := [], refused := [], eccLost := [], pts := [], refuse := Vector.replicate 4 0, unresolved := 0
                                  incomplete := 0, reopens := 0, gridSat := false, kmBusy := 0, kmNext := 16384, kmBad := 0 })

/-- Retirement at Drey (R186): the epoch's entries stay held until the background scan ends. -/
def State.dreyRetire (s : State) (f : Nat) : State :=
  let occ := Vector.ofFn (fun i : Fin 4 => s.rd (occReg (f % 2) i.val) + (match s.drey.scanning with | some v => v[i] | none => 0))
  let s := s.clearDreyRegs (f % 2)
  { s with drey := { s.drey with scanning := some occ, staged := s.drey.staged.filter (fun p => p.frame ≠ f) } }

/-- A lookup (R182, R183): the row of a key word under the epoch tag it carries, 0x1F_FFFF where absent; a tag that is not
live is counted. -/
def State.dreyLook (s : State) (key : Nat) : Nat × State :=
  match s.frm.live.find? (fun e => e.frame % 256 == key / 2 ^ 56 % 256) with
  | none => (noRow, s.count Cnt.dreyCntLkstale)
  | some e => ((e.row? key).getD noRow, s)

end Sys2Proof.Machine
end

