-- ==== Sys2Proof/Machine/Copy.lean ====
section
/-! DEFINITION. The copy engine (R444 to R446) and the start and discard of an export. -/

namespace Sys2Proof.Machine

/-- A ring size is a power of two from 16 to 4,096 (Table 13-8). -/
def ringSize (n : Nat) : Bool := [16, 32, 64, 128, 256, 512, 1024, 2048, 4096].contains n

/-- Descriptors between TAIL and HEAD of a channel (R460). -/
def State.cpyWaiting (s : State) (c : Nat) : Nat :=
  let n := s.rd (Reg.hrdCpySize c)
  if n = 0 then 0 else (s.fld (Reg.hrdCpyHead c) 12 0 + 2 * n - s.fld (Reg.hrdCpyTail c) 12 0 % (2 * n)) % (2 * n)

/-- A copy descriptor, Table 13-4. -/
structure CpyDesc where
  src : Nat
  dst : Nat
  len : Nat
  flags : Nat
  cpl : Nat
  deriving DecidableEq, Repr

/-- The address of the descriptor `k` places past a channel's TAIL. -/
def State.cpySlot (s : State) (c k : Nat) : Nat :=
  let n := s.rd (Reg.hrdCpySize c)
  s.rd64 (Reg.hrdCpyBase c) / 64 * 64 + 32 * ((s.fld (Reg.hrdCpyTail c) 12 0 + k) % n)

/-- The descriptor `k` places past a channel's TAIL; none where it cannot be read (R419, R660). -/
def State.cpyDesc (s : State) (c k : Nat) : Option CpyDesc :=
  if s.rd (Reg.hrdCpySize c) = 0 ∨ s.isUnset (Reg.hrdCpyBase c) 2 ∨ ¬ s.engOk (s.cpySlot c k) 32 then none
  else
    let b := s.engBytes (s.cpySlot c k) 32
    some ⟨leAt b 0 8, leAt b 8 8, leAt b 16 4, leAt b 20 4, leAt b 24 8⟩

/-- What the read of a descriptor meets, counted (R424, R429); one that cannot be read is a descriptor error (R419). -/
def State.cpyFetch (s : State) (c k : Nat) : State :=
  let s := match s.whereIs (s.cpySlot c k) with
    | .here l => if s.rd (Reg.hrdCpySize c) ≠ 0 ∧ ¬ s.isUnset (Reg.hrdCpyBase c) 2 ∧ s.memRange l 32 then s.readMeets l 32 else s
    | _ => s
  if (s.cpyDesc c k).isNone then s.orReg (Reg.hrdCpyErr c) 1 else s

/-- The busy bit of a channel brought up to date: descriptors to run, or on channel 0 an export in flight; channel 0 is
owned by the tile scheduler (Table 13-8). -/
def State.cpyBusy (s : State) (c : Fin 4) : State :=
  let busy := if c.val = 0 then !s.copy[c].fill.isEmpty else decide (s.cpyWaiting c.val ≠ 0)
  (s.putB (Reg.hrdCpyStat c) 0 busy).putB (Reg.hrdCpyStat c) 1 (decide (c.val = 0))

/-- Where a side of a transfer lies: memory of this package, PCI Express at a bus address, another member of the hitch, or
nowhere the engine may reach (R418, R444, Table 13-1). -/
inductive CpySide where
  | memory (a : Nat)
  | bus (a : Nat)
  | member (n a : Nat)
  | none_
  deriving DecidableEq, Repr

/-- A side of a transfer of `n` bytes: `pcie` is its bit of FLAGS; an address in the outbound window names PCI Express too. -/
def State.cpySide (s : State) (pcie : Bool) (a n : Nat) : CpySide :=
  if pcie then .bus a
  else
    let m := a / 2 ^ 42
    let l := a % 2 ^ 42
    if m = s.ownPkg then
      (if s.memRange l n then .memory l
       else if s.area l = .pcie ∧ s.area (l + n - 1) = .pcie then .bus (l - 0x100000000)
       else .none_)
    else if m < 4 ∧ s.bit Reg.sciHitchStat (4 + m) ∧ remoteMay l n then .member m l
    else .none_

/-- Whether a side lies on PCI Express. -/
def CpySide.onBus : CpySide → Bool
  | .bus _ => true
  | _ => false

/-- The bytes of a transfer with those of bad source lines zero. -/
def maskBad (src : Nat) (bad : List Nat) (bs : List Byte) : List Byte :=
  bs.mapIdx (fun i b => if bad.contains ((src + i) / 64) then 0 else b)

/-- `n` bytes of a transfer's source from offset `o`, each with whether it lies in a bad line (R425): zeros there. `data` is what a
PCI Express source supplied; a member's bytes are those its answers brought. -/
def State.cpySource (s : State) (st : CopySt) (x : CpySide) (o n : Nat) (data : List Byte) : List (Byte × Bool) × State :=
  match x with
  | .memory a =>
    let lines := (s.mem.badIn ((a + o) / 64 * 64) ((a + o + n + 63) / 64 * 64 - (a + o) / 64 * 64)).map (fun w => w.1 / 64)
    ((List.range n).map (fun i => if lines.contains ((a + o + i) / 64) then (0, true) else (s.mem.byte (a + o + i), false)),
      s.readMeets (a + o) n)
  | .member _ a =>
    ((List.range n).map (fun i => if st.poison.contains ((a + o + i) / 8) then (0, true)
      else (spGet (fun _ => (0 : Byte)) st.buf (a + o + i), false)), s)
  | _ => ((List.range n).map (fun i => ((data[o + i]?).getD 0, false)), s)

/-- A block written at offset `o` of the destination (R425): bad bytes leave poison where the destination has ECC, zeros elsewhere; on
PCI Express they set EP in the block's write TLP. The TAGs of writes to another member. -/
def State.cpyWrite (s : State) (x : CpySide) (o : Nat) (bs : List (Byte × Bool)) : List Nat × State :=
  match x with
  | .none_ => ([], s)
  | .bus a => ([], { s with pcie := { s.pcie with sent := s.pcie.sent ++ [.write (a + o) (bs.map (·.1)) (bs.any (·.2))] } })
  | .member m a => s.sendMember m (a + o) bs
  | .memory a =>
    ([], (s.memWrite (a + o) (bs.map (·.1))).putPoison (bs.zipIdx.filterMap (fun x => if x.1.2 then some (a + o + x.2) else none)))

/-- The completion word and message of a descriptor (R444). -/
def State.cpyComplete (s : State) (d : CpyDesc) (err : Bool) : State :=
  let word := toLe (1 + 2 * b2n err) 8
  let s := if d.cpl = 0 then s
    else match s.whereIs (d.cpl / 8 * 8) with
      | .here a => if s.memRange a 8 then s.memWrite a word else s
      | .member m a => if remoteMay a 8 then (s.sendMember m a (word.map (fun b => (b, false)))).2 else s
      | .nowhere => s
  if bitN d.flags 2 then { s with pcie := { s.pcie with sent := s.pcie.sent ++ [.msix (bitsN d.flags 8 3)] } } else s

/-- TAIL moves on by one, counting modulo twice the ring size (R460). -/
def State.cpyAdvance (s : State) (c : Fin 4) (k : Nat) : State :=
  let n := s.rd (Reg.hrdCpySize c)
  let t := if n = 0 then 0 else (s.fld (Reg.hrdCpyTail c) 12 0 + k) % (2 * n)
  s.put (Reg.hrdCpyTail c) t

/-- A channel's record changed. -/
def State.modCopy (s : State) (c : Fin 4) (f : CopySt → CopySt) : State := { s with copy := s.copy.set c (f s.copy[c]) }

/-- A descriptor's progress forgotten. -/
def CopySt.clear (st : CopySt) : CopySt := { st with moved := 0, err := 0, begun := false, reads := [], buf := [], poison := [], awaits := [] }

/-- A transfer a channel may run: its descriptor, with the source and length the tile scheduler filled in (R446), and its sides. -/
structure CpyJob where
  d : CpyDesc
  src : CpySide
  dst : CpySide
  /-- An export's stream of length 0 sends nothing. -/
  skip : Bool
  deriving DecidableEq, Repr

/-- The transfer at a channel's TAIL; none where there is none or its descriptor cannot be read. -/
def State.cpyJob (s : State) (c : Fin 4) : Option CpyJob :=
  if s.cpyWaiting c.val = 0 ∨ (c.val = 0 ∧ s.copy[c].fill.isEmpty) then none
  else match s.cpyDesc c.val 0 with
    | none => none
    | some d0 =>
      let d := match s.copy[c].fill.head? with | some (b, n) => { d0 with src := b, len := n } | none => d0
      some ⟨d, s.cpySide (bitN d.flags 0) d.src d.len, s.cpySide (bitN d.flags 1) d.dst d.len, !s.copy[c].fill.isEmpty && decide (d.len = 0)⟩

/-- Whether a transfer is in error before a byte moves (R444). -/
def State.cpyBad (s : State) (j : CpyJob) : Bool :=
  let cpl := match s.whereIs (j.d.cpl / 8 * 8) with
    | .here a => s.memRange a 8
    | .member _ a => remoteMay a 8
    | .nowhere => false
  decide (j.d.len = 0 ∨ 67108864 < j.d.len) || decide (bitsN j.d.flags 31 10 ≠ 0) || j.src == .none_ || j.dst == .none_
    || decide (j.d.cpl ≠ 0) && !cpl

/-- The reads that fetch a member's bytes: 256-byte blocks where they are aligned, else 8-byte units (R418). -/
def State.cpyAsk (s : State) (c : Fin 4) (m a stop : Nat) : Nat → State
  | 0 => s
  | k + 1 =>
    if stop ≤ a then s
    else
      let n := if a % 256 = 0 ∧ a + 256 ≤ stop then 256 else 8
      let (tag, s) := s.sciRead m a (if n = 256 then 8 else 3)
      (s.modCopy c (fun st => { st with reads := st.reads ++ [(tag, a, n)] })).cpyAsk c m (a + n) stop k

/-- An answer to a read of the copy engine: its bytes, poisoned ones in their 8-byte units; any other status is the error of a
reserved address (R419, R444). -/
def CopySt.answer (st : CopySt) (tag status : Nat) (data : List Byte) : CopySt :=
  match st.reads.find? (fun r => r.1 == tag) with
  | none => st
  | some (_, a, n) =>
    { st with
      reads := st.reads.filter (fun r => r.1 != tag)
      err := if status = 0 then st.err else if status = 1 then st.err ||| 2 else st.err ||| 1
      poison := if status = 1 then (List.range (n / 8)).map (a / 8 + ·) ++ st.poison else st.poison
      buf := data.zipIdx.foldl (fun m x => spSet (fun _ => (0 : Byte)) m (a + x.2) x.1) st.buf }

/-- Whether a channel has a block to move now: a PCI Express source moves only under its own command, which brings its data. -/
def State.cpyReady (s : State) (own c : Fin 4) : Bool :=
  match s.cpyJob c with
  | none => false
  | some j =>
    let st : CopySt := s.copy[c]
    !j.skip && !(s.cpyBad j) && decide (st.moved < j.d.len) && st.reads.isEmpty && decide (st.err % 2 = 0)
      && (match j.src with | .bus _ => own == c | .member _ _ => st.begun | _ => true)

/-- One block of up to 256 bytes of a channel moved (R445). -/
def State.cpyBlock (s : State) (c : Fin 4) (data : List Byte) : State :=
  match s.cpyJob c with
  | none => s
  | some j =>
    let st : CopySt := s.copy[c]
    let n := min 256 (j.d.len - st.moved)
    let (bs, s) := s.cpySource st j.src st.moved n data
    let (tags, s) := s.cpyWrite j.dst st.moved bs
    s.modCopy c (fun st => { st with moved := st.moved + n, err := if bs.any (·.2) then st.err ||| 2 else st.err, awaits := st.awaits ++ tags })

/-- Blocks moved in turn, one channel after the other, until channel `c` has moved its last (R445), with fuel. -/
def State.cpyBlocks (s : State) (c : Fin 4) (data : List Byte) : Nat → State
  | 0 => s
  | k + 1 =>
    if !(s.cpyReady c c) then s
    else
      let turn := ((List.range 4).map (fun i => Fin.ofNat 4 (s.ddr.copyTurn + i))).find? (s.cpyReady c)
      match turn with
      | none => s
      | some x => State.cpyBlocks { s.cpyBlock x data with ddr := { s.ddr with copyTurn := (x.val + 1) % 4 } } c data k

/-- A channel's descriptor ends: its error bits, its completion word (R444), and TAIL moves on. -/
def State.cpyEnd (s : State) (c : Fin 4) (j : CpyJob) (err : Nat) : State :=
  let s := s.orReg (Reg.hrdCpyErr c) err
  let s := (if err % 2 = 0 ∧ err / 4 = 0 ∧ ¬ j.skip then s.count64 (Reg.hrdCpyCntBytes c) j.d.len else s).cpyComplete j.d (err != 0)
  let s := s.modCopy c (fun st => { st.clear with fill := st.fill.drop 1, writes := st.writes + 1
                                                  expFrame := if st.fill.length ≤ 1 then none else st.expFrame })
  (s.cpyAdvance c 1).cpyBusy c

/-- The descriptor at a channel's TAIL runs (R444): reads of another member go out first, its blocks move in turn with the other
channels', and it ends once every byte has been performed, writes to another member by their acknowledgements (R514). -/
def State.cpyRun (s : State) (c : Fin 4) (data : List Byte) (pcieErr : Bool) : State :=
  let s := if s.copy[c].moved = 0 ∧ ¬ s.copy[c].begun then s.cpyFetch c 0 else s
  match s.cpyJob c with
  | none => ((s.modCopy c (fun st => { st.clear with fill := st.fill.drop 1 })).cpyAdvance c 1).cpyBusy c
  | some j =>
    if j.skip then s.cpyEnd c j 0
    else if s.cpyBad j then s.cpyEnd c j 1
    else if pcieErr && (j.src.onBus || j.dst.onBus) then s.cpyEnd c j 4
    else
      let s : State := match j.src with
        | .member m a =>
          if s.copy[c].begun then s
          else (s.modCopy c (fun st => { st with begun := true })).cpyAsk c m (a / 8 * 8) (a + j.d.len) (j.d.len / 8 + 2)
        | _ => s
      let s : State := s.cpyBlocks c data (4 * 262144 + 4)
      let st : CopySt := s.copy[c]
      if st.err % 2 = 1 ∧ st.reads.isEmpty then s.cpyEnd c j 1
      else if st.moved < j.d.len ∨ ¬ st.awaits.isEmpty then s.cpyBusy c
      else s.cpyEnd c j st.err

/-- The undelivered part of the previous export is discarded when another frame commits (R65): whether there was any. -/
def State.dropExport (s : State) : Bool × State :=
  let c := s.copy[0]
  if c.fill.isEmpty then (false, s)
  else
    let s := s.modCopy 0 (fun st => { st.clear with fill := [], expFrame := none })
    (true, ((s.cpyAdvance 0 c.fill.length).count (Cnt.hrdCpyCntDrop 0)).cpyBusy 0)

/-- The export of a committing frame (R446): started, or discarded whole and counted; whether it was discarded. -/
def State.startExport (s : State) (e : Epoch) : Bool × State :=
  let drop := fun (s : State) => (true, s.count (Cnt.hrdCpyCntDrop 0))
  match s.progOf e with
  | none => drop s
  | some p =>
    match s.engRead false (if e.frame % 2 = 0 then p.exp0 else p.exp1) 32 (some e.frame) with
    | (.bad, s) => drop s
    | (.data b, s) =>
      if s.cpyWaiting 0 < 2 ∨ leAt b 0 4 ≠ e.frame then drop s
      else
        let s := (s.cpyFetch 0 0).cpyFetch 0 1
        match s.cpyDesc 0 0, s.cpyDesc 0 1 with
        | some a, some c =>
          let ll := leAt b 16 4
          let ol := leAt b 20 4
          if a.len < ll ∨ c.len < ol then drop s
          else
            (false, (s.modCopy 0 (fun st => { st with fill := [(leAt b 8 8, ll), (leAt b 24 8, ol)], expFrame := some e.frame })).cpyBusy 0)
        | _, _ => drop s

end Sys2Proof.Machine
end

