-- ==== Sys2Proof/Machine/Geom.lean ====
section
/-! DEFINITION. The geometry of stages 2 to 4: exact rationals, and intervals of rationals where a sine, cosine or square root comes in.
A result is used only where its interval settles the rounding the spec asks for; where it does not, the result is a
free value (log 11). -/

namespace Sys2Proof.Machine

/-! ### Intervals of rationals -/

/-- The interval of one exact rational. -/
def ivOf (r : Rat) : Iv := ⟨r, r⟩
/-- Sum. -/
def Iv.add (a b : Iv) : Iv := ⟨a.lo + b.lo, a.hi + b.hi⟩
/-- Negation. -/
def Iv.neg (a : Iv) : Iv := ⟨-a.hi, -a.lo⟩
/-- Difference. -/
def Iv.sub (a b : Iv) : Iv := a.add b.neg
/-- The smaller of two rationals. -/
def ratMin (a b : Rat) : Rat := if a ≤ b then a else b
/-- The larger of two rationals. -/
def ratMax (a b : Rat) : Rat := if a ≤ b then b else a
/-- Product. -/
def Iv.mul (a b : Iv) : Iv :=
  let p := a.lo * b.lo; let q := a.lo * b.hi; let r := a.hi * b.lo; let t := a.hi * b.hi
  ⟨ratMin (ratMin p q) (ratMin r t), ratMax (ratMax p q) (ratMax r t)⟩
/-- Reciprocal of an interval above 0. -/
def Iv.inv (a : Iv) : Iv := ⟨a.hi⁻¹, a.lo⁻¹⟩
/-- Product with an exact rational. -/
def Iv.scale (a : Iv) (k : Rat) : Iv := a.mul (ivOf k)

/-- Nearest integer, ties to even (R137). -/
def roundEven (r : Rat) : Int :=
  let f := r.floor
  let d := r - f
  if d < 1 / 2 then f else if 1 / 2 < d then f + 1 else if f % 2 = 0 then f else f + 1

/-- The integer an interval's value rounds to, where that is settled. -/
def Iv.round (a : Iv) : Option Int := if roundEven a.lo = roundEven a.hi then some (roundEven a.lo) else none

/-- Fixed-point one of the sine series. -/
def fxOne : Int := 2 ^ 140
/-- π to 60 decimals. -/
def piRat : Rat := 3141592653589793238462643383279502884197169399375105820974944 / 1000000000000000000000000000000000000000000000000000000000000

/-- The sine series at `x` (fixed point), `n` more terms from `term` of order `k`. -/
def sinSeries (x2 : Int) : Nat → Nat → Int → Int → Int
  | 0, _, _, acc => acc
  | n + 1, k, term, acc =>
    let t := -(term * x2 / fxOne) / ((k + 1 : Nat) * (k + 2 : Nat) : Int)
    sinSeries x2 n (k + 2) t (acc + t)

/-- The sine of an angle of 0 to 90 degrees: exact at 0, 30 and 90, within 2^-100 elsewhere. -/
def sinFirst (d : Rat) : Iv :=
  if d = 0 then ivOf 0 else if d = 30 then ivOf (1 / 2) else if d = 90 then ivOf 1 else
  let x := (d * piRat / 180 * fxOne).floor
  let y := sinSeries (x * x / fxOne) 24 1 x x
  ⟨((y - 2 ^ 36 : Int) : Rat) / (fxOne : Rat), ((y + 2 ^ 36 : Int) : Rat) / (fxOne : Rat)⟩

/-- The sine of an angle in degrees. -/
def sinDeg (d : Rat) : Iv :=
  let r := d - 360 * (d / 360).floor
  if r ≤ 90 then sinFirst r
  else if r ≤ 180 then sinFirst (180 - r)
  else if r ≤ 270 then (sinFirst (r - 180)).neg
  else (sinFirst (360 - r)).neg

/-- The cosine of an angle in degrees. -/
def cosDeg (d : Rat) : Iv := sinDeg (d + 90)

/-- The nearest integer to the square root of a rational not below 0, ties to even: decided exactly on the squares. -/
def roundSqrt (r : Rat) : Nat :=
  let k := r.floor.toNat.sqrt
  let h : Rat := (k : Rat) + 1 / 2
  if h * h < r then k + 1 else if r < h * h then k else if k % 2 = 0 then k else k + 1

/-- The square root of a rational not below 0. -/
def sqrtIv (r : Rat) : Iv :=
  let n := r.num.toNat
  if n.sqrt * n.sqrt = n ∧ r.den.sqrt * r.den.sqrt = r.den then ivOf ((n.sqrt : Rat) / (r.den.sqrt : Rat))
  else
    let y := ((r * 2 ^ 240).floor.toNat).sqrt
    ⟨mkRat y (2 ^ 120), mkRat (y + 1) (2 ^ 120)⟩

/-! ### Vectors and rotations -/

/-- An exact vector as intervals. -/
def Vec3.iv (v : Vec3) : IvVec := ⟨ivOf v.x, ivOf v.y, ivOf v.z⟩
/-- An exact quaternion as intervals. -/
def Quat.iv (q : Quat) : IvQuat := ⟨ivOf q.w, ivOf q.x, ivOf q.y, ivOf q.z⟩
/-- Sum of vectors. -/
def IvVec.add (a b : IvVec) : IvVec := ⟨a.x.add b.x, a.y.add b.y, a.z.add b.z⟩
/-- Sum of exact vectors. -/
def Vec3.add (a b : Vec3) : Vec3 := ⟨a.x + b.x, a.y + b.y, a.z + b.z⟩
/-- Difference of exact vectors. -/
def Vec3.sub (a b : Vec3) : Vec3 := ⟨a.x - b.x, a.y - b.y, a.z - b.z⟩
/-- An exact vector times a rational. -/
def Vec3.smul (k : Rat) (a : Vec3) : Vec3 := ⟨k * a.x, k * a.y, k * a.z⟩

/-- Squared norm of a quaternion. -/
def Quat.norm2 (q : Quat) : Rat := q.w * q.w + q.x * q.x + q.y * q.y + q.z * q.z
/-- Conjugate: the inverse rotation. -/
def Quat.conj (q : Quat) : Quat := ⟨q.w, -q.x, -q.y, -q.z⟩
/-- Product of quaternions. -/
def Quat.mul (a b : Quat) : Quat :=
  ⟨a.w * b.w - a.x * b.x - a.y * b.y - a.z * b.z, a.w * b.x + a.x * b.w + a.y * b.z - a.z * b.y,
   a.w * b.y - a.x * b.z + a.y * b.w + a.z * b.x, a.w * b.z + a.x * b.y - a.y * b.x + a.z * b.w⟩
/-- Dot product. -/
def Quat.dot (a b : Quat) : Rat := a.w * b.w + a.x * b.x + a.y * b.y + a.z * b.z

/-- Squared norm of a quaternion of intervals. -/
def IvQuat.norm2 (q : IvQuat) : Iv := (((q.w.mul q.w).add (q.x.mul q.x)).add (q.y.mul q.y)).add (q.z.mul q.z)
/-- A quaternion that is no rotation: its norm is 0, or cannot be told from 0 (log 81). -/
def IvQuat.noRotation (q : IvQuat) : Bool := decide (q.norm2.lo ≤ 0)
/-- Conjugate. -/
def IvQuat.conj (q : IvQuat) : IvQuat := ⟨q.w, q.x.neg, q.y.neg, q.z.neg⟩
/-- Product of quaternions of intervals. -/
def IvQuat.mul (a b : IvQuat) : IvQuat :=
  ⟨(((a.w.mul b.w).sub (a.x.mul b.x)).sub (a.y.mul b.y)).sub (a.z.mul b.z),
   (((a.w.mul b.x).add (a.x.mul b.w)).add (a.y.mul b.z)).sub (a.z.mul b.y),
   (((a.w.mul b.y).sub (a.x.mul b.z)).add (a.y.mul b.w)).add (a.z.mul b.x),
   (((a.w.mul b.z).add (a.x.mul b.y)).sub (a.y.mul b.x)).add (a.z.mul b.w)⟩
/-- Difference of vectors of intervals. -/
def IvVec.sub (a b : IvVec) : IvVec := ⟨a.x.sub b.x, a.y.sub b.y, a.z.sub b.z⟩
/-- A vector of intervals times an exact rational. -/
def IvVec.smul (k : Rat) (a : IvVec) : IvVec := ⟨a.x.scale k, a.y.scale k, a.z.scale k⟩
/-- Squared length of a vector of intervals. -/
def IvVec.norm2 (a : IvVec) : Iv := ((a.x.mul a.x).add (a.y.mul a.y)).add (a.z.mul a.z)
/-- An exact motion as intervals. -/
def Motion.iv (m : Motion) : IvMotion := ⟨m.t.iv, m.q.iv⟩

/-- A vector of intervals rotated by a quaternion of intervals of norm above 0. -/
def IvQuat.rot (q : IvQuat) (v : IvVec) : IvVec :=
  let ww := q.w.mul q.w; let xx := q.x.mul q.x; let yy := q.y.mul q.y; let zz := q.z.mul q.z
  let ni := (((ww.add xx).add yy).add zz).inv
  let two := fun (i : Iv) => i.scale 2
  let xy := q.x.mul q.y; let xz := q.x.mul q.z; let yz := q.y.mul q.z
  let wx := q.w.mul q.x; let wy := q.w.mul q.y; let wz := q.w.mul q.z
  let row := fun (a b c : Iv) => (((a.mul v.x).add (b.mul v.y)).add (c.mul v.z)).mul ni
  ⟨row (((ww.add xx).sub yy).sub zz) (two (xy.sub wz)) (two (xz.add wy)),
   row (two (xy.add wz)) (((ww.sub xx).add yy).sub zz) (two (yz.sub wx)),
   row (two (xz.sub wy)) (two (yz.add wx)) (((ww.sub xx).sub yy).add zz)⟩

/-- The motion from pose `a` to pose `b`, relative to `a`. -/
def motionFrom (a b : IvMotion) : IvMotion := ⟨a.q.conj.rot (b.t.sub a.t), a.q.conj.mul b.q⟩

/-- Motion `c` composed with the inverse of motion `p` (R132). -/
def correction (c p : IvMotion) : IvMotion :=
  let q := c.q.mul p.q.conj
  ⟨c.t.sub (q.rot p.t), q⟩

/-- The cosine and sine of a rotation's yaw, times its squared norm: the direction the vehicle's x axis turns to in the plane. -/
def IvQuat.yawDir (q : IvQuat) : Iv × Iv :=
  ((((q.w.mul q.w).add (q.x.mul q.x)).sub (q.y.mul q.y)).sub (q.z.mul q.z),
   ((q.w.mul q.z).add (q.x.mul q.y)).scale 2)

/-- Whether a rotation's absolute yaw is at most `tol` thousandths of a degree (R132); none where the enclosure does not settle it,
and where both terms are 0, so that the rotation has no yaw (log 81). -/
def yawWithin (q : IvQuat) (tol : Nat) : Option Bool :=
  let (c, s0) := q.yawDir
  let s : Iv := if 0 ≤ s0.lo then s0 else if s0.hi ≤ 0 then s0.neg else ⟨0, ratMax (-s0.lo) s0.hi⟩
  if 180000 ≤ tol then some true
  else if s.lo = 0 ∧ s.hi = 0 then (if 0 < c.lo then some true else if c.hi < 0 then some false else none)
  else
    let th : Rat := (tol : Rat) / 1000
    let e := ((sinDeg th).mul c).sub ((cosDeg th).mul s)
    if 0 ≤ e.lo then some true else if e.hi < 0 then some false else none

/-- The octant of the direction (c, s), with whether it lies on the octant's lower edge: the yaw's floor in units of 45°,
0 to 7 (R596). -/
def octantOf (c s : Rat) : Nat × Bool :=
  if 0 < c ∧ 0 ≤ s ∧ s < c then (0, decide (s = 0))
  else if 0 < s ∧ 0 < c then (1, decide (s = c))
  else if 0 < s ∧ -c < s then (2, decide (c = 0))
  else if 0 < s ∧ c < 0 then (3, decide (-c = s))
  else if c < 0 ∧ -s < -c then (4, decide (s = 0))
  else if c < 0 ∧ s < 0 then (5, decide (s = c))
  else if s < 0 ∧ c < -s then (6, decide (c = 0))
  else (7, decide (c = -s))

/-- The octant of a direction known as intervals: settled where every corner of the box agrees, since an octant and its edge are
convex. -/
def octantIv (c s : Iv) : Option (Nat × Bool) :=
  let a := octantOf c.lo s.lo
  if octantOf c.lo s.hi = a ∧ octantOf c.hi s.lo = a ∧ octantOf c.hi s.hi = a ∧ ¬ (c.lo = 0 ∧ s.lo = 0 ∧ c.hi = 0 ∧ s.hi = 0)
  then some a else none

/-! ### Poses at a time (R125 to R127) -/

/-- Two poses interpolated, `f` of the way from `a` to `b` (R125). -/
def lerpPose (a b : Motion) (f : Rat) : Motion :=
  let sg : Rat := if a.q.dot b.q < 0 then -1 else 1
  ⟨(a.t.smul (1 - f)).add (b.t.smul f),
   ⟨(1 - f) * a.q.w + f * sg * b.q.w, (1 - f) * a.q.x + f * sg * b.q.x,
    (1 - f) * a.q.y + f * sg * b.q.y, (1 - f) * a.q.z + f * sg * b.q.z⟩⟩

/-- The arctangent series at `r` (fixed point), `n` more terms from `pow` of order `k`. -/
def atanSeries (r2 : Int) : Nat → Nat → Int → Int → Int
  | 0, _, _, acc => acc
  | n + 1, k, pow, acc =>
    let p := -(pow * r2 / fxOne)
    atanSeries r2 n (k + 2) p (acc + p / ((k + 2 : Nat) : Int))

/-- The ratio whose angle is half that of `r` (fixed point). -/
def halfTan (r : Int) : Int :=
  let h : Int := ((fxOne * fxOne + r * r).toNat.sqrt : Nat)
  r * fxOne / (fxOne + h)

/-- The angle in degrees, 0 to 90, of a direction (x, √y2) with neither below 0 and not both 0: within 2^-80. -/
def angleDeg (x y2 : Rat) : Iv :=
  if y2 = 0 then ivOf 0 else if x = 0 then ivOf 90 else
  let up := decide (x * x < y2)
  let r2 : Rat := if up then x * x / y2 else y2 / (x * x)
  let r : Int := ((r2 * (fxOne * fxOne : Int)).floor.toNat.sqrt : Nat)
  let h := halfTan (halfTan (halfTan r))
  let a : Rat := mkRat (8 * atanSeries (h * h / fxOne) 24 1 h h) fxOne.toNat * 180 / piRat
  let d : Rat := if up then 90 - a else a
  ⟨d - 1 / 2 ^ 80, d + 1 / 2 ^ 80⟩

/-- An interval widened by `w`, held within −1 to 1. -/
def Iv.unit (a : Iv) (w : Rat) : Iv := ⟨ratMax (-1) (a.lo - w), ratMin 1 (a.hi + w)⟩

/-- Two poses extrapolated, `f` times the step from `a` to `b` on from `a`, at constant velocity and constant angular velocity
(R126): the turn from `a` to `b`, by the shorter way, scaled by `f` about its own axis. Where either entry is no rotation the
result is none either. -/
def extrapolatePose (a b : Motion) (f : Rat) : IvMotion :=
  let t := ((a.t.smul (1 - f)).add (b.t.smul f)).iv
  let d := a.q.conj.mul b.q
  let sg : Rat := if d.w < 0 then -1 else 1
  let v2 := d.x * d.x + d.y * d.y + d.z * d.z
  if a.q.norm2 = 0 ∨ b.q.norm2 = 0 then ⟨t, ⟨ivOf 0, ivOf 0, ivOf 0, ivOf 0⟩⟩
  else if v2 = 0 then ⟨t, a.q.iv⟩
  else
    let ang := angleDeg (sg * d.w) v2
    let mid := (ang.lo + ang.hi) / 2 * f
    let wide := (ang.hi - ang.lo) / 2 * f / 57
    let s := ((sinDeg mid).unit wide).mul ((sqrtIv v2).inv.scale sg)
    ⟨t, a.q.iv.mul ⟨(cosDeg mid).unit wide, s.scale d.x, s.scale d.y, s.scale d.z⟩⟩

/-- What the pose ring gives for a time. -/
inductive PoseAt where
  | pose (m : IvMotion)
  | later (extrap : IvMotion)
  | none_
  deriving DecidableEq, Repr

/-- The first adjacent pair of entries around `t`. -/
def poseBetween (t : Nat) : List PoseEntry → Option Motion
  | a :: b :: r =>
    if a.time ≤ t ∧ t < b.time then some (lerpPose a.pose b.pose ((t - a.time : Nat) / (b.time - a.time : Nat) : Rat))
    else poseBetween t (b :: r)
  | _ => none

/-- Constant-velocity extrapolation from the two newest entries (R126). -/
def extrapolate (ring : List PoseEntry) (t : Nat) : Option IvMotion :=
  match ring.reverse with
  | b :: a :: _ => some (extrapolatePose a.pose b.pose ((t - a.time : Nat) / (b.time - a.time : Nat) : Rat))
  | _ => none

/-- The pose at time `t` from the published valid entries, oldest first (R125 to R127). At the newest entry's own TIME the pose is
that entry's (log 117). -/
def poseAt (ring : List PoseEntry) (t : Nat) : PoseAt :=
  match ring with
  | a :: _ :: _ =>
    if t < a.time then .none_
    else match poseBetween t ring with
      | some m => .pose m.iv
      | none =>
        match ring.getLast? with
        | some z => if t = z.time then .pose z.pose.iv else match extrapolate ring t with | some m => .later m | none => .none_
        | none => .none_
  | _ => .none_

/-- The same with R126's extrapolation taken at once: the pose used for boundaries, where no hold applies. -/
def poseNow (ring : List PoseEntry) (t : Nat) : Option IvMotion :=
  match poseAt ring t with
  | .pose m => some m
  | .later m => some m
  | .none_ => none

/-! ### Calibration and deskew -/

/-- The calibrated point of a return in the head frame, mm, and its calibrated range (R118). -/
def calibrate (range azimuth : Nat) (elev azOff rOff scale vOff : Int) : IvVec × Rat :=
  let r : Rat := (range : Rat) * scale / 32768 + rOff
  let az : Rat := (azimuth : Rat) * 360 / 65536 + (azOff : Rat) / 1000
  let el : Rat := (elev : Rat) / 1000
  let ce := (cosDeg el).scale r
  (⟨ce.mul (cosDeg az), ce.mul (sinDeg az), ((sinDeg el).scale r).add (ivOf vOff)⟩, r)

/-- A point of the vehicle frame at a pose, carried into the frame reference (R128), in mm; none where a quaternion is no rotation. -/
def toReference (pose ref : IvMotion) (v : IvVec) : Option IvVec :=
  if pose.q.noRotation || ref.q.noRotation then none
  else some (ref.q.conj.rot ((pose.q.rot v).add ((pose.t.sub ref.t).smul (1 / 10))))

/-- A fraction `f` of a correction applied to a point in the frame reference (R135); none where its quaternion is no rotation, or the
enclosure does not tell which way it turns. -/
def applyFraction (d : IvMotion) (f : Rat) (v : IvVec) : Option IvVec :=
  let n2 := d.q.norm2
  if n2.lo ≤ 0 ∨ (d.q.w.lo < 0 ∧ 0 ≤ d.q.w.hi) then none
  else
    let sg : Rat := if d.q.w.hi < 0 then -1 else 1
    let u : Iv := (Iv.mk (sqrtIv n2.lo).lo (sqrtIv n2.hi).hi).inv.scale (f * sg)
    let q : IvQuat := ⟨(ivOf (1 - f)).add (u.mul d.q.w), u.mul d.q.x, u.mul d.q.y, u.mul d.q.z⟩
    if q.noRotation then none else some ((q.rot v).add (d.t.smul (f / 10)))

/-- A value saturated at the int32 limits (R137, R232). -/
def sat32 (i : Int) : Int := clampI (-2 ^ 31) (2 ^ 31 - 1) i

end Sys2Proof.Machine
end

