-- ==== Sys2Proof/Machine/Ingest.lean ====
section
/-! DEFINITION. The ingest engine (04_ingest.md): the packet store, the pose ring, returns taken in arrival order, calibration, deskew,
admission, and the rerun. -/

namespace Sys2Proof.Machine

/-! ### Frames of instants -/

/-- The frame number of an instant on the time base, from the boundaries known: earlier and later frames by the period in
force. -/
def State.frameOf (s : State) (t : Nat) : Nat :=
  let c := s.frameNum
  let fr := s.frm
  let per := max 1 fr.period
  if fr.nextB ≤ t then (c + 1 + (t - fr.nextB) / per) % 2 ^ 32
  else if fr.lastB ≤ t then c
  else if fr.prevB ≤ t then (c + 2 ^ 32 - 1) % 2 ^ 32
  else (c + 2 ^ 32 - 2 - ((fr.prevB - 1 - t) / per) % 2 ^ 31) % 2 ^ 32

/-- The late-arrival window in force, ns (R90, R633). -/
def State.lateWindow (s : State) : Nat := s.force Reg.portLateWin * 10000

/-! ### SRP packets (R80 to R83) -/

/-- A return record's 64-bit word. -/
def srpRecord (pkt : List Byte) (i : Nat) : Nat := leAt pkt (32 + 8 * i) 8

/-- Return count of a packet. -/
def srpCount (pkt : List Byte) : Nat := leAt pkt 4 2

/-- The time of a return (R83). -/
def srpTime (pkt : List Byte) (i : Nat) : Nat := leAt pkt 0x10 8 + 40 * bitsN (srpRecord pkt i) 63 52

/-! ### The packet store (R115 to R117) -/

/-- Whether a frame has retired or can never open: it is not live, and either precedes the next frame to open, or no
frame is still to open and it has begun. A frame that has not begun is not freed. -/
def State.frameGone (s : State) (f : Nat) : Bool :=
  let live := s.frm.live.any (fun e => e.frame == f)
  let begun := decide ((s.frameNum + 2 ^ 32 - f) % 2 ^ 32 < 2 ^ 31)
  if live then false
  else match s.frm.nextOpen with
    | some n => decide ((n + 2 ^ 32 - 1 - f) % 2 ^ 32 < 2 ^ 31)
    | none => begun && s.frm.live.isEmpty || (match s.frm.live.head? with
        | some a => decide ((a.frame + 2 ^ 32 - 1 - f) % 2 ^ 32 < 2 ^ 31)
        | none => false)

/-- Slots freed whose frames have all retired (R116). The cursors of the live epochs count packets in arrival order from the oldest
held, so they move down with each freed packet before them. -/
def State.freeSlots (s : State) : State :=
  let gone := fun (k : PktInfo) => s.frameGone k.f0 && s.frameGone k.f1
  let old := s.ingest.pkts
  let s := { s with ingest := { s.ingest with
    pkts := old.filter (fun k => !(gone k)), lost := s.ingest.lost.filter (fun l => !(s.frameGone l.1)) } }
  let moved := fun (c : Nat × Nat) =>
    (((old.take c.1).filter (fun k => !(gone k))).length,
     match old[c.1]? with
     | some k => if gone k then 0 else c.2
     | none => c.2)
  s.mapLive (fun e => { e with cursor := moved e.cursor, reached := moved e.reached })

/-- The next slot of the store, in ring order, that no held packet uses; none where every slot is held (R115, R117). -/
def State.slotFree (s : State) : Option Nat :=
  let n := s.rd Reg.ingPsSlots
  let next := if s.ingest.nextSlot < n then s.ingest.nextSlot else 0
  let tries := (List.range (min n (s.ingest.pkts.length + 1))).map (fun k => (next + k) % n)
  tries.find? (fun i => !(s.ingest.pkts.any (fun k => k.slot == i)))

/-- The first instant that is future to a packet that comes now (R92): the close of the frame in progress and one period more. -/
def State.futureFrom (s : State) : Nat := s.frm.nextB + s.frm.period

/-- A packet written into the next slot (R115), with its descriptor; where its write meets a reserved address the packet is
dropped (R659). The first packet after enable has arrival number 0, and the bytes of a slot that Table 04-1 does not give are free
values (log 85). -/
def State.storePacket (s : State) (p : PortId) (pkt : List Byte) (slot : Nat) : State :=
  let n := srpCount pkt
  let len := 36 + 8 * n
  let t0 := leAt pkt 0x10 8
  let times := (List.range n).map (srpTime pkt)
  let tl := times.foldl max t0
  let f0 := s.frameOf t0
  let f1 := s.frameOf tl
  let arr := s.ingest.arrivals % 2 ^ 32
  let base := s.rd64 Reg.ingPsBase / 4096 * 4096
  let (fv, s) := s.fresh 1504
  let body := pkt.take len
  let pad := (List.range (1504 - len)).map (fun i => (BitVec.ofNat 8 (Config.freeNat (fv + i)) : Byte))
  let desc := toLe arr 4 ++ toLe p.val 1 ++ toLe (b2n (f0 ≠ f1)) 1 ++ toLe len 2 ++ toLe f0 4 ++ toLe f1 4
    ++ toLe s.time 8 ++ toLe 0 8
  let (ok, s) := s.engWrite (s.isUnset Reg.ingPsBase 2) (base + 1536 * slot) (desc ++ body ++ pad) none
  if ok then
    { s with ingest := { s.ingest with
      pkts := s.ingest.pkts ++ [{ slot := slot, arrival := arr, port := p, rx := s.time, f0 := f0, f1 := f1, since := s.ports[p].since, upTo := s.futureFrom, bytes := body }]
      arrivals := s.ingest.arrivals + 1, nextSlot := slot + 1 } }
  else (s.degrade f0).degrade f1

/-! ### The pose ring (R123, R124) -/

/-- One ring entry published: read from memory; an entry that cannot be read or is not valid gives no pose, one not later
than the newest held is ignored and counted. -/
def State.publishEntry (s : State) (i : Nat) : State :=
  let base := s.rd64 Reg.ingPoseBase / 64 * 64
  let ring := s.ingest.ring.filter (fun e => e.idx ≠ i)
  match s.engRead (s.isUnset Reg.ingPoseBase 2) (base + 64 * i) 64 none with
  | (.bad, s) => { s with ingest := { s.ingest with ring := ring } }
  | (.data d, s) =>
    let i32 := fun (o : Nat) => ((sint 32 (leAt d o 4) : Int) : Rat)
    if ¬ bitN (leAt d 0x14 4) 0 then { s with ingest := { s.ingest with ring := ring } }
    else
      let t := leAt d 0 8
      let pose : Motion := ⟨⟨i32 8, i32 12, i32 16⟩, ⟨i32 0x18, i32 0x1C, i32 0x20, i32 0x24⟩⟩
      match ring.getLast? with
      | some z =>
        if t ≤ z.time then { s.count Cnt.ingCntPoseord with ingest := { s.ingest with ring := ring } }
        else { s with ingest := { s.ingest with ring := ring ++ [⟨i, t, pose⟩] } }
      | none => { s with ingest := { s.ingest with ring := [⟨i, t, pose⟩] } }

/-- ING_POSE_HEAD written: the entries after the last published, up to the written index (R123). -/
def State.publishTo (s : State) (h : Nat) : State :=
  let idx := match s.ingest.ringHead with
    | none => List.range (h + 1)
    | some l => (List.range ((h + 256 - l) % 256)).map (fun k => (l + 1 + k) % 256)
  let s := { s with ingest := { s.ingest with ringHead := some h } }
  idx.foldl (fun s i => s.publishEntry i) s

/-! ### Returns -/

/-- Whether an epoch's deskew may run: always with ride-ahead, else from the pose decision (R45, R136); not between a
failed test's rein-back start and its release. -/
def Epoch.mayDeskew (e : Epoch) : Bool :=
  match e.rein with
  | .run _ _ _ => false
  | _ => e.ride || (e.closed && e.decision != Decision.open)

/-- Whether a held packet is on time for a frame (R90): before its close every packet is. -/
def Epoch.onTime (e : Epoch) (k : PktInfo) : Bool := !e.closed || decide (k.rx ≤ e.closeT + e.lateWin)

/-- The next return of an epoch from a place in arrival order: packet and record number. -/
def Epoch.scanFrom (e : Epoch) (pkts : List PktInfo) : Nat → Nat → Option (Nat × Nat × PktInfo)
  | 0, _ => none
  | fuel + 1, i =>
    match pkts[i]? with
    | none => none
    | some k =>
      let from_ := if i = e.cursor.1 then e.cursor.2 else 0
      let hit := ((List.range (srpCount k.bytes)).drop from_).find? (fun r =>
        decide (e.openT ≤ srpTime k.bytes r ∧ srpTime k.bytes r < e.closeT ∧ k.since ≤ srpTime k.bytes r ∧ srpTime k.bytes r < k.upTo)
          && e.onTime k)
      match hit with
      | some r => some (i, r, k)
      | none => e.scanFrom pkts fuel (i + 1)

/-- The next return of an epoch. What a port stored while its head was verified stands when the head becomes unverified, as R112 has it
for a link that is lost (log 116). -/
def State.nextReturn (s : State) (e : Epoch) : Option (Nat × Nat × PktInfo) :=
  e.scanFrom s.ingest.pkts (s.ingest.pkts.length + 1) e.cursor.1

/-- Whether a held packet is not to be parsed yet (R147): the promotion of a frame waits for the frame before it (R60), and the packet
came after that frame's close. -/
def State.parseHeld (s : State) (k : PktInfo) : Bool :=
  match s.frm.live with
  | _ :: b :: _ => b.closed && decide (b.closeT < k.rx)
  | _ => false

/-- Whether ingest and Drey have no more work under an epoch: no return to take, none held, none staged. -/
def State.passEnded (s : State) (e : Epoch) : Bool :=
  (s.nextReturn e).isNone && !(s.ingest.waiting.any (fun w => w.frame == e.frame))
    && !(s.drey.staged.any (fun p => p.frame == e.frame))

/-- A per-port tally of an epoch changed. -/
def State.tally (s : State) (f : Nat) (p : PortId) (g : PortTally → PortTally) : State :=
  s.modEpoch f (fun e => { e with ports := e.ports.set p (g e.ports[p]) })

/-- Returns lost for want of a slot (R117): tallied for their frame, or kept until its epoch opens. -/
def State.psLoss (s : State) (f : Nat) (p : PortId) (n : Nat) : State :=
  match s.epoch? f with
  | some _ => s.tally f p (fun t => { t with psFull := t.psFull + n })
  | none => { s with ingest := { s.ingest with lost := s.ingest.lost ++ [(f, p.val, n)] } }

/-- A counter moved on for a return that no earlier pass of its frame has taken (R144, R185). -/
def State.countNew (s : State) (again : Bool) (c : Ctr) : State := if again then s else s.count c

/-- Whether the place (packet, record) was taken by the first pass of a frame that reruns. -/
def Epoch.takenBefore (e : Epoch) (i r : Nat) : Bool :=
  e.rein == Rein.rerun && (decide (i < e.reached.1) || (decide (i = e.reached.1) && decide (r < e.reached.2)))

/-- The record of an admitted return written at its place and staged for Drey (R137, R138): `bits` is the last record word without
its EXTRAP bit. -/
def State.writePoint (s : State) (f idx : Nat) (v : IvVec) (bits : Nat) (extrap : Bool) : State :=
  match s.epoch? f with
  | none => s
  | some e =>
    let coord := fun (s : State) (i : Iv) =>
      match i.round with
      | some n => (sat32 n, s)
      | none => let (b, s) := s.freeBits 32; (sint 32 b, s)
    let (x, s) := coord s v.x
    let (y, s) := coord s v.y
    let (z, s) := coord s v.z
    let rec_ := toLe (unsint 32 x) 4 ++ toLe (unsint 32 y) 4 ++ toLe (unsint 32 z) 4 ++ toLe (bits + 2 ^ 21 * b2n extrap) 4
    let base := regN64 e.conf (Reg.ingPbBase (f % 2)) / 64 * 64
    let (ok, s) := s.engWrite (e.isUnset (Reg.ingPbBase (f % 2)) 2) (base + 16 * idx) rec_ (some f)
    if ok then { s with drey := { s.drey with staged := s.drey.staged ++ [⟨f, idx, x, y, z⟩] } } else s

/-- The quota, full and thinning rules (R139): none where the return is dropped, with its cause counted. -/
def State.admission (s : State) (f : Nat) (p : PortId) (beyond again : Bool) : Bool × State :=
  match s.epoch? f with
  | none => (false, s)
  | some e =>
    let r := fun (o : Nat) => regN e.conf o
    let cap := r Reg.ingPbCap
    let hi := cap * r Reg.ingThinHi / 100
    let step := cap * r Reg.ingThinStep / 100
    let t := e.ports[p]
    if r (Reg.ingQuota p) ≤ t.admitted then
      (false, (s.tally f p (fun t => { t with quota := t.quota + 1 })).countNew again (Cnt.ingCntQuota p))
    else if cap ≤ e.occ then
      (false, (s.tally f p (fun t => { t with full := t.full + 1 })).countNew again (Cnt.ingCntFull p))
    else
      let c := t.beyond
      let s := if beyond then s.tally f p (fun t => { t with beyond := t.beyond + 1 }) else s
      if beyond ∧ hi ≤ e.occ ∧ c % 2 = 1 then
        (false, (s.tally f p (fun t => { t with thin1 := t.thin1 + 1 })).countNew again (Cnt.ingCntThin1 p))
      else if beyond ∧ step ≤ e.occ ∧ c % 8 = 6 then
        (false, (s.tally f p (fun t => { t with thin2 := t.thin2 + 1 })).countNew again (Cnt.ingCntThin2 p))
      else (true, s)

/-- A place in the point buffer taken in admission order (R138): its index, and the EXPIRED bit of the record. -/
def State.reserve (s : State) (e : Epoch) (p : PortId) : Nat × Nat × State :=
  let expired := s.bit (Reg.portState p) 5
  let occ := match s.epoch? e.frame with | some x => x.occ | none => 0
  (occ, 2 ^ 22 * b2n expired, s.modEpoch e.frame (fun e => { e with
    occ := e.occ + 1, expiredPts := e.expiredPts || expired
    ports := e.ports.set p { e.ports[p] with admitted := e.ports[p].admitted + 1 } }))

/-- The mount transform of a port (R120): quaternion and translation in mm; whether the quaternion needs normalising. The rotation
takes a quaternion by its direction, so one within 2⁻¹⁶ of unit norm turns as its normalised form does (log 116). -/
def mountOf (conf : List (Nat × W32)) (p : Nat) : Quat × Vec3 × Bool :=
  let q := fun (k : Nat) => ((sint 32 (regN conf (Reg.ingMountQ p k)) : Int) : Rat) / 2 ^ 30
  let t := fun (k : Nat) => ((sint 32 (regN conf (Reg.ingMountT p k)) : Int) : Rat) / 10
  let m : Quat := ⟨q 0, q 1, q 2, q 3⟩
  let d := m.norm2 - 1
  (m, ⟨t 0, t 1, t 2⟩, decide (1 / 65536 < d ∨ d < -1 / 65536))

/-- A vehicle-frame point none of whose coordinates is known: free values. -/
def State.freeVec (s : State) : IvVec × State :=
  let (a, s) := s.freeBits 32
  let (b, s) := s.freeBits 32
  let (c, s) := s.freeBits 32
  let i := fun (n : Nat) => ivOf ((sint 32 n : Int) : Rat)
  (⟨i a, i b, i c⟩, s)

/-- The correction of R135 applied to a deskewed point `q` of time `t`: on a rerun, and without ride-ahead once a corrected pose was
accepted (R136). None where the correction is not known. -/
def Epoch.corrected (e : Epoch) (t : Nat) (q : IvVec) : Option IvVec :=
  if e.rein == Rein.rerun || (!e.ride && e.cpose.isSome) then
    match e.delta with
    | some d => applyFraction d (mkRat (t - e.openT) (max 1 (e.closeT - e.openT))) q
    | none => none
  else some q

/-- An admitted return deskewed at `pose` and, where R135 or R136 applies, moved by its share of the correction. Where a quaternion is
no rotation, or the correction is not known, the point's coordinates are free values (log 81). -/
def State.deskewPoint (s : State) (f idx t : Nat) (v : IvVec) (bits : Nat) (extrap again : Bool) (pose : IvMotion) : State :=
  match s.epoch? f with
  | none => s
  | some e =>
    match e.refPose with
    | none => s
    | some ref =>
      let s := if extrap then s.countNew again Cnt.ingCntExtrap else s
      let (q, s) := match (toReference pose ref v).bind (e.corrected t) with
        | some q => (q, s)
        | none => s.freeVec
      s.writePoint f idx q bits extrap

/-- One return of an epoch taken (R86, R118 to R128, R137 to R141). It is admitted in arrival order, whether or not its pose has come
(R139); a return skipped for want of a pose is skipped on the rerun too (R143). A return that fails both the echo mask and the
calibrated range counts as an echo skip, and every return of an epoch with no reference pose as one without a pose (log 116). -/
def State.takeReturn (s : State) (e : Epoch) (i : Nat) (k : PktInfo) (r : Nat) : State :=
  let f := e.frame
  let p := k.port
  let again := e.takenBefore i r
  -- the engine reads the packet where it was stored
  let base := s.rd64 Reg.ingPsBase / 4096 * 4096
  match s.engRead (s.isUnset Reg.ingPsBase 2) (base + 1536 * k.slot + 0x40 + 8 * r) 8 (some f) with
  | (.bad, s) => s
  | (.data wb, s) =>
    let w := leNat wb
    let range := bitsN w 17 0
    let inten := bitsN w 25 18
    let beam := bitsN w 33 26
    let echo := bitsN w 35 34
    let az := bitsN w 51 36
    let t := srpTime k.bytes r
    if range = 0 then s.countNew again (Cnt.portCntEmpty p)
    else if echo = 3 then s.countNew again (Cnt.portCntBadret p)
    else
      let slot := bitsN (regN e.conf (Reg.portCalCtrl p)) 0 0
      let cal := regN64 e.conf Reg.ingCalBase / 65536 * 65536 + 0x2000 * p.val + 0x1000 * slot + 16 * beam
      match s.engRead (s.isUnset Reg.ingCalBase 2) cal 16 (some f) with
      | (.bad, s) => s.countNew again (Cnt.portCntBadret p)
      | (.data c, s) =>
        if ¬ bitN (leAt c 10 1) 0 then s.countNew again (Cnt.portCntBadret p)
        else if ¬ bitN (regN e.conf (Reg.ingEcho p)) echo then s.countNew again (Cnt.ingCntEcho p)
        else
          let (head, rng) := calibrate range az (sint 16 (leAt c 0 2)) (sint 16 (leAt c 2 2)) (sint 16 (leAt c 4 2))
            (leAt c 6 2) (sint 16 (leAt c 12 2))
          if rng ≤ 0 ∨ 262143 < rng then s.countNew again (Cnt.ingCntCalrange p)
          else
            let gain := min 255 (inten * leAt c 8 2 / 256)
            let (mq, mt, ev) := mountOf e.conf p
            let s := if ev then s.orReg Reg.ingCfgEvt 1 else s
            let (veh, s) := if mq.norm2 = 0 then s.freeVec else ((mq.iv.rot head).add mt.iv, s)
            let bits := gain + 2 ^ 8 * beam + 2 ^ 16 * p.val + 2 ^ 19 * echo
            let beyond := decide ((regN e.conf Reg.ingThinRange : Rat) < rng)
            let noPose : Bool := if again then e.nopose.contains (k.arrival, r)
              else e.refPose.isNone || poseAt s.ingest.ring t == PoseAt.none_
            if noPose then
              (if again then s
               else (s.count Cnt.ingCntNopose).modEpoch f (fun e => { e with nopose := e.nopose ++ [(k.arrival, r)] }))
            else
              let (ok, s) := s.admission f p beyond again
              if ¬ ok then s else
              let (idx, exp, s) := s.reserve e p
              let bits := bits + exp
              match poseAt s.ingest.ring t with
              | .none_ => let (v, s) := s.freeVec; s.writePoint f idx v bits false
              | .pose m => s.deskewPoint f idx t veh bits false again m
              | .later m =>
                if regN e.conf Reg.ingPoseWait = 0 then s.deskewPoint f idx t veh bits true again m
                else { s with ingest := { s.ingest with waiting := s.ingest.waiting ++ [⟨f, t, veh, bits, idx, s.time, again⟩] } }

/-- A held return whose pose has come (R126). -/
def State.readyHeld (s : State) : Option HeldRet :=
  s.ingest.waiting.find? (fun h => match poseAt s.ingest.ring h.time with | .later _ => false | _ => true)

/-- A held return taken at a pose. -/
def State.takeHeld (s : State) (h : HeldRet) : State :=
  let s := { s with ingest := { s.ingest with waiting := s.ingest.waiting.erase h } }
  match poseAt s.ingest.ring h.time with
  | .none_ => let (v, s) := s.freeVec; s.writePoint h.frame h.idx v h.bits false
  | .pose m => s.deskewPoint h.frame h.idx h.time h.vec h.bits false h.again m
  | .later m => s.deskewPoint h.frame h.idx h.time h.vec h.bits true h.again m

/-- What INGEST_RETURN may take of an epoch: its next return where its deskew may run and its packet may be parsed (R147). -/
def State.offered (s : State) (e : Epoch) : Option (Nat × Nat × PktInfo) :=
  if e.mayDeskew then (s.nextReturn e).filter (fun x => !(s.parseHeld x.2.2)) else none

/-- INGEST_RETURN: a held return whose pose has come, else the next return in arrival order of the older epoch, else of the
newer. Deskew under an epoch whose point Drey holds back stalls (R129); where nothing else can be taken the stall counts. -/
def State.ingestOne (s : State) : State :=
  match s.readyHeld.filter (fun h => !(s.dreyHolds h.frame)) with
  | some h => s.takeHeld h
  | none =>
    match s.frm.live.findSome? (fun e => if s.dreyHolds e.frame then none else (s.offered e).map (fun x => (e, x))) with
    | some (e, i, r, k) =>
      let s := s.modEpoch e.frame (fun e => { e with cursor := (i, r + 1) })
      s.takeReturn e i k r
    | none =>
      if s.frm.live.any (fun e => s.dreyHolds e.frame && (s.offered e).isSome) then s.count64 Reg.ingCntBp else s

/-- Step 1 of a rein-back (R146): in-flight points go, occupancy and thinning counts to 0, the cursor back to the start. How far the
first pass had come is kept, since a return it never took is new to the rerun (R144). -/
def State.ingestFlush (s : State) (f : Nat) : State :=
  let s := { s with ingest := { s.ingest with waiting := s.ingest.waiting.filter (fun h => h.frame ≠ f) } }
  let s := { s with drey := { s.drey with
    staged := s.drey.staged.filter (fun p => p.frame ≠ f), capStall := s.drey.capStall.filter (· ≠ f) } }
  s.modEpoch f (fun e => { e with
    occ := 0, cursor := (0, 0), reached := e.cursor, expiredPts := false
    ports := e.ports.map (fun t => { t with admitted := 0, beyond := 0, quota := 0, full := 0, thin1 := 0, thin2 := 0 }) })

end Sys2Proof.Machine
end

