-- ==== Sys2Proof/Machine/Frame.lean ====
section
/-! DEFINITION. The frame (02_frame.md): epochs opening, the pose decision, rein-back, promotion, commit, abandonment and retirement,
and the frame boundary that drives them. -/

namespace Sys2Proof.Machine

/-! ### Ports at a boundary (R103, R113, R523) -/

/-- Ports whose link is up and head verified, as a mask. -/
def State.goodPorts (s : State) : Nat :=
  (List.range 8).foldl (fun m p => if s.bit (Reg.portState p) 0 && s.headOf p == 2 then m + 2 ^ p else m) 0

/-- Ports whose head is past rated life, as a mask. -/
def State.expiredPorts (s : State) : Nat :=
  (List.range 8).foldl (fun m p => if s.bit (Reg.portState p) 5 then m + 2 ^ p else m) 0

/-- Zones some port of a mask covers (R523). -/
def State.coveredZones (s : State) (ports : Nat) : Nat :=
  (List.range 8).foldl (fun m p => if bitN ports p then m ||| s.fld (Reg.hltZoneCover p) 23 0 else m) 0

/-! ### Busy bits (R100, R226) -/

/-- Calibration-slot and program-buffer busy bits brought up to the live epochs. -/
def State.refreshBusy (s : State) : State :=
  let s := (List.range 8).foldl (fun s p =>
    let slots := s.frm.live.map (fun e => bitsN (regN e.conf (Reg.portCalCtrl p)) 0 0)
    (s.putB (Reg.portCalCtrl p) 1 (slots.contains 0)).putB (Reg.portCalCtrl p) 2 (slots.contains 1)) s
  let bufs := s.frm.live.map (fun e => e.buf.val)
  (s.putB Reg.tileSchedStat 0 (bufs.contains 0)).putB Reg.tileSchedStat 1 (bufs.contains 1)

/-! ### Opening an epoch (R42, R128, R145, R155, R227, R232, R594, R597) -/

/-- Bytes written to a frame descriptor at an offset (R232, R659). -/
def State.fdescWrite (s : State) (f off : Nat) (bs : List Byte) : State :=
  let base := s.rd64 Reg.tileSchedFdescBase / 256 * 256 + 256 * (f % 2)
  (s.engWrite (s.isUnset Reg.tileSchedFdescBase 2) (base + off) bs (some f)).2

/-- A tally with nothing in it. -/
def PortTally.zero : PortTally := ⟨0, 0, 0, 0, 0, 0, 0⟩

/-- The boundary that opened a frame and the one that closes it, as known now. -/
def State.spanOf (s : State) (f : Nat) : Nat × Nat × Bool :=
  let b := s.frm.bounds
  let o := ((b.find? (fun x => x.1 == f)).map (·.2)).getD s.frm.lastB
  match b.find? (fun x => x.1 == (f + 1) % 2 ^ 32) with
  | some x => (o, x.2, true)
  | none => (o, s.frm.nextB, false)

/-- Whether an epoch of a frame opens with no tile work (R227). -/
def State.opensIdle (s : State) (f : Nat) (conf : List (Nat × W32)) (kmSmall : Bool) : Bool :=
  let p := f % 2
  let buf : Fin 2 := if bitN (regN conf Reg.tileSchedSel) 0 then 1 else 0
  !(s.bit Reg.tileSchedCtrl 0) || !(s.bit Reg.tileSchedStat (2 + buf.val)) || kmSmall || s.sched.progs[buf].isNone
    || s.isUnset Reg.tileSchedFdescBase 2 || s.forceUnset (Reg.ingPbBase p) 2 || s.forceUnset (Reg.dreyEtBase p) 2
    || s.forceUnset (Reg.dreyPmBase p) 2 || s.forceUnset (Reg.dreyKmBase p) 2 || s.isUnset (Reg.hltPropBase p) 2

/-- The epoch of frame `f` opens. One that opens at or after its own close takes the ports that were good at that close; another takes
those good now, until its close (log 115). -/
def State.openEpoch (s : State) (f : Nat) : State :=
  let (o, c, closed) := s.spanOf f
  let conf := s.inForce
  let buf : Fin 2 := if bitN (regN conf Reg.tileSchedSel) 0 then 1 else 0
  let kmSmall := s.forceUnset Reg.dreyKmSize 2 || decide (regN64 conf Reg.dreyKmSize / 65536 * 65536 < 131072)
  let idle := s.opensIdle f conf kmSmall
  let places := s.places
  let inSvc := (List.range 32).foldl (fun m t => if s.inService t then m + 2 ^ t else m) 0
  let win := s.lateWindow
  let good := if closed then s.frm.closedGood else s.goodPorts
  let lost := fun (p : Nat) => ((s.ingest.lost.filter (fun l => l.1 == f && l.2.1 == p)).map (·.2.2)).sum
  let e : Epoch := {
    frame := f, openT := o, closeT := c, closed := closed, conf := conf, wrote := s.forceWritten, ride := bitN (regN conf Reg.ingCtrl) 1
    noWork := idle, buf := buf, place := places, inService := inSvc, refPose := poseNow s.ingest.ring o
    covered := good, absent := 255 - good, lateWin := win, poseDl := max (regN conf Reg.ingPoseDl * 1000) win
    lateDone := closed && decide (c + win ≤ s.time), decision := .open, cpose := none, delta := none, rein := .none, reined := false
    promoted := false, cursor := (0, 0), reached := (0, 0), nopose := [], occ := 0
    ports := Vector.ofFn (fun i : Fin 8 => { PortTally.zero with psFull := lost i.val }), expiredPts := false
    dir := [], refused := [], eccLost := [], pts := [], refuse := Vector.replicate 4 0, unresolved := 0, incomplete := 0, reopens := 0
    gridSat := false, kmBusy := 0, kmNext := 16384, kmBad := 0, degraded := false, propBad := false, items := []
    lostSect := 0, uncovSect := 0, clusterLost := false, clusterUncov := false, quarTiles := 0, expDropped := false }
  let s := s.modFrm (fun fr => { fr with live := fr.live ++ [e], nextOpen := some ((f + 1) % 2 ^ 32) })
  let s := { s with ingest := { s.ingest with lost := s.ingest.lost.filter (fun l => l.1 ≠ f) } }
  let s := if kmSmall then s.orReg Reg.dreyCfgEvt 8 else s
  let s := if (List.range 16).any e.kdIgnored then s.orReg Reg.dreyCfgEvt 2 else s
  let s := s.putB Reg.tileSchedStat 4 idle
  let s := if idle then s.count Cnt.tileSchedCntProgerr else s
  let s := s.clearDreyRegs (f % 2)
  let want : Vector Nat 4 := Vector.ofFn (fun i : Fin 4 => regN conf (Reg.dreySplit i.val))
  let last := ((s.drey.wantSplit.getLast?).map (·.2)).getD s.drey.split
  let s := if want = last then s else { s with drey := { s.drey with wantSplit := s.drey.wantSplit ++ [(f, want)] } }
  let s := s.updateTileEpochs
  let s := s.markUnserved f
  let s : State := match s.epoch? f with
    | some e' => places.zipIdx.foldl (fun (s : State) x => s.limpLog x.2 x.1.limp e'.uncovSect) s
    | none => s
  let s := if places.any (·.limp) then s.count Cnt.evtCntLimp else s
  let s := s.fdescWrite f 0x00 (toLe f 4 ++ toLe (f % 256) 1)
  let base := s.rd64 Reg.tileSchedFdescBase / 256 * 256 + 256 * (f % 2)
  let oldFlags := if s.engOk (base + 5) 1 then leNat (s.engBytes (base + 5) 1) else 0
  let s := s.fdescWrite f 0x05 (toLe (putBits (putBits oldFlags 0 0 0) 1 1 (b2n e.ride) % 32) 1 ++ toLe 0 2)
  let s := s.fdescWrite f 0x08 (toLe o 8 ++ toLe c 8)
  let s := s.fdescWrite f 0x38 (toLe (regN64 conf (Reg.ingPbBase (f % 2)) / 64 * 64) 8
    ++ toLe (regN64 conf (Reg.dreyPmBase (f % 2)) / 64 * 64) 8 ++ toLe (regN64 conf (Reg.dreyEtBase (f % 2)) / 64 * 64) 8
    ++ toLe (regN64 conf (Reg.dreyKmBase (f % 2)) / 65536 * 65536) 8)
  let s := s.fdescWrite f 0x68 (toLe inSvc 4 ++ List.replicate 148 0)
  s.refreshBusy

/-- Epochs open while fewer than two are live and the next frame has begun (R29, R42, R60, R61), in Trot or above (R557). -/
def State.openEpochs (s : State) : State :=
  let one := fun (s : State) =>
    match s.frm.nextOpen with
    | some f =>
      if s.frm.live.length < 2 && decide (2 ≤ s.gaitN) && s.frm.bounds.any (fun x => x.1 == f) then s.openEpoch f else s
    | none => s
  one (one s)

/-! ### The corrected pose and the decision (R130 to R136) -/

/-- The predicted motion of a frame: pose(B(n)) relative to pose(B(n-1)) (R132); none where the ring gives no pose, or a quaternion that
is no rotation. -/
def State.predicted (s : State) (e : Epoch) : Option IvMotion :=
  match e.refPose, poseNow s.ingest.ring e.closeT with
  | some a, some b => if a.q.noRotation || b.q.noRotation then none else some (motionFrom a b)
  | _, _ => none

/-- The correction of an accepted corrected motion (R132): none where there is no predicted motion, or the corrected rotation is none. -/
def State.deltaOf (s : State) (e : Epoch) (c : Motion) : Option IvMotion :=
  if c.q.norm2 = 0 then none else (s.predicted e).map (correction c.iv)

/-- The tolerance test on a correction (R132): whether it passes; a free truth value where there is none to test, or the enclosures do not
settle it. -/
def State.tolerance (s : State) (e : Epoch) (d : Option IvMotion) : Bool × State :=
  let tt : Rat := regN e.conf Reg.ingTolTrans
  let free := fun (s : State) => let (b, s) := s.freeBits 1; (b == 1, s)
  match d with
  | none => free s
  | some d =>
    let n := d.t.norm2
    if tt * tt < n.lo then (false, s)
    else match yawWithin d.q (regN e.conf Reg.ingTolYaw) with
      | some false => (false, s)
      | some true => if n.hi ≤ tt * tt then (true, s) else free s
      | none => free s

/-! ### Promotion (R43, R232, R453) -/

/-- One component of the frame-close motion as it stands in the frame descriptor: rounded to nearest even, saturated; a free value where its
enclosure does not settle the rounding (log 11). -/
def State.motionField (s : State) (i : Iv) : List Byte × State :=
  match i.round with
  | some n => (toLe (unsint 32 (sat32 n)) 4, s)
  | none => let (b, s) := s.freeBits 32; (toLe b 4, s)

/-- A rotation component with 30 fractional bits: the component of the unit quaternion. Where the quaternion is exact the rounding is decided
on the squares. -/
def unitField (q : IvQuat) (c : Iv) : Iv :=
  let n := q.norm2
  if c.lo = c.hi ∧ n.lo = n.hi then
    let r : Int := (roundSqrt (c.lo * c.lo / n.lo * 2 ^ 60) : Nat)
    ivOf (if c.lo < 0 then -r else r : Int)
  else (c.mul (Iv.mk (sqrtIv n.lo).lo (sqrtIv n.hi).hi).inv).scale (2 ^ 30)

/-- The frame-close motion: the corrected motion when a corrected pose stood or triggered rein-back, the predicted motion
otherwise (04_ingest.md, Deskew). -/
def State.closeMotion (s : State) (e : Epoch) : Option IvMotion :=
  match e.cpose with
  | some c => some c.iv
  | none => s.predicted e

/-- The four rotation components of the frame-close motion, times 2^30: those of a corrected pose as they were delivered, those of a predicted
motion of its unit quaternion (R125, R232). -/
def State.closeRotation (s : State) (e : Epoch) : Option (List Iv) :=
  match e.cpose with
  | some c => some ([c.q.w, c.q.x, c.q.y, c.q.z].map (fun x => ivOf (x * 2 ^ 30)))
  | none => (s.predicted e).map (fun m => [m.q.w, m.q.x, m.q.y, m.q.z].map (unitField m.q))

/-- Fields written one after another. -/
def State.motionFields (s : State) : List Iv → List Byte × State
  | [] => ([], s)
  | i :: r =>
    let (a, s) := s.motionField i
    let (b, s) := s.motionFields r
    (a ++ b, s)

/-- Promotion of an epoch: the fields of the frame descriptor marked "at promotion", the promoted bit last. -/
def State.promote (s : State) (f : Nat) : State :=
  match s.epoch? f with
  | none => s
  | some e =>
    let (tr, s) := match s.closeMotion e, s.closeRotation e with
      | some m, some r => s.motionFields ([m.t.x, m.t.y, m.t.z] ++ r)
      | _, _ =>
        let (v, s) := s.freeBits 224
        (toLe v 28, s)
    let s := s.fdescWrite f 0x18 (tr ++ toLe e.occ 4)
    let occ := (List.range 4).flatMap (fun l => toLe (s.rd (occReg (f % 2) l)) 4)
    let s := s.fdescWrite f 0x58 occ
    let fl := 2 * b2n e.ride + 4 * b2n e.reined + 8 * b2n (e.decision == Decision.unconfirmed) + 16 * b2n e.cpose.isSome
    let s := s.fdescWrite f 0x05 (toLe fl 1)
    let s := s.fdescWrite f 0x05 (toLe (fl + 1) 1)
    s.modEpoch f (fun e => { e with promoted := true, degraded := e.degraded || e.decision == Decision.unconfirmed })

/-- Promotion where it may come: the older epoch, closed, its window ended, the decision taken, any rein-back released, and
every point record and point-map word performed (R43, R453). -/
def State.tryPromote (s : State) : State :=
  match s.frm.live with
  | [] => s
  | e :: _ =>
    let reinOk := match e.rein with | .none => true | .rerun => true | _ => false
    if !e.promoted && e.closed && e.lateDone && e.decision != Decision.open && reinOk && s.passEnded e then s.promote e.frame else s

/-- A frame that closed while the one before it was live takes its pose decision at once when that one has retired, with the
corrected pose delivered by then (R61); with none delivered it stands on the predicted pose. -/
def State.lateDecision (s : State) : State :=
  match s.frm.live with
  | e :: _ => if e.closed && e.decision == Decision.open then s.modEpoch e.frame (fun e => { e with decision := .unconfirmed }) else s
  | [] => s

/-! ### Retirement (R44, R116, R186, R204) -/

/-- The frame summary record (Table 18-4). -/
def State.summary (s : State) (e : Epoch) (abandoned : Bool) (flags zones time : Nat) : List Byte :=
  toLe e.frame 4 ++ toLe (e.frame % 256) 1 ++ toLe (if abandoned then 0 else flags) 1
  ++ toLe (b2n (e.decision == Decision.unconfirmed) + 2 * b2n e.reined + 4 * b2n abandoned + 8 * b2n e.expDropped
      + 16 * b2n (!e.ride) + 32 * b2n e.propBad) 2
  ++ toLe (if abandoned then 0 else zones) 6 ++ toLe e.absent 1 ++ toLe s.expiredPorts 1
  ++ toLe (if abandoned then 0 else time) 8 ++ toLe e.occ 4 ++ toLe e.unresolved 4
  ++ e.refuse.toList.flatMap (fun n => toLe n 4) ++ toLe e.incomplete 4 ++ toLe e.reopens 4 ++ toLe e.quarTiles 4
  ++ toLe e.lostSect 1 ++ toLe e.uncovSect 1 ++ toLe 0 2 ++ toLe e.inService 4 ++ List.replicate 12 0
  ++ e.ports.toList.flatMap (fun t => toLe t.quota 4 ++ toLe t.full 4 ++ toLe t.thin1 4 ++ toLe t.thin2 4 ++ toLe t.psFull 4)
  ++ List.replicate 16 0

/-- The summary record written to its ring (R605): nothing while the ring is disabled. -/
def State.writeSummary (s : State) (rec_ : List Byte) : State :=
  let n := s.rd Reg.evtFsrSlots
  if n = 0 then s else
  let h := s.rd Reg.evtFsrHead
  let base := s.rd64 Reg.evtFsrBase / 256 * 256
  let (_, s) := s.engWrite (s.isUnset Reg.evtFsrBase 2) (base + 256 * (h % n)) rec_ none
  s.put Reg.evtFsrHead ((h + 1) % 2 ^ 32)

/-- An epoch retires: its tag is free, its Drey entries go to the scan, its segments return to Static, packets of frames all
retired are freed. -/
def State.retire (s : State) (e : Epoch) : State :=
  let f := e.frame
  let s := s.dreyRetire f
  let s := s.retireSegs (f % 2)
  let s := (List.finRange 32).foldl (fun s t => s.staleWork t f) s
  let s := { s with ingest := { s.ingest with waiting := s.ingest.waiting.filter (fun h => h.frame ≠ f) } }
  let s := s.modFrm (fun fr => { fr with live := fr.live.filter (fun x => x.frame ≠ f) })
  let s := { s with tiles := s.tiles.map (fun (tl : Tile) => { tl with seen := tl.seen.filter (· ≠ f) }) }
  let s := s.putF Reg.evtLimpStat 15 8 e.uncovSect
  ((s.updateTileEpochs).freeSlots).refreshBusy

/-- A frame abandoned (R62). -/
def State.abandon (s : State) (e : Epoch) : State :=
  let s := (s.count Cnt.evtCntOverrun).logEvent 0x01 pkgUnit 0 (e.frame + 2 ^ 32 * (e.frame % 256))
  let s := s.writeSummary (s.summary e true 0 0 0)
  let s := { s with hitch := { s.hitch with
    verdict := s.hitch.verdict.filter (fun v => v.frame != e.frame), contribs := s.hitch.contribs.filter (fun c => c.frame != e.frame) } }
  (s.retire e).lateDecision

/-! ### Commit (R525 to R527, R588, R595, R596) -/

/-- Halter sectors a Drey sector overlaps in the vehicle frame at B(n), as a mask (R596): none where the frame-close transform, or the octant
its yaw lies in, is not known. -/
def State.sectorShadow (s : State) (e : Epoch) (sct : Nat) : Option Nat :=
  match s.closeMotion e with
  | none => none
  | some m =>
    if m.q.noRotation then none else
    let (c, sn) := m.q.yawDir
    (octantIv c sn).map (fun (k, edge) =>
      let a := (sct + 16 - k) % 8
      if edge then 2 ^ a else 2 ^ a ||| 2 ^ ((a + 7) % 8))

/-- Halter sectors that are uncertain for want of compute (R596), as a mask; free where a sector's shadow is not known (log 11). -/
def State.uncertainSectors (s : State) (e : Epoch) : Nat × State :=
  if e.clusterLost then (255, s)
  else (List.range 8).foldl (fun (x : Nat × State) k =>
    if bitN e.lostSect k || bitN e.uncovSect k then
      (match s.sectorShadow e k with
       | some m => (x.1 ||| m, x.2)
       | none => let (b, s') := x.2.freeBits 8; (x.1 ||| b, s'))
    else x) (0, s)

/-- The zone word of a committing frame (R525): whether the proposal record matched, the word, and its degraded request. -/
def State.formZones (s : State) (e : Epoch) : Bool × Nat × Bool × State :=
  let base := s.rd64 (Reg.hltPropBase (e.frame % 2)) / 16 * 16
  let (r, s) := s.engRead (s.isUnset (Reg.hltPropBase (e.frame % 2)) 2) base 16 (some e.frame)
  let b := match r with | .data b => b | .bad => []
  let good := !b.isEmpty && leAt b 0 4 == e.frame && !e.noWork
  let prop := leAt b 4 6
  let cov := s.coveredZones e.covered
  let (unc, s) := s.uncertainSectors e
  let z := (List.range 24).foldl (fun w i =>
    let st := if !(bitN cov i) then 3 else if bitN unc (i % 8) then 2 else if !good then 2 else bitsN prop (2 * i + 1) (2 * i)
    w + st * 2 ^ (2 * i)) 0
  (good, z, good && bitN (leAt b 10 1) 0, s)

/-- The verdict flags of a frame (Table 16-1). -/
def State.verdictFlags (e : Epoch) (degraded : Bool) : Nat :=
  let thin := e.ports.toList.any (fun t => t.thin1 != 0 || t.thin2 != 0)
  let sat := e.ports.toList.any (fun t => t.quota != 0 || t.full != 0 || t.psFull != 0)
  b2n degraded + 2 * b2n thin + 4 * b2n sat + 8 * b2n e.gridSat + 16 * b2n (e.place.any (·.limp))
    + 32 * b2n e.expiredPts + 64 * b2n (e.absent != 0)

/-- Whether stages 7 and 8 have finished on every tile not quarantined (R68): no tile work, or every item done. -/
def State.stagesDone (s : State) (e : Epoch) : Bool :=
  match s.progOf e with
  | none => e.noWork
  | some p => (List.range p.t).all (s.itemDone e p)

/-- The snapshot bank rewritten as one update (R526). -/
def State.writeBank (s : State) (frame zones flags : Nat) : State :=
  let s := (s.put Reg.hltVerdictFrame frame).put64 Reg.hltVerdictZones (zones % 2 ^ 48 + 2 ^ 48 * (flags % 256))
  let s := s.put64 Reg.hltVerdictTime s.time
  { s with halter := { s.halter with hasVerdict := true, bankBad := false } }

/-- Members of the hitch other than this package (SCI_HITCH_STAT). -/
def State.otherMembers (s : State) : List Nat :=
  (List.range 4).filter (fun m => s.bit Reg.sciHitchStat (4 + m) && m != s.fld Reg.sciHitchStat 1 0)

/-- Whether this package is a wheel that has been assigned (R510). -/
def State.isWheel (s : State) : Bool := s.bit Reg.sciHitchStat 3 && !(s.bit Reg.sciHitchStat 2)

/-- Whether this package leads a hitch with other members. -/
def State.leadsHitch (s : State) : Bool := s.bit Reg.sciHitchStat 2 && !s.otherMembers.isEmpty

/-- The order R527 ranks zone states in: occupied, uncertain, blind, clear. -/
def zoneRank (st : Nat) : Nat := if st = 1 then 3 else if st = 2 then 2 else if st = 3 then 1 else 0

/-- Zone words merged zone by zone over the members that cover each zone (R527). -/
def mergeZones (ms : List (Nat × Nat)) : Nat :=
  (List.range 24).foldl (fun w i =>
    let sts := (ms.filter (fun m => bitN m.2 i)).map (fun m => bitsN m.1 (2 * i + 1) (2 * i))
    let st := match sts with
      | [] => 3
      | a :: r => r.foldl (fun x y => if zoneRank x < zoneRank y then y else x) a
    w + st * 2 ^ (2 * i)) 0

/-- What a committed epoch's retirement starts: the summary record, the untagged items of trigger 0 (R231), and the frame
held back (R61). -/
def State.afterCommit (s : State) (e : Epoch) (flags zones : Nat) : State :=
  let s := s.writeSummary (s.summary e false flags zones s.time)
  let s := s.retire e
  let s := match s.sched.progs[e.buf] with
    | some p => { s with sched := { s.sched with untag := s.sched.untag ++ ((s.nextTrig0 p p.t).map (fun i => (e.buf, i, e.place))).toList } }
    | none => s
  (s.lateDecision.openEpochs).tryPromote

/-- The CONTRIB a wheel sends at its commit (R508). -/
def contribMsg (own frame zones cover flags : Nat) : SciMsg :=
  { op := 0x31, data := toLe zones 6 ++ toLe cover 3 ++ toLe flags 1 ++ toLe 0 6
    hdr := { dst := 0, src := BitVec.ofNat 2 own, ackReq := false, size := 0, tag := 0, status := 0, operand := BitVec.ofNat 64 frame } }

/-- A frame commits with its verdict formed (R65, R446, R526): what is undelivered of the export before it is discarded, its own export
starts, the bank is rewritten as one update, and the epoch retires. -/
def State.finishCommit (s : State) (e : Epoch) (zones flags : Nat) : State :=
  let (cut, s) := s.dropExport
  let (dropped, s) := s.startExport e
  let s := s.modEpoch e.frame (fun x => { x with expDropped := cut || dropped })
  let e := (s.epoch? e.frame).getD e
  let flags := flags ||| b2n e.degraded
  (s.writeBank e.frame zones flags).afterCommit e flags zones

/-- The lead's verdict merged with the contributions held and committed (R509, R527); missing ones count. -/
def State.commitMerged (s : State) (e : Epoch) (v : PendVerdict) : State :=
  let mine := s.hitch.contribs.filter (fun c => c.frame = v.frame)
  let missing := s.otherMembers.filter (fun m => !(mine.any (fun c => c.member == m)))
  let ms := (v.zones, v.cover) :: mine.map (fun c => (c.zones, c.cover)) ++ missing.map (fun _ => (2 ^ 48 - 1, 2 ^ 24 - 1))
  let flags := mine.foldl (fun f c => f ||| c.flags) v.flags ||| b2n (!missing.isEmpty)
  let s := s.count Cnt.sciCntContribMiss missing.length
  let s := { s with hitch := { s.hitch with verdict := none, contribs := s.hitch.contribs.filter (fun c => c.frame ≠ v.frame) } }
  s.finishCommit e (mergeZones ms) flags

/-- COMMIT: the older epoch's verdict, once it is promoted and its stages have finished (R68, R525, R526). A wheel sends its
contribution instead of writing a bank of its own to the link; the lead of a hitch waits for contributions (R509). -/
def State.commitNow (s : State) : State :=
  match s.frm.live with
  | [] => s
  | e :: _ =>
    if !e.promoted || !(s.stagesDone e) then s
    else if s.hitch.verdict.isSome then s
    else
      let (good, zones, askDeg, s) := s.formZones e
      let s := if good then s else s.count Cnt.hltCntPropbad
      let s := s.modEpoch e.frame (fun x => { x with propBad := !good })
      let e := (s.epoch? e.frame).getD e
      let flags := State.verdictFlags e (e.degraded || !good || askDeg || e.noWork || e.place.any (·.limp) || e.lostSect != 0 || e.uncovSect != 0)
      let cover := s.coveredZones e.covered
      if s.isWheel then
        let s := { s with hitch := { s.hitch with outbox := s.hitch.outbox ++ [contribMsg (s.fld Reg.sciHitchStat 1 0) e.frame zones cover flags] } }
        s.finishCommit e zones flags
      else if s.leadsHitch then
        let v : PendVerdict := ⟨e.frame, zones, cover, flags, s.time⟩
        let s := { s with hitch := { s.hitch with verdict := some v } }
        if s.otherMembers.all (fun m => s.hitch.contribs.any (fun c => c.member == m && c.frame == e.frame)) then s.commitMerged e v else s
      else s.finishCommit e zones flags

end Sys2Proof.Machine
end

