-- ==== Sys2Proof/Machine/Halter.lean ====
section
/-! DEFINITION. Halter (16_halter.md): transactions on ports A and B, polls and replies, the challenge, and the pairing store. -/

namespace Sys2Proof.Machine

open Host

/-- A Halter port's record changed. -/
def State.modHlt (s : State) (q : Fin 2) (f : HaltPort → HaltPort) : State :=
  { s with halter := { s.halter with ports := s.halter.ports.set q (f s.halter.ports[q]) } }

/-- A port's index: false is A, true is B. -/
def hltIdx (b : Bool) : Fin 2 := if b then 1 else 0

/-- Whether a Halter port drives its link: released from power-on reset, enabled, and not a wheel's (R510, R541, R543). -/
def State.hltOn (s : State) (q : Fin 2) : Bool := s.alive && s.bit Reg.hltCtrl q.val && !s.isWheel

/-- The bank as a reply reports it: frame, zones, flags, age, and whether it is stale (R534, R535, Table 18-1). -/
def State.hltBank (s : State) : Nat × Nat × Nat × Nat × Bool :=
  if s.halter.bankBad then (0xFFFFFFFF, 2 ^ 48 - 1, 1, 0xFFFF, true)
  else if ¬ s.halter.hasVerdict then (0xFFFFFFFF, 2 ^ 48 - 1, 0, 0xFFFF, true)
  else
    let age := min 0xFFFF ((s.time - s.rd64 Reg.hltVerdictTime) / 100000)
    let stale := decide (10 * s.rd Reg.hltLife < age)
    let z := s.rd64 Reg.hltVerdictZones
    (s.rd Reg.hltVerdictFrame, if stale then 2 ^ 48 - 1 else bitsN z 47 0, bitsN z 55 48, age, stale)

/-- Bytes 0x00 to 0x13 of a reply (Table 16-3). -/
def State.hltReplyHead (s : State) (q : Fin 2) (mac : Bool) : List Byte :=
  let (f, z, v, age, stale) := s.hltBank
  let p := s.halter.ports[q]
  let st := s.rd64 (Reg.hltPortStat q)
  toLe 1 1 ++ toLe (s.gaitN + 4 * q.val + 8 * b2n (s.bit Reg.hltPairStat 0)) 1 ++ toLe (bitsN st 15 0) 2
    ++ toLe (bitsN st 31 16) 2 ++ toLe age 2 ++ toLe f 4 ++ toLe z 6 ++ toLe v 1
    ++ toLe (b2n stale + 2 * b2n (!s.halter.hasVerdict) + 4 * b2n mac + 8 * b2n p.gap + 16 * b2n p.bad) 1

/-- A reply closed with its MAC and CRC. -/
def hltSeal (head mac : List Byte) : List Byte := head ++ mac ++ toLe (crc32c (head ++ mac)) 4

/-- HALTER_CS_FALL (R529, R539, R544): the snapshot is latched, the reply formed, RSEQ advances; a held nonce is used by
this reply and by no other. A bank with an uncorrectable word is counted at each snapshot (Table 18-1). -/
def execHalterCsFall (port : Bool) (s : State) : Outcome State Fault Refusal :=
  let q := hltIdx port
  if ¬ s.hltOn q ∨ s.halter.ports[q].csLow then .next s else
  let p := s.halter.ports[q]
  let due : Option (Nat × Nat) := match p.nonce, s.halter.key with
    | some n, some k => some (n, k)
    | _, _ => none
  let head := s.hltReplyHead q due.isSome
  let stale := bitN (leAt head 0x13 1) 0
  let st := s.rd64 (Reg.hltPortStat q)
  let s := s.put64 (Reg.hltPortStat q) (putBits (putBits st 15 0 (bitsN st 15 0 + 1)) 33 33 0)
  let s := s.count64 (Reg.hltCntPoll q)
  let s := if stale then s.count (Cnt.hltCntStale q) else s
  let s := if s.halter.bankBad then s.count Cnt.evtCntBaseUe else s
  .next (s.modHlt q (fun p => { p with
    csLow := true, reply := hltSeal head (List.replicate 8 0), macDue := due, pollSeen := false, nonce := none
    gap := false, bad := false, sent := [] }))

/-- The reply of a port with its due MAC in it (R544). -/
def HaltPort.withMac (p : HaltPort) : HaltPort :=
  match p.macDue with
  | some (n, k) =>
    let m := toLe n 8 ++ (p.reply.drop 8).take 10
    let mac := (cmac ((toLe k 16).map (·.toNat)) (m.map (·.toNat))).take 8
    { p with macDue := none, reply := hltSeal (p.reply.take 0x14) (mac.map (BitVec.ofNat 8)) }
  | none => p

/-- HALTER_MAC_READY (R544, R550): the CMAC over the nonce and the reply's FRAME and ZONES under the key at the snapshot; its
first 8 bytes in output order. -/
def execHalterMacReady (port : Bool) (s : State) : Outcome State Fault Refusal :=
  if ¬ s.alive then .next s else .next (s.modHlt (hltIdx port) HaltPort.withMac)

/-- A poll discarded (R532). -/
def State.pollDiscard (s : State) (q : Fin 2) (c : Ctr) : State :=
  (s.count c).modHlt q (fun p => { p with bad := true })

/-- A poll received whole, checked and acted on (R530 to R532, R538, R542, R544). -/
def State.pollReceive (s : State) (q : Fin 2) (bytes : List Byte) : State :=
  if ¬ s.alive ∨ ¬ s.halter.ports[q].csLow ∨ s.halter.ports[q].pollSeen ∨ bytes.length < 16 then s else
  let b := bytes.take 16
  let s := s.modHlt q (fun p => { p with pollSeen := true })
  let cmd := leAt b 0 1
  let opt := leAt b 1 1
  let nonce := leAt b 4 8
  if crc16 (b.take 14) ≠ leAt b 14 2 then s.pollDiscard q (Cnt.hltCntPcrc q)
  else if (cmd ≠ 0x3C ∧ cmd ≠ 0x3D) ∨ 1 < opt ∨ leAt b 12 2 ≠ 0 ∨ (opt = 0 ∧ nonce ≠ 0) then
    s.pollDiscard q (Cnt.hltCntPfmt q)
  else
    let seq := leAt b 2 2
    let st := s.rd64 (Reg.hltPortStat q)
    let gap := bitN st 32 && (seq + 65536 - bitsN st 31 16) % 65536 != 1
    let s := if gap then s.count (Cnt.hltCntSeq q) else s
    let s := s.put64 (Reg.hltPortStat q) (putBits (putBits (putBits st 31 16 seq) 32 32 1) 33 33 opt)
    let s := s.modHlt q (fun p => { p with gap := gap, nonce := if opt = 1 then some nonce else none })
    if cmd = 0x3D then (s.count (Cnt.hltCntWake q)).wakeEvent 0 else s

/-- POLL: the sixteenth byte of a transaction has come. -/
def execPoll (port : Bool) (bytes : List Byte) (s : State) : Outcome State Fault Refusal :=
  .next (s.pollReceive (hltIdx port) bytes)

/-- POLL_WAKE: likewise, for a poll whose CMD asks for a wake. -/
def execPollWake (port : Bool) (bytes : List Byte) (s : State) : Outcome State Fault Refusal :=
  .next (s.pollReceive (hltIdx port) bytes)

/-- HALTER_CS_RISE (R529, R532): the transaction ends after `bits` clocks; one that ended before its poll was whole is
discarded, one that ended before byte 47 was whole keeps it. The MAC is in the reply before its bytes are sent (Table 16-4). -/
def execHalterCsRise (port : Bool) (bits : Nat) (s : State) : Outcome State Fault Refusal :=
  let q := hltIdx port
  let p := s.halter.ports[q]
  if ¬ s.alive ∨ ¬ p.csLow then .next s else
  let s := if p.pollSeen then (if bits < 384 then s.count (Cnt.hltCntTrunc q) else s) else s.pollDiscard q (Cnt.hltCntShort q)
  let out := ([0x5A, 0xA5] ++ p.withMac.reply ++ List.replicate (bits / 8) 0).take (bits / 8)
  .next (s.modHlt q (fun p => { p with csLow := false, pollSeen := false, macDue := none, sent := out }))

/-! ### Pairing (R547, R548) -/

/-- Sixteen bytes of key registers, or twenty-four of the blob, in offset order. -/
def State.regBytes (s : State) (off words : Nat) : List Byte := (List.range words).flatMap (fun i => toLe (s.rd (off + 4 * i)) 4)

/-- GEN of the pairing store moved on, PAIRED set, and the pairing event logged (R547). -/
def State.pairGen (s : State) (paired : Bool) (data : Nat) : State :=
  let g := (s.fld Reg.hltPairStat 31 16 + 1) % 65536
  let s := (s.putF Reg.hltPairStat 31 16 g).putB Reg.hltPairStat 0 paired
  s.logEvent 0x40 pkgUnit 0 (data + 2 ^ 16 * g)

/-- A write of HLT_PAIR_CTRL: 1 LOAD, 2 ERASE, 3 WRAP, 4 UNWRAP; another value does nothing. WRAP of an empty store writes
free values (log 20). -/
def State.pairCtrl (s : State) (v : Nat) : State :=
  if v = 1 then
    let k := leNat (s.regBytes (Reg.hltPairKey 0) 4)
    ({ s with halter := { s.halter with key := some k } }).pairGen true 1
  else if v = 2 then ({ s with halter := { s.halter with key := none } }).pairGen false 0
  else if v = 3 then
    let kek := (toBe Config.wrapKey 16).map (·.toNat)
    let (n, s) := s.freeBits 192
    let blob := match s.halter.key with
      | some k => (kwWrap kek ((toLe k 16).map (·.toNat))).foldr (fun b a => b + 256 * a) 0
      | none => n
    let s := (List.range 6).foldl (fun s i => s.put (Reg.hltPairBlob i) (blob / 2 ^ (32 * i))) s
    s.putB Reg.hltPairStat 1 true
  else if v = 4 then
    let kek := (toBe Config.wrapKey 16).map (·.toNat)
    match kwUnwrap kek ((s.regBytes (Reg.hltPairBlob 0) 6).map (·.toNat)) with
    | some k =>
      let s := { s with halter := { s.halter with key := some (k.foldr (fun b a => b + 256 * a) 0) } }
      (s.putB Reg.hltPairStat 0 true).putB Reg.hltPairStat 2 false
    | none => (s.putB Reg.hltPairStat 2 true).count Cnt.hltCntUnwrap
  else s

end Sys2Proof.Machine
end

