-- ==== Sys2Proof/Machine/Ports.lean ====
section
/-! DEFINITION. The head ports (03_range_heads.md): frames received and sorted, packet checks, gPTP, link events, life counting,
PORT_CTRL requests, and the I3C controllers' own events. -/

namespace Sys2Proof.Machine

open Host

/-- Control-space offset of a register's own (unicast) address, Table 19-1. -/
def csOffset (off : Nat) : Nat := 0x8000000 + off

/-- A port that receives: enabled, link up, in Walk or above (Table 03-8, R552). -/
def State.portOn (s : State) (p : Nat) : Bool :=
  decide (1 ≤ s.gaitN) && s.bit (Reg.portCtrl p) 0 && s.bit (Reg.portState p) 0

/-! ### Link (R88, R112, Tables 03-8 and 03-9) -/

/-- LINK rises: the next packet sets the SEQ reference, and HEAD leaves absent. -/
def State.linkRise (s : State) (p : PortId) : State :=
  let s := s.modPort p (fun q => { q with seqRef := none })
  let v := s.fld (Reg.portState p) 5 0
  let v := putBits v 0 0 1
  s.setPortBits p (if bitsN v 2 1 = 0 then putBits v 2 1 1 else v)

/-- LINK_UP: the PHY reports link; LINK follows while EN is set. -/
def execLinkUp (p : PortId) (s : State) : Outcome State Fault Refusal :=
  if ¬ s.alive then .next s else
  if s.gaitN = 0 then .next s else
  let s := s.modPort p (fun q => { q with phyUp := true })
  if s.bit (Reg.portCtrl p) 0 && !(s.bit (Reg.portState p) 0) then .next (s.linkRise p) else .next s

/-- LINK_DOWN: HEAD keeps its value (R112). -/
def execLinkDown (p : PortId) (s : State) : Outcome State Fault Refusal :=
  if ¬ s.alive then .next s else
  .next ((s.modPort p (fun q => { q with phyUp := false })).setPortF p 0 0 0)

/-! ### PORT_CTRL (R101) -/

/-- A write of PORT_CTRL: EN, MODE and AN at once, MISM cleared, the request for the state VERIFY_REQ names waiting for the
boundary. -/
def State.portCtrlWrite (s : State) (r : ReqId) (p : PortId) (v : Nat) : State :=
  let s := s.put (Reg.portCtrl p) (v % 32)
  let s := s.putB (Reg.portState p) 7 false
  let s := if bitN v 0 then
      (if s.ports[p].phyUp && decide (1 ≤ s.gaitN) && !(s.bit (Reg.portState p) 0) then s.linkRise p else s)
    else (s.setPortBits p (putBits (s.fld (Reg.portState p) 5 0) 2 0 0)).modPort p (fun q => { q with seqRef := none })
  let g := s.fld (Reg.portState p) 31 16
  s.modPort p (fun q => { q with req := some (bitN v 4, q.reqGen, g, r) })

/-- A management request discarded at its boundary (R598): counted, and logged with its requester. -/
def State.mismatch (s : State) (r : ReqId) (unit off gen cur : Nat) : State :=
  (s.count Cnt.evtCntMism).logEvent 0x30 unit (ReqId.source r) (csOffset off + 2 ^ 32 * gen + 2 ^ 48 * cur)

/-- A port's waiting request applied or discarded at a boundary (R101, R598). A request for the verified state that meets an absent head
(HEAD = 0) does nothing and is not discarded (log 116). -/
def State.portRequest (s : State) (p : PortId) : State :=
  match s.ports[p].req with
  | none => s
  | some (ver, rg, gen, r) =>
    let moved := decide (s.ports[p].reqGen ≠ rg)
    let s := s.modPort p (fun q => { q with req := none })
    if moved then
      (s.putB (Reg.portState p) 7 true).mismatch r p (Reg.portCtrl p) gen (s.fld (Reg.portState p) 31 16)
    else if ver then
      if s.headOf p = 1 then
        let v := putBits (s.fld (Reg.portState p) 5 0) 3 1 2
        (s.setPortBits p v).modPort p (fun q => { q with seqRef := none, since := s.frm.lastB })
      else s
    else if s.headOf p = 2 then s.setPortF p 2 1 1 else s

/-! ### Life counting (R104 to R110) -/

/-- LIFE_WARN and LIFE_EXP brought up to the registers; each rise is logged once (R108, R109). -/
def State.refreshLife (s : State) (p : PortId) : State :=
  let m := s.fld (Reg.portLifeMin p) 23 0
  let w := decide (s.fld (Reg.portLifeWarn p) 23 0 ≤ m)
  let e := decide (s.fld (Reg.portLifeRated p) 23 0 ≤ m)
  let hadW := s.bit (Reg.portState p) 4
  let hadE := s.bit (Reg.portState p) 5
  let s := s.setPortF p 5 4 (b2n w + 2 * b2n e)
  let s := if w && !hadW then s.logEvent 0x11 p 0 m else s
  if e && !hadE then s.logEvent 0x12 p 0 m else s

/-- The private write of the emitter minutes to a head and its read-back, by its I3C controller (R95, R96, R104): all three bytes in one
transfer at offset 0x1040. A head that ENTDAA has given no address is not reached. -/
def State.lifeXfer (s : State) (p : PortId) (m : Nat) : State :=
  let bus : Fin 2 := if p.val < 4 then 0 else 1
  let c := s.i3c[bus]
  match c.addr.toList.getD (p.val % 4) none with
  | some a => { s with i3c := s.i3c.set bus { c with xfers := c.xfers ++ [⟨a, false, 0x1040, toLe m 3⟩, ⟨a, true, 0x1040, []⟩] } }
  | none => s

/-- LIT_TIME_TICK (R104, R110): a second of the time base ends; a lit packet accepted in it counts. -/
def execLitTimeTick (p : PortId) (s : State) : Outcome State Fault Refusal :=
  if ¬ s.alive then .next s else
  if s.gaitN = 0 ∨ ¬ s.ports[p].litNow then .next s else
  let n := s.ports[p].litSec + 1
  if n < 60 then .next (s.modPort p (fun q => { q with litNow := false, litSec := n }))
  else
    let m := min 0xFFFFFF (s.fld (Reg.portLifeMin p) 23 0 + 1)
    let s := s.modPort p (fun q => { q with litNow := false, litSec := n - 60, lifePend := some m })
    .next (((s.put (Reg.portLifeMin p) m).refreshLife p).lifeXfer p m)

/-- LIFE_WRITE_COMPLETE (R105): the I3C write of the emitter minutes ends; a NACK or another value read back is counted. -/
def execLifeWriteComplete (p : PortId) (nack : Bool) (readBack : BitVec 24) (s : State) : Outcome State Fault Refusal :=
  if ¬ s.alive then .next s else
  match s.ports[p].lifePend with
  | none => .next s
  | some m =>
    let s := s.modPort p (fun q => { q with lifePend := none })
    .next (if nack || readBack.toNat != m then s.count (Cnt.portCntLifewr p) else s)

/-! ### gPTP (R75, R76) -/

/-- gPTP messages sent by a port. -/
def State.gptpSend (s : State) (p : PortId) (ms : List (Nat × Nat × Nat)) : State :=
  s.modPort p (fun q => { q with sent := ms ++ q.sent })

/-- SYNC_TRANSMIT: a two-step Sync and its Follow_Up. -/
def execSyncTransmit (p : PortId) (s : State) : Outcome State Fault Refusal :=
  if ¬ s.alive then .next s else
  if ¬ s.portOn p then .next s else
  let n := s.ports[p].syncSeq
  .next ((s.gptpSend p [(1, n, s.time), (0, n, s.time)]).modPort p (fun q => { q with syncSeq := (n + 1) % 65536 }))

/-- PDELAY_REQ_TRANSMIT. -/
def execPdelayReqTransmit (p : PortId) (s : State) : Outcome State Fault Refusal :=
  if ¬ s.alive then .next s else
  if ¬ s.portOn p then .next s else
  let n := s.ports[p].pdelaySeq
  .next ((s.gptpSend p [(2, n, s.time)]).modPort p (fun q => { q with pdelaySeq := (n + 1) % 65536 }))

/-- A gPTP message received: Pdelay_Req is answered in two steps; Announce and what a master has no use for is dropped. -/
def State.gptpReceive (s : State) (p : PortId) (pl : List Byte) : State :=
  if pl.length < 34 then s
  else if leAt pl 0 1 % 16 = 2 ∧ leAt pl 4 1 = 0 then
    let n := beNat ((pl.drop 30).take 2)
    s.gptpSend p [(4, n, s.time), (3, n, s.time)]
  else s

/-! ### SRP packets (R79, R82, R85 to R92, R111) -/

/-- The first serial number that differs (R111). -/
def State.serialCheck (s : State) (p : PortId) (ser : Nat) : State :=
  if ser = s.rd64 (Reg.portHeadSerial p) ∨ s.bit (Reg.portState p) 3 then s else
  let v := s.fld (Reg.portState p) 5 0
  let v := putBits v 3 3 1
  let s := s.setPortBits p (if bitsN v 2 1 = 2 then putBits v 2 1 1 else v)
  let s := s.putB (Reg.portCtrl p) 4 false
  s.logEvent 0x10 p 0 ser

/-- The phase check of a first-of-sweep packet (R79): its time against the nearest boundary plus the phase offset programmed into the head.
No command carries firmware's private write of that offset (Table 03-4), so the port takes it as a free value below the period
(log 96). -/
def State.phaseCheck (s : State) (p : PortId) (t : Nat) : State :=
  let per := max 1 s.frm.period
  let (b, s) := s.freeBits 32
  let s := s.modPort p (fun q => { q with phase := b * 1000 % per })
  let d := ((t : Int) - s.frm.lastB - s.ports[p].phase) % per
  let d := min d (per - d)
  if 100000 < d then s.count (Cnt.portCntPhase p) else s

/-- Late and future returns of a packet counted as it arrives (R91, R92), and the returns that are neither. -/
def State.lateFuture (s : State) (p : PortId) (pkt : List Byte) : State :=
  let times := (List.range (srpCount pkt)).map (srpTime pkt)
  let fut := fun (t : Nat) => decide (s.futureFrom ≤ t)
  let w := s.lateWindow
  let late := fun (t : Nat) =>
    if s.frm.lastB ≤ t then false
    else if s.frm.prevB ≤ t then decide (s.frm.lastB + w < s.time)
    else true
  let s := s.count (Cnt.portCntFuture p) (times.filter fut).length
  s.count (Cnt.portCntLate p) (times.filter late).length

/-- Whether a packet has no return of a live frame while no further epoch opens (R149). -/
def State.noLiveFrame (s : State) (pkt : List Byte) : Bool :=
  s.frm.nextOpen.isNone &&
    !((List.range (srpCount pkt)).any (fun i => s.frm.live.any (fun e => e.frame == s.frameOf (srpTime pkt i))))

/-- A packet that passed its checks put in the store, or lost for want of a slot (R115, R117); one of no live frame is not stored
while no epoch opens (R149). -/
def State.storeOrDrop (s : State) (p : PortId) (pkt : List Byte) : State :=
  if s.noLiveFrame pkt then s
  else
    let s := s.lateFuture p pkt
    match s.slotFree with
    | some slot => s.storePacket p pkt slot
    | none =>
      let n := srpCount pkt
      let s := s.count (Cnt.ingCntPsfull p) n
      (List.range n).foldl (fun (s : State) i => s.psLoss (s.frameOf (srpTime pkt i)) p 1) s

/-- d of R87: 1 where the packet sets the reference (R88). -/
def seqDelta (ref : Option Nat) (seq : Nat) : Nat :=
  match ref with
  | none => 1
  | some l => (seq + 2 ^ 32 - l) % 2 ^ 32

/-- An SRP packet: the checks of Table 03-3 in order, then acceptance. -/
def State.srpReceive (s : State) (p : PortId) (pl : List Byte) : State :=
  if pl.length < 36 ∨ leAt pl 0 2 ≠ 0x5253 ∨ leAt pl 2 1 ≠ 1 then s.count (Cnt.portCntHdr p)
  else
    let n := srpCount pl
    if 180 < n ∨ pl.length < 36 + 8 * n then s.count (Cnt.portCntLen p)
    else if crc32c (pl.take (32 + 8 * n)) ≠ leAt pl (32 + 8 * n) 4 then s.count (Cnt.portCntCrc p)
    else
      let ser := leAt pl 8 8
      let s := s.serialCheck p ser
      let st := leAt pl 0x1C 2
      if s.headOf p ≠ 2 ∨ ser ≠ s.rd64 (Reg.portHeadSerial p) then s.count (Cnt.portCntUnver p)
      else if bitN st 3 then (s.putB (Reg.portState p) 6 true).count (Cnt.portCntTunl p)
      else
        let seq := leAt pl 0x18 4
        let d := seqDelta s.ports[p].seqRef seq
        if d = 0 ∨ 2 ^ 31 ≤ d then s.count (Cnt.portCntDup p)
        else
          let s := s.count (Cnt.portCntLost p) (d - 1)
          let s := s.modPort p (fun q => { q with seqRef := some seq, litNow := q.litNow || bitN st 0 })
          let s := s.putB (Reg.portState p) 6 false
          let s := if bitN (leAt pl 3 1) 0 then s.phaseCheck p (leAt pl 0x10 8) else s
          s.storeOrDrop p (pl.take (36 + 8 * n))

/-- ETH_FRAME_RECEIVE (R72 to R74): FCS first, then size, then the EtherType; one 802.1Q tag is stripped. `frame` runs from
the destination address to the last byte before the FCS. -/
def execEthFrameReceive (p : PortId) (fcsOk : Bool) (frame : List Byte) (s : State) : Outcome State Fault Refusal :=
  if ¬ s.alive then .next s else
  if ¬ s.portOn p then .next s
  else if ¬ fcsOk then .next (s.count (Cnt.portCntFcs p))
  else if 1522 < frame.length + 4 then .next (s.count (Cnt.portCntNonsrp p))
  else
    let et := beNat ((frame.drop 12).take 2)
    let tagged := decide (et = 0x8100)
    let et := if tagged then beNat ((frame.drop 16).take 2) else et
    let pl := frame.drop (if tagged then 18 else 14)
    if frame.length < 14 then .next (s.count (Cnt.portCntNonsrp p))
    else if et = bitsN (s.force Reg.portEtype) 15 0 then .next (s.srpReceive p pl)
    else if et = 0x88F7 then .next (s.gptpReceive p pl)
    else .next (s.count (Cnt.portCntNonsrp p))

/-! ### I3C (R94) -/

/-- A dynamic address of the seven bits I3C gives: the controller chooses it, and the spec does not say how (log 118). -/
def State.entdaa (s : State) (bus : Fin 2) (head : Fin 4) : State :=
  let (a, s) := s.freeBits 7
  let c := s.i3c[bus]
  { s with i3c := s.i3c.set bus { c with hotJoin := c.hotJoin ||| 2 ^ head.val, addr := c.addr.set head (some a) } }

/-- I3C_HOT_JOIN: a head of a bus asks to join, and ENTDAA gives it a dynamic address. -/
def execI3cHotJoin (bus : Fin 2) (head : Fin 4) (s : State) : Outcome State Fault Refusal :=
  if ¬ s.alive then .next s else
  if s.gaitN = 0 then .next s else
  .next (s.entdaa bus head)

/-- I3C_IN_BAND_INTERRUPT. -/
def execI3cInBandInterrupt (bus : Fin 2) (head : Fin 4) (s : State) : Outcome State Fault Refusal :=
  if ¬ s.alive then .next s else
  if s.gaitN = 0 then .next s else
  .next { s with i3c := s.i3c.set bus { s.i3c[bus] with ibi := s.i3c[bus].ibi ||| 2 ^ head.val } }

end Sys2Proof.Machine
end

