-- ==== Sys2Proof/Machine/TileMem.lean ====
section
/-! DEFINITION. A tile's memories: the tile store and its segments (R197, R204, R209), translation (R433 to R437), the packages an
address names (R418), and the store buffer (R199 to R201, R206). -/

namespace Sys2Proof.Machine

/-- Bytes of a tile store. -/
def tileStoreBytes : Nat := 0x300000

/-! ### Exception causes, Table 06-3 -/

/-- A cause of exception, in the order of Table 06-3. -/
inductive Cause where
  | illegal | address | translation | window | segment | epoch | token | load
  deriving DecidableEq, Repr

/-- The code TILE_EXC gives a cause. -/
def Cause.code : Cause → Nat
  | .illegal => 1 | .address => 2 | .translation => 3 | .window => 4
  | .segment => 5 | .epoch => 6 | .token => 7 | .load => 8

/-- What an access comes to besides its value: it may be made, it needs a page walk first, or it raises an exception at an
address. -/
inductive Acc3 (α : Type) where
  | ok (v : α)
  | miss (vaddr : Nat) (store : Bool)
  | fault (c : Cause) (addr : Nat)
  deriving DecidableEq, Repr

/-- Sequencing of accesses. -/
def Acc3.bind {α β : Type} (x : Acc3 α) (f : α → Acc3 β) : Acc3 β :=
  match x with
  | .ok v => f v
  | .miss a st => .miss a st
  | .fault c a => .fault c a

/-- Whether every member of a list passes a check, else the first that does not. -/
def Acc3.all {α : Type} (f : α → Acc3 Unit) : List α → Acc3 Unit
  | [] => .ok ()
  | a :: r => (f a).bind (fun _ => Acc3.all f r)

/-! ### The tile store -/

/-- What an unlisted byte of a tile store reads as: 0, or a free value once the contents were lost (log 10). -/
def Tile.storeDflt (tl : Tile) (a : Nat) : Byte :=
  match tl.storeFill with
  | none => 0
  | some b => BitVec.ofNat 8 (Config.freeNat (b + a))

/-- One byte of the tile store: 0 in a void line (R209). -/
def Tile.tsByte (tl : Tile) (a : Nat) : Byte :=
  if tl.voids.contains (a / 64) then 0 else spGet tl.storeDflt tl.store a

/-- `n` bytes of the tile store. -/
def Tile.ts (tl : Tile) (a n : Nat) : List Byte := (List.range n).map (fun i => tl.tsByte (a + i))

/-- A little-endian number in the tile store. -/
def Tile.tsNat (tl : Tile) (a n : Nat) : Nat := leNat (tl.ts a n)

/-- A void line that is written: its 64 bytes become zeros first. -/
def Tile.unvoid (tl : Tile) (line : Nat) : Tile :=
  if tl.voids.contains line then
    { tl with
      voids := tl.voids.filter (· ≠ line)
      store := (List.range 64).foldl (fun m i => spSet tl.storeDflt m (line * 64 + i) 0) tl.store }
  else tl

/-- One byte written. -/
def Tile.tsPut (tl : Tile) (a : Nat) (b : Byte) : Tile :=
  let tl := tl.unvoid (a / 64)
  { tl with store := spSet tl.storeDflt tl.store a b }

/-- Bytes written from `a` on. -/
def Tile.tsPuts (tl : Tile) (a : Nat) : List Byte → Tile
  | [] => tl
  | b :: r => (tl.tsPut a b).tsPuts (a + 1) r

/-- Whether a tag is the newer live epoch's at a tile. -/
def State.isNewer (s : State) (t : Nat) (g : Nat) : Bool :=
  s.bit (Reg.tileEpoch t) 17 && decide (s.fld (Reg.tileEpoch t) 15 8 = g)

/-- Whether work of a tag may read or write segment `k` (R204). -/
def State.segMay (s : State) (t : Nat) (tag : Option Nat) (write : Bool) (k : Nat) : Bool :=
  let st := s.segState t k
  match tag with
  | none => st == 0
  | some g => st == g % 2 + 1 || (!write && (st == 0 || s.isNewer t g))

/-- The checks of a tile-store access of `n` bytes (R197, R204). -/
def State.tsCheck (s : State) (t : Nat) (tag : Option Nat) (write : Bool) (a n : Nat) : Acc3 Unit :=
  if n = 0 then .ok ()
  else if tileStoreBytes < a + n then .fault .address a
  else Acc3.all (fun k => if s.segMay t tag write k then .ok () else .fault .segment a)
    ((List.range ((a + n - 1) / 65536 + 1)).drop (a / 65536))

/-- Whether a tile may access `n` bytes at a physical address: memory or the PCI Express window of this package, or what is not
reserved or control space on another member (R418 to R420). -/
def State.tileMay (s : State) (pa n : Nat) : Bool :=
  match s.whereIs pa with
  | .here a => s.memRange a n || (s.area a == Area.pcie && s.area (a + n - 1) == Area.pcie)
  | .member _ a => remoteMay a n
  | .nowhere => false

/-! ### Translation (R433 to R437) -/

/-- The ASID of the root in force. -/
def Tile.asid (tl : Tile) : Nat := bitsN tl.satp 59 44

/-- The TLB entry that covers an address. -/
def Tile.tlbHit (tl : Tile) (va : Nat) : Option TlbEntry :=
  tl.tlb.find? (fun e => e.asid == tl.asid && decide (e.vbase ≤ va ∧ va < e.vbase + e.size))

/-- A device virtual address translated by the TLB. -/
def Tile.xlate (tl : Tile) (va : Nat) (store : Bool) : Acc3 Nat :=
  if bitsN tl.satp 63 60 ≠ 9 then .fault .translation va
  else match tl.tlbHit va with
    | some e => if store && !e.write then .fault .translation va else .ok (e.pbase + (va - e.vbase))
    | none => .miss va store

/-- A device access of `n` bytes within one page: translated, and lying where a tile may access. -/
def State.devAddr (s : State) (t : TileId) (va n : Nat) (store : Bool) : Acc3 Nat :=
  (s.tiles[t].xlate va store).bind (fun pa => if s.tileMay pa n then .ok pa else .fault .address va)

/-- What a PTE read comes to: a PTE, from the walker's cache or from memory, or none; `lost` where the walker met a reserved address
or an uncorrectable word (R659). -/
inductive PteRead where
  | pte (v : Nat) (cached : Bool)
  | none_ (lost : Bool)
  deriving DecidableEq, Repr

/-- One read of a PTE (R437, R659). -/
def State.readPte (s : State) (asid a : Nat) : PteRead × State :=
  match s.walker.find? (fun c => c.1 == asid && c.2.1 == a) with
  | some c => (.pte c.2.2 true, s)
  | none =>
    match s.whereIs a with
    | .here l =>
      if s.memRange l 8 then
        let bad := s.mem.badIn l 8
        if bad.isEmpty then (.pte (leNat (s.mem.bytes l 8)) false, s.countSoft l 8) else (.none_ true, s.readMeets l 8)
      else if s.area l = Area.reserved then (.none_ true, s.count Cnt.evtCntEngAddr)
      else (.none_ false, s)
    | .member _ _ => (.none_ false, s)
    | .nowhere => (.none_ true, s.count Cnt.evtCntEngAddr)

/-- A non-leaf PTE kept by the walker: at most 256, oldest dropped. -/
def State.keepPte (s : State) (asid a v : Nat) : State :=
  { s with walker := (if 256 ≤ s.walker.length then s.walker.drop 1 else s.walker) ++ [(asid, a, v)] }

/-- What a walk comes to: the entry to install, or a translation fault, with whether the walker lost a datum (R659). -/
inductive WalkEnd where
  | entry (e : TlbEntry)
  | fault (lost : Bool)
  deriving DecidableEq, Repr

/-- A walk from level `l` (3 at the root) down (R434, R435). -/
def State.walk (s : State) (asid va : Nat) (store : Bool) : Nat → Nat → WalkEnd × State
  | 0, _ => (.fault false, s)
  | l + 1, ppn =>
    let a := ppn * 4096 + 8 * bitsN va (12 + 9 * l + 8) (12 + 9 * l)
    match s.readPte asid a with
    | (.none_ lost, s) => (.fault lost, s)
    | (.pte pte cached, s) =>
      let bit := fun i => bitN pte i
      let next := bitsN pte 53 10
      if !(bit 0) || (bit 2 && !(bit 1)) || bitsN pte 63 54 ≠ 0 then (.fault false, s)
      else if !(bit 1) && !(bit 2) && !(bit 3) then
        if bit 4 || bit 6 || bit 7 then (.fault false, s)
        else
          let s := if cached then s else s.keepPte asid a pte
          s.walk asid va store l next
      else
        let size := 4096 * 512 ^ l
        let pb := next * 4096
        if l = 3 ∨ ¬ (bit 1 && bit 4 && bit 6) ∨ (store ∧ ¬ (bit 2 && bit 7)) ∨ pb % size ≠ 0 ∨ 2 ^ 44 ≤ pb then (.fault false, s)
        else (.entry ⟨asid, va / size * size, size, pb, bit 2 && bit 7⟩, s)

/-- A whole walk for a tile: Sv48 addresses are sign-extended from bit 47. -/
def State.walkFor (s : State) (tl : Tile) (va : Nat) (store : Bool) : WalkEnd × State :=
  let top := va / 2 ^ 47
  if top ≠ 0 ∧ top ≠ 2 ^ 17 - 1 then (.fault false, s) else s.walk tl.asid va store 4 (bitsN tl.satp 43 0)

/-- Walker slots in use, of sixteen (Table 01-1, R436). -/
def State.walkSlots (s : State) : Nat := s.tiles.foldl (fun n tl => n + (tl.walks.filter (·.slot)).length) 0

/-- A miss recorded for its walk and counted; a free slot serves it at once, else it waits (R436). -/
def State.addWalk (s : State) (t : TileId) (va : Nat) (store : Bool) (seq : Option Nat) (pf : Bool := false) (tag : Option Nat := none) : State :=
  if s.tiles[t].walks.any (fun w => w.vaddr / 4096 == va / 4096 && w.seq == seq && w.store == store && w.pf == pf) then s
  else
    let free := decide (s.walkSlots < 16)
    (s.count64 (Reg.tileCntTlbmiss t)).modTile t (fun tl => { tl with walks := tl.walks ++ [⟨va, store, seq, pf, tag, free⟩] })

/-- A TLB entry installed: at most 64, the oldest dropped (log 31). -/
def Tile.tlbPut (tl : Tile) (e : TlbEntry) : Tile :=
  let keep := tl.tlb.filter (fun x => !(x.asid == e.asid && x.vbase == e.vbase && x.size == e.size))
  { tl with tlb := (if 64 ≤ keep.length then keep.drop 1 else keep) ++ [e] }

/-! ### Bond ports (R466, R477) -/

/-- Logical ports of a die in service (TILE_DIE_STAT[15:8]). -/
def State.diePorts (s : State) (d : Nat) : Nat := s.fld (Reg.tileDieStat d) 15 8

/-- The port of a mask that carries the share of port `p`: the next in service counting upward modulo 8 (R477). -/
def firstPort (mask p : Nat) : Nat := (((List.range 8).map (fun i => (p + i) % 8)).find? (bitN mask)).getD p

/-- The logical port of a die by which an access to memory crosses the bond (R466, R477). -/
def State.bondPort (s : State) (d a : Nat) : Nat := firstPort (s.diePorts d) (bitsN a 8 6)

/-- The logical port of a die that carries control space (R466); lookups, which name no address, take it too (log 122). -/
def State.controlPort (s : State) (d : Nat) : Nat := firstPort (s.diePorts d) 0

/-- Whether new bond traffic of a tile's die is held: flits are still in flight by a port that has left service, for at most 2 µs
(R477). -/
def State.bondHeld (s : State) (t : TileId) : Bool :=
  decide (s.time < s.stack.holdT.toList.getD (t.val / 16) 0)
    && (List.finRange 32).any (fun k => k.val / 16 == t.val / 16 && (s.tiles[k].loads.any (·.hold) || s.tiles[k].gathers.any (·.hold)))

/-! ### Outstanding requests of Hoard (R306, R314, R319, R329) -/

/-- Whether a request accesses table memory. -/
def GatherReq.memory (q : GatherReq) : Bool := q.look.isNone && !(q.form == 4 || q.form == 5)

/-- Whether a request holds an outstanding slot of its own: a piece of a prefetched row stands under its row's. -/
def GatherReq.onSlot (q : GatherReq) : Bool := q.home.isSome && !(q.form == 4 || q.form == 5 || q.form == 7)

/-- The rows that hold an outstanding slot, with their homes. -/
def Tile.pfOut (tl : Tile) : List (Prefetch × Nat × Nat) := tl.prefetch.flatMap (fun p => p.out.map (fun x => (p, x.1, x.2)))

/-- Outstanding slots in use, of 128: one for each row a request is out for, lookups and prefetched rows among them (R306, R314,
R319, R329). -/
def Tile.slotsUsed (tl : Tile) : Nat :=
  ((tl.gathers.filter (·.onSlot)).map (fun q => (q.seq, q.elem))).dedup.length + tl.pfOut.length

/-! ### The store buffer -/

/-- Whether a store of `n` bytes at a physical address lies in the window of its tag's parity (R206); a window whose base is
unset holds nothing (R660). -/
def State.inWindow (s : State) (t : Nat) (tag : Option Nat) (pa n : Nat) : Bool :=
  match tag with
  | none => true
  | some g =>
    let base := s.rd64 (Reg.tileSpwBase t (g % 2)) / 4096 * 4096
    let size := s.rd64 (Reg.tileSpwSize t (g % 2)) / 4096 * 4096
    !(s.isUnset (Reg.tileSpwBase t (g % 2)) 2) && decide (base ≤ pa ∧ pa + n ≤ base + size)

/-- Bytes put over those of an entry, by offset in the line. -/
def overBytes (off : Nat) (bs : List Byte) (m : List Host.Cell) : List Host.Cell :=
  bs.zipIdx.foldl (fun m x => spIns (off + x.2) x.1 (spDel (off + x.2) m)) m

/-- The youngest entry of a line. -/
def Tile.sbLast (tl : Tile) (line : Nat) : Option SbEntry := tl.sb.reverse.find? (fun e => e.line == line)

/-- A store entered into the store buffer: merged into the youngest entry of its line where R199 allows, else in a new entry;
none where all 32 entries are taken. The bytes lie in one line. -/
def Tile.sbPut (tl : Tile) (pa : Nat) (bs : List Byte) (tag : Option Nat) : Option Tile :=
  let line := pa / 64 * 64
  let fresh := fun (_ : Unit) =>
    if 32 ≤ tl.sb.length then none
    else some { tl with sb := tl.sb ++ [⟨line, overBytes (pa % 64) bs [], tag, tl.sbGen, false, []⟩] }
  match tl.sbLast line with
  | some e =>
    if !e.accepted && e.tag == tag && e.gen == tl.sbGen then
      let n := (tl.sb.reverse.takeWhile (fun x => x.line != line)).length
      let i := tl.sb.length - 1 - n
      some { tl with sb := tl.sb.set i { e with bytes := overBytes (pa % 64) bs e.bytes } }
    else fresh ()
  | none => fresh ()

/-- Bytes a load takes from the youngest matching entry (R200), by offset from its address. -/
def Tile.forward (tl : Tile) (pa n : Nat) : List Host.Cell :=
  match tl.sbLast (pa / 64 * 64) with
  | none => []
  | some e => (e.bytes.filter (fun c => decide (pa % 64 ≤ c.1 ∧ c.1 < pa % 64 + n))).map (fun c => (c.1 - pa % 64, c.2))

/-- Bytes with the forwarded ones in place. -/
def mergeFwd (bs : List Byte) (fwd : List Host.Cell) : List Byte :=
  bs.zipIdx.map (fun x => match fwd.find? (fun c => c.1 == x.2) with | some c => c.2 | none => x.1)

/-- A tile's read of local memory, by 64-byte lines, or of the PCI Express window: zeros in place of a line that holds an
uncorrectable word (R425), whether such a word was met; free values from the window (log 32). -/
def State.tileRead (s : State) (a n : Nat) : List Byte × Bool × State :=
  if s.area a = Area.pcie then
    let (b, s) := s.fresh n
    ((List.range n).map (fun i => BitVec.ofNat 8 (Config.freeNat (b + i))), false, s)
  else
    let lo := a / 64 * 64
    let len := (a + n + 63) / 64 * 64 - lo
    let bad := s.mem.badIn lo len
    if bad.isEmpty then (s.mem.bytes a n, false, s.countSoft lo len)
    else
      let hit := fun (i : Nat) => bad.any (fun w => w.1 / 64 == i / 64)
      ((List.range n).map (fun i => if hit (a + i) then 0 else s.mem.byte (a + i)), true, s.readMeets lo len)

/-- A write to the PCI Express outbound window: bus address is physical address less 0x1_0000_0000 (Table 13-1). -/
def State.pcieWrite (s : State) (a : Nat) (cells : List Host.Cell) : State :=
  { s with pcie := { s.pcie with sent := s.pcie.sent ++ cells.map (fun c => .write (a + c.1 - 0x100000000) [c.2] false) } }

/-- The frame a tag serves commits with DEGRADED. -/
def State.degradeTag (s : State) (tag : Option Nat) : State :=
  match tag with
  | none => s
  | some g => match s.frm.live.find? (fun e => e.frame % 256 == g) with
    | some e => s.degrade e.frame
    | none => s

end Sys2Proof.Machine
end

