-- ==== Sys2Proof/Machine/Contain.lean ====
section
/-! DEFINITION. The reorder window, tokens, and the containment of exceptions (R190 to R196, R211 to R214, R381 to R386). -/

namespace Sys2Proof.Machine

/-! ### Tokens (R194 to R196) -/

/-- The value of a token counter. -/
def State.tok (s : State) (t k : Nat) : Nat := s.fld (Reg.tileToken t k) 15 0

/-- `n` added to a counter: it saturates, and its bit in TILE_TOK_OVF is set; whether it overflowed. -/
def State.tokAdd (s : State) (t k n : Nat) : Bool × State :=
  let v := s.tok t k + n
  if v ≤ 65535 then (false, s.put (Reg.tileToken t k) v)
  else (true, (s.put (Reg.tileToken t k) 65535).orReg (Reg.tileTokOvf t) (2 ^ k))

/-! ### The window -/

/-- Whether place `a` comes before place `b`: two 7-bit sequence numbers compared modulo 128 (R191). -/
def seqBefore (a b : Nat) : Bool := decide (0 < (b + 128 - a % 128) % 128 ∧ (b + 128 - a % 128) % 128 < 64)

/-- Whether an instruction returns a scalar result to RD. -/
def UOp.scalar : UOp → Bool
  | .vlane | .vrsum | .qmrgU | .qmrgI | .qsort | .hupdQ8 | .hupdQ4 => true
  | _ => false

/-- Whether a unit instruction accesses device memory or is a Hoard instruction, as FENCE.SB and FENCE.SC hold back. -/
def UOp.fenced (op : UOp) (imm : Nat) : Bool :=
  match op with
  | .vld | .vst => bitN imm 2
  | .lblSt | .gath | .gathR | .gathQ8 | .gathQ4 | .gathPf | .hlook | .scat | .hpref | .hupdQ8 | .hupdQ4 => true
  | _ => false

/-- The G register that a unit instruction will write, if any. -/
def UEntry.dest (u : UEntry) : Option Nat := if u.op.scalar ∧ u.args.rd ≠ 0 then some u.args.rd.toNat else none

/-- Unit instructions issued whose effect is not complete: those of the window, the faulting one, and those of the replay
record. -/
def Tile.openU (tl : Tile) : List UEntry := tl.window ++ (tl.exc.bind (·.entry)).toList ++ tl.replay

/-- The pending registers (R370): destinations of unit instructions, of those too that the handler keeps in its replay
record. -/
def Tile.pendMask (tl : Tile) : Nat :=
  let ds := tl.openU.filterMap UEntry.dest
  (List.range 32).foldl (fun m i => if ds.contains i then m + 2 ^ i else m) 0

/-- Whether a register awaits a device load of the control core (R371). -/
def Tile.loadWaits (tl : Tile) (i : Nat) : Bool := decide (i ≠ 0) && tl.loads.any (fun l => l.vec.isNone && l.dst == i)

/-- How many registers are pending. -/
def Tile.pendCount (tl : Tile) : Nat := ((List.range 32).filter (bitN tl.pendMask)).length

/-- A G register written; G0 keeps 0 (R365). -/
def Tile.setG (tl : Tile) (i : Nat) (v : W64) : Tile :=
  if h : i < 32 then (if i = 0 then tl else { tl with g := tl.g.set i v h }) else tl

/-- A G register read. -/
def Tile.getG (tl : Tile) (i : Nat) : W64 := tl.g.toList.getD i 0

/-- Whether an instruction still stands in a queue: a SWAP leaves each queue as its member arms (R405). -/
def UEntry.inQ (u : UEntry) (q : Nat) : Bool := u.queues.contains q && !(u.armed.contains q)

/-- The first instruction in a queue that has not started. -/
def Tile.head (tl : Tile) (q : Nat) : Option UEntry := tl.window.find? (fun u => u.inQ q && !u.started)

/-- The first instruction in a queue. -/
def Tile.first (tl : Tile) (q : Nat) : Option UEntry := tl.window.find? (fun u => u.inQ q)

/-- The copy of an instruction that goes to the replay record (R381): as issued, nothing of it done, but for the members of a
SWAP that have armed and a weight load that has completed and signalled. -/
def UEntry.copy (u : UEntry) : UEntry :=
  { u with
    started := false, consumed := u.op.isWld && u.done != 0, banks := [], done := if u.op.isWld then u.done else 0, touched := [], buf := [], ret := 0, wrote := false
    takes := false, drain := [], rows := [] }

/-- A window entry changed. -/
def Tile.modU (tl : Tile) (seq : Nat) (f : UEntry → UEntry) : Tile :=
  { tl with window := tl.window.map (fun u => if u.seq = seq then f u else u) }

/-- An instruction taken out of the window: remembered while an older one stays (R212). -/
def Tile.leave (tl : Tile) (seq : Nat) (retired : Bool) : Tile :=
  let w := tl.window.filter (fun u => u.seq ≠ seq)
  let oldest := w.foldl (fun m u => min m u.seq) tl.nextSeq
  let r := if retired then seq :: tl.retired else tl.retired
  { tl with window := w, retired := r.filter (fun x => decide (oldest < x)) }

/-- What an instruction is to the fences: a device-memory load or store of the control core, a unit instruction of either
kind, or another. -/
inductive FenceClass where
  | coreMem | unitMem | unit | other
  deriving DecidableEq, Repr

/-- Whether an outstanding fence holds an instruction back (Table 12-5). -/
def Tile.held (tl : Tile) (c : FenceClass) : Bool :=
  tl.fences.any (fun f => !(f.met tl) && (match f.kind, c with
    | 3, _ => true
    | 2, .unit => true
    | 2, .unitMem => true
    | 2, _ => false
    | _, .coreMem => true
    | _, .unitMem => true
    | _, _ => false))

/-! ### Retirement and items (R194, R217, R377) -/

/-- An instruction of the tile has retired: the watchdog counts again from here. -/
def State.retiredAt (s : State) (t : TileId) : State := s.modTile t (fun tl => { tl with lastRetire := s.time })

/-! ### Waiters on a counter (R194, R195) -/

/-- Whether an exception keeps an instruction from starting: one younger than it that has not taken its wait (R211). -/
def Tile.blocked (tl : Tile) (u : UEntry) : Bool :=
  match tl.exc with
  | some x => seqBefore x.seq u.seq && !u.consumed
  | none => false

/-- The waiter a queue's head is: the counter and count it still has to take, unless an exception keeps it from starting, it is not
at the head of every queue it stands in (a SWAP waits in each queue apart), or it has been counted at a lower queue. -/
def Tile.waiter (tl : Tile) (ok : UEntry → Bool) (q : Nat) : Option (Nat × Nat) :=
  match tl.head q with
  | none => none
  | some u =>
    let first := (List.range q).all (fun k => (tl.head k).map (·.seq) != some u.seq)
    let whole := u.op == .swap || u.queues.all (fun k => (tl.head k).map (·.seq) == some u.seq)
    if !u.consumed && u.args.wc != 0 && ok u && first && whole then some (u.args.wt.toNat, u.args.wc.toNat) else none

/-- What counter `k` holds once the eligible waiters of the queues below `lim` have each taken their count, Q0 first (R195). -/
def State.tokLeft (s : State) (t : TileId) (ok : UEntry → Bool) (k lim : Nat) : Nat :=
  (List.range lim).foldl (fun v q =>
    match s.tiles[t].waiter ok q with
    | some (k', c) => if k' = k ∧ c ≤ v then v - c else v
    | none => v) (s.tok t k)

/-! ### Raising and containing an exception (R211, R212) -/

/-- An exception of the control core or of a unit. -/
structure Exc where
  cause : Cause
  addr : Nat
  deriving DecidableEq, Repr

/-- Newer-epoch state of a tile discarded, its work handed back, when an exception is contained (step 5 of R211). -/
def State.localRein (s : State) (t : TileId) : State :=
  let e := s.rd (Reg.tileEpoch t)
  if ¬ bitN e 17 then s
  else
    let g := bitsN e 15 8
    let s := s.discardEpoch t g
    let s := match s.frm.live.find? (fun x => x.frame % 256 == g) with
      | some x =>
        let run := s.tiles[t].runsFrame x.frame
        let s := s.handBack t x.frame
        if run then (s.modTile t (fun tl => { tl with ctx := none })).putB (Reg.tileEpoch t) 18 false else s
      | none => s
    (s.count (Cnt.tileCntLrein t)).settleFences t

/-- TILE_EXC of a record (Table 06-4). -/
def ExcRec.word (x : ExcRec) : Nat :=
  x.cause + 2 ^ 4 * (x.unit.getD 7) + 2 ^ 7 * b2n x.unit.isNone + 2 ^ 8 * (x.seq % 128) + 2 ^ 16 * min 63 x.younger

/-- An exception raised while the handler runs (R214): every item of both epochs in the tile is abandoned for the frame, and
with them the item the handler served. Other untagged items of the tile stay (log 50). -/
def State.handlerExc (s : State) (t : TileId) (word addr : Nat) : State :=
  let served := s.tiles[t].faulting
  let gone := fun (w : Work) => w.frame.isSome || served == some w
  let its := s.tiles[t].items.filter gone
  let fs := (its.filterMap (·.frame)).eraseDups
  let s := (s.count (Cnt.tileCntExc t)).count (Cnt.tileCntAbandon t)
  let s := s.logEvent 0x21 t.val 0 word
  let s := (s.put (Reg.tileExc t) word).put64 (Reg.tileExcAddr t) addr
  let s := s.modTile t (fun tl => { (tl.dropWork gone) with exc := none, replay := [], ctx := none, pc := tl.resumePc })
  let s := ((s.put (Reg.tileHstat t) 0).putB (Reg.tileEpoch t) 18 false).settleFences t
  let s := (its.filter (fun w => w.frame.isNone)).foldl (fun (s : State) w => (s.count Cnt.tileSchedCntLost).untagNext w.buf w.idx) s
  let s := fs.foldl (fun (s : State) f => (s.loseItems f ((its.filter (fun w => w.frame == some f)).map (·.idx))).degrade f) s
  s.startItem t

/-- An instruction goes into the replay record as unstarted, and the wait it had consumed is restored (R381, R385). -/
def State.toReplay (s : State) (t : TileId) (e : UEntry) : State :=
  let s := if e.consumed then (s.tokAdd t e.args.wt.toNat e.args.wc.toNat).2 else s
  s.modTile t (fun tl => { tl with replay := tl.replay ++ [e.copy], window := tl.window.filter (fun v => v.seq ≠ e.seq) })

/-- An exception recorded: issue stops at once, the store buffer drops what the newer epoch has not had accepted, and newer
work is handed back. Where another exception is already being contained, the lower place stands and the other instruction
joins the replay record (R385). -/
def State.raise (s : State) (t : TileId) (x : Exc) (u : Option UEntry) (unit : Option Nat) : State :=
  let tl := s.tiles[t]
  let seq := match u with | some u => u.seq | none => tl.nextSeq
  let young := (tl.retired.filter (fun q => decide (seq < q))).length
  let pc := match u with | some u => u.pc | none => tl.pc
  let work := match u with | some u => u.work | none => tl.running
  let rec_ : ExcRec := ⟨x.cause.code, unit, seq, x.addr, pc, young, u, work, false⟩
  let s := if x.cause = .translation then s.count (Cnt.tileCntTfault t) else s
  if s.bit (Reg.tileHstat t) 0 then s.handlerExc t rec_.word x.addr
  else
    let s := s.count (Cnt.tileCntExc t)
    let s := match u with
      | some e => if e.started && tl.window.any (fun v => v.seq == e.seq) then s.abortStarted t e else s
      | none => s
    match tl.exc with
    | some old =>
      if seqBefore seq old.seq then
        let s := match old.entry with | some e => s.toReplay t e | none => s
        let s := s.modTile t (fun tl => { tl with exc := some rec_, window := tl.window.filter (fun v => v.seq ≠ seq) })
        (s.put (Reg.tileExc t) rec_.word).put64 (Reg.tileExcAddr t) x.addr
      else
        match u with
        | some e => s.toReplay t e
        | none => s
    | none =>
      let newer := fun (g : Option Nat) => match g with | some g => s.isNewer t g | none => false
      let s := s.modTile t (fun tl => { tl with
        exc := some rec_, resumePc := tl.pc
        window := tl.window.filter (fun v => v.seq ≠ seq)
        sb := tl.sb.filter (fun e => !(newer e.tag) || e.accepted)
        scat := tl.scat.filter (fun e => !(newer e.tag) || e.accepted) })
      let s := (s.put (Reg.tileExc t) rec_.word).put64 (Reg.tileExcAddr t) x.addr
      s.localRein t

/-- Entries younger than the exception go to the replay record (steps 2 and 3 of R211, R381): the unstarted ones of other units, where
one that has taken its wait counts as started, and every one of the faulting unit's queues, which stops there: what it had
started is aborted and takes its wait afresh (log 52). -/
def State.containWindow (s : State) (t : TileId) : State :=
  match s.tiles[t].exc with
  | none => s
  | some x =>
    let mine := match x.entry with | some e => e.queues | none => []
    let unit := fun (u : UEntry) => u.queues.any (fun q => mine.contains q)
    let out := fun (u : UEntry) => seqBefore x.seq u.seq && (unit u || (!u.started && !u.consumed))
    let gone := s.tiles[t].window.filter out
    gone.foldl (fun (s : State) u => (if u.started then s.abortStarted t u else s).toReplay t u) s

/-- An exception of a unit instruction, contained. -/
def State.raiseU (s : State) (t : TileId) (x : Exc) (u : UEntry) : State :=
  (s.raise t x (some u) (u.queues.head?)).containWindow t

/-- An exception of the control core, contained. -/
def State.raiseC (s : State) (t : TileId) (c : Cause) (addr : Nat) : State :=
  (s.raise t ⟨c, addr⟩ none none).containWindow t

/-- A signal of a counter (R196): its overflow raises a token-overflow exception. -/
def State.signal (s : State) (t : TileId) (k n : Nat) (u : Option UEntry) : State :=
  let (ovf, s) := s.tokAdd t k n
  if ovf then
    match u with
    | some u => s.raiseU t ⟨.token, 0⟩ u
    | none => s.raiseC t .token 0
  else s

/-- HANDLER_ENTRY (R211, R381, R455): once the instructions that still run have retired, and the store buffer and the scatter stage
have drained. -/
def State.enterHandler (s : State) (t : TileId) : State :=
  let tl := s.tiles[t]
  match tl.exc with
  | none => s
  | some x =>
    if s.bit (Reg.tileHstat t) 0 then s
    else if !tl.window.isEmpty || tl.sb.any (fun e => !e.accepted) || tl.scat.any (fun e => !e.accepted) then s
    else
      let wait := match x.entry with
        | some e => if e.consumed then some (e.args.wt.toNat, e.args.wc.toNat) else none
        | none => none
      let s := match wait with
        | some (k, c) => (s.tokAdd t k c).2
        | none => s
      let newer := fun (g : Option Nat) => match g with | some g => s.isNewer t g | none => false
      let own := match x.entry with | some e => [e.copy] | none => []
      let own := own.filter (fun u => !(newer u.tag))
      let after := fun (u : UEntry) => (u.seq + 128 - x.seq % 128) % 128
      let rep := ((own ++ tl.replay).filter (fun u => !(newer u.tag))).mergeSort (fun a b => decide (after a ≤ after b))
      let w := match wait with | some (k, c) => 2 ^ 3 + 2 ^ 4 * k + 2 ^ 8 * c | none => 0
      let h := 1 + 2 * b2n (x.younger == 0 && !x.back) + 4 * b2n x.back + w
      let s := s.put (Reg.tileHstat t) h
      let s := s.put64 (Reg.tileHepc t) (x.pc % 2 ^ 22)
      let vec := s.fld (Reg.tileHvec t) 21 3 * 8
      s.modTile t (fun tl => { tl with pc := vec, replay := rep })

/-- The handler ends: its mode and record go. -/
def State.leaveHandler (s : State) (t : TileId) : State :=
  let s := s.putB (Reg.tileHstat t) 0 false
  s.modTile t (fun tl => { tl with exc := none, replay := [] })

/-- Token counters of an item's set reset (step 3 of R384). -/
def State.clearTokens (s : State) (t : TileId) (w : Option Work) : State :=
  let m := s.rd (Reg.tileEpochTok t)
  let mask := match w with
    | some w => match w.frame with
      | some f => bitsN m (16 * (f % 2) + 15) (16 * (f % 2))
      | none => 65535 - (bitsN m 15 0 ||| bitsN m 31 16)
    | none => 0
  (List.range 16).foldl (fun s k => if bitN mask k then s.put (Reg.tileToken t k) 0 else s) s

/-- An item of the tile ended as lost under R213: the frame carries the degraded flag. -/
def State.abandonItem (s : State) (t : TileId) (w : Work) : State :=
  let s := s.modTile t (fun tl => tl.dropWork (fun x => x == w))
  match w.frame with
  | some f => (s.loseItems f [w.idx]).degrade f
  | none => (s.count Cnt.tileSchedCntLost).untagNext w.buf w.idx

/-- The end of the handler by ABANDON (R384), or by RESUME when RESUMABLE is 0 (R383): the item of the faulting instruction is ended
as lost. Where it was handed back the handler's mode alone ends (R386). Another item that runs goes on after the last
instruction issued (log 52). -/
def State.abandonNow (s : State) (t : TileId) : State :=
  let back := s.bit (Reg.tileHstat t) 2
  let w := s.tiles[t].faulting
  let s := s.leaveHandler t
  let s := if back then s
    else
      let s := (s.clearTokens t w).count (Cnt.tileCntAbandon t)
      match w with
      | some w => s.abandonItem t w
      | none => s
  let s := s.modTile t (fun tl => { tl with pc := tl.resumePc, ctx := if tl.running.isNone then none else tl.ctx })
  let s := if s.tiles[t].running.isNone then s.putB (Reg.tileEpoch t) 18 false else s
  (s.settleFences t).startItem t

/-- The end of the handler by RESUME (R383): the replay record re-enters the queues with new places in issue order, and
issue goes on after the last instruction issued. -/
def State.resumeNow (s : State) (t : TileId) : State :=
  if ¬ s.bit (Reg.tileHstat t) 1 then s.abandonNow t
  else
    let tl := s.tiles[t]
    let again := tl.replay.zipIdx.map (fun x => { x.1.copy with seq := tl.nextSeq + x.2 })
    let s := s.leaveHandler t
    (s.modTile t (fun tl => { tl with window := tl.window ++ again, nextSeq := tl.nextSeq + again.length, pc := tl.resumePc })).startItem t

/-- Whether a weight load of an array has started and not completed. -/
def Tile.loading (tl : Tile) (a : Nat) : Bool := tl.window.any (fun u => u.op.isWld && u.started && u.done == 0 && u.inQ a)

end Sys2Proof.Machine
end

