-- ==== Sys2Proof/Machine/Issue.lean ====
section
/-! DEFINITION. Issue by the control core (R189, R190, R365 to R374): fetch and decode checks, modes, predication, pending registers,
and the entry of a unit instruction into its queues. -/

namespace Sys2Proof.Machine

open Host

/-- The modes an instruction may run in, Table 11-5. -/
inductive ModeGroup where
  | both | item | handler
  deriving DecidableEq, Repr

/-- Whether a tile's control core is in handler mode. -/
def State.inHandler (s : State) (t : Nat) : Bool := s.bit (Reg.tileHstat t) 0

/-- Whether the control core issues: its tile clocked and running an item, or its handler, with no exception being
contained. -/
def State.coreRuns (s : State) (t : TileId) : Bool :=
  let tl := s.tiles[t]
  s.alive && tl.clocked && (s.inHandler t || (tl.running.isSome && tl.exc.isNone))

/-- The fetch check of R366. -/
def State.fetchCheck (s : State) (t : TileId) : Acc3 Unit :=
  let pc := s.tiles[t].pc
  if pc % 8 ≠ 0 then .fault .illegal pc
  else if tileStoreBytes ≤ pc then .fault .address pc
  else if s.segState t (pc / 65536) ≠ 0 then .fault .segment pc
  else .ok ()

/-- Whether a mode group may run now. -/
def State.modeOk (s : State) (t : Nat) (m : ModeGroup) : Bool :=
  match m with
  | .both => true
  | .item => !(s.inHandler t)
  | .handler => s.inHandler t

/-- Whether PMODE lets an instruction issue (R373). -/
def predPass (p : Nat) (pmode : BitVec 2) (pred : BitVec 3) : Bool :=
  if pmode = 0 then true else if pmode = 1 then bitN p pred.toNat else !(bitN p pred.toNat)

/-- The control core moves to the next instruction. -/
def State.advance (s : State) (t : TileId) : State :=
  s.modTile t (fun tl => { tl with pc := (tl.pc + 8) % 2 ^ 64, lastRetire := s.time })

/-- Whether a pending register stalls an instruction that reads or writes the listed registers (R370), or one whose device load
has not returned (R371); in handler mode a read of a pending register does not stall (R382). -/
def State.pendStall (s : State) (t : TileId) (reads writes : List Nat) : Bool :=
  let m := s.tiles[t].pendMask
  (!(s.inHandler t) && reads.any (bitN m)) || writes.any (bitN m) || (reads ++ writes).any s.tiles[t].loadWaits

/-- One control-core instruction: fetch and decode checks, then its predicate, then its stalls, then its effect. `ok` says
that no reserved bit of its layout is set. -/
def State.ccIssue (s : State) (t : TileId) (a : CcArgs) (m : ModeGroup) (ok : Bool) (fc : FenceClass)
    (reads writes : List Nat) (body : State → State) : Outcome State Fault Refusal :=
  if ¬ s.coreRuns t then .next s else
  match s.fetchCheck t with
  | .fault c x => .next (s.raiseC t c x)
  | .miss _ _ => .next s
  | .ok _ =>
    if a.pmode = 3 ∨ ¬ ok ∨ ¬ s.modeOk t m then .next (s.raiseC t .illegal 0)
    else if ¬ predPass s.tiles[t].p a.pmode a.pred then .next (s.advance t)
    else if s.pendStall t reads writes || s.tiles[t].held fc then .next s
    else .next (body s)

/-- The value of RS1. -/
def State.rs1 (s : State) (t : TileId) (a : CcArgs) : W64 := s.tiles[t].getG a.rs1.toNat
/-- The value of RS2. -/
def State.rs2 (s : State) (t : TileId) (a : CcArgs) : W64 := s.tiles[t].getG a.rs2.toNat
/-- The sign-extended immediate. -/
def simm (a : CcArgs) : W64 := a.imm.signExtend 64

/-- RD written and the instruction passed. -/
def State.setRd (s : State) (t : TileId) (a : CcArgs) (v : W64) : State :=
  (s.modTile t (fun tl => tl.setG a.rd.toNat v)).advance t

/-- P[RD] written and the instruction passed. -/
def State.setPd (s : State) (t : TileId) (a : CcArgs) (v : Bool) : State :=
  (s.modTile t (fun tl => { tl with p := putBits tl.p (a.rd.toNat % 8) (a.rd.toNat % 8) (b2n v) })).advance t

/-- A register operation on RS1 and RS2. -/
def State.alu (s : State) (t : TileId) (a : CcArgs) (f : W64 → W64 → W64) : Outcome State Fault Refusal :=
  s.ccIssue t a .both true .other [a.rs1.toNat, a.rs2.toNat] [a.rd.toNat]
    (fun s => s.setRd t a (f (s.rs1 t a) (s.rs2 t a)))

/-- A register operation on RS1 and the immediate. -/
def State.aluI (s : State) (t : TileId) (a : CcArgs) (f : W64 → W64 → W64) : Outcome State Fault Refusal :=
  s.ccIssue t a .both true .other [a.rs1.toNat] [a.rd.toNat] (fun s => s.setRd t a (f (s.rs1 t a) (simm a)))

/-- A jump to a target: bits [2:0] must be 0 (R366). -/
def State.jump (s : State) (t : TileId) (target : W64) (link : Option Nat) : State :=
  let pc := s.tiles[t].pc
  if target.toNat % 8 ≠ 0 then s.raiseC t .illegal target.toNat
  else
    let s := match link with
      | some d => s.modTile t (fun tl => tl.setG d (BitVec.ofNat 64 (pc + 8)))
      | none => s
    s.modTile t (fun tl => { tl with pc := target.toNat, lastRetire := s.time })

/-- The target of a PC-relative branch. -/
def State.branchTo (s : State) (t : TileId) (a : CcArgs) : W64 := BitVec.ofNat 64 s.tiles[t].pc + (simm a)

/-- A compare branch (log 33: the target's alignment is checked whether or not the branch is taken). -/
def State.branch (s : State) (t : TileId) (a : CcArgs) (f : W64 → W64 → Bool) : Outcome State Fault Refusal :=
  s.ccIssue t a .both true .other [a.rs1.toNat, a.rs2.toNat] [] (fun s =>
    let target := s.branchTo t a
    if target.toNat % 8 ≠ 0 then s.raiseC t .illegal target.toNat
    else if f (s.rs1 t a) (s.rs2 t a) then s.jump t target none
    else s.advance t)

/-- A predicate compare: RD names a P register. -/
def State.pcmp (s : State) (t : TileId) (a : CcArgs) (imm : Bool) (f : W64 → W64 → Bool) : Outcome State Fault Refusal :=
  s.ccIssue t a .both (decide (a.rd.toNat < 8)) .other (if imm then [a.rs1.toNat] else [a.rs1.toNat, a.rs2.toNat]) []
    (fun s => s.setPd t a (f (s.rs1 t a) (if imm then (simm a) else s.rs2 t a)))

/-- A predicate operation on P[RS1] and P[RS2]. -/
def State.plog (s : State) (t : TileId) (a : CcArgs) (f : Bool → Bool → Bool) : Outcome State Fault Refusal :=
  s.ccIssue t a .both (decide (a.rd.toNat < 8 ∧ a.rs1.toNat < 8 ∧ a.rs2.toNat < 8)) .other [] []
    (fun s =>
      let p := s.tiles[t].p
      s.setPd t a (f (bitN p a.rs1.toNat) (bitN p a.rs2.toNat)))

/-- The address of a load or store: RS1 + IMM. -/
def State.ea (s : State) (t : TileId) (a : CcArgs) : Nat := (s.rs1 t a + (simm a)).toNat

/-- The tag of an instruction that issues now, with its class (R202, R203): none for untagged work. -/
def State.ctxClass (s : State) (t : TileId) : TagClass :=
  match s.tiles[t].ctx with
  | none => .older
  | some g => s.classify t g

/-- The effect of a load or store as its tag classifies (R202): a stale one is dropped and counted, an invalid one raises. -/
def State.asTagged (s : State) (t : TileId) (body : State → State) : State :=
  match s.ctxClass t with
  | .stale => (s.count (Cnt.tileCntStale t)).advance t
  | .invalid => s.raiseC t .epoch 0
  | _ => body s

/-- A tile-store load (R393). -/
def State.ldtN (s : State) (t : TileId) (a : CcArgs) (n : Nat) : Outcome State Fault Refusal :=
  s.ccIssue t a .both true .other [a.rs1.toNat] [a.rd.toNat] (fun s => s.asTagged t (fun s =>
    let ad := s.ea t a
    if ad % n ≠ 0 then s.raiseC t .address ad
    else match s.tsCheck t s.tiles[t].ctx false ad n with
      | .fault c x => s.raiseC t c x
      | _ => s.setRd t a (BitVec.ofNat 64 (s.tiles[t].tsNat ad n))))

/-- A tile-store store (R393). -/
def State.sttN (s : State) (t : TileId) (a : CcArgs) (n : Nat) : Outcome State Fault Refusal :=
  s.ccIssue t a .both true .other [a.rs1.toNat, a.rs2.toNat] [] (fun s => s.asTagged t (fun s =>
    let ad := s.ea t a
    if ad % n ≠ 0 then s.raiseC t .address ad
    else match s.tsCheck t s.tiles[t].ctx true ad n with
      | .fault c x => s.raiseC t c x
      | _ => (s.modTile t (fun tl => tl.tsPuts ad (toLe (s.rs2 t a).toNat n))).advance t))

/-- A device load (R393): it issues, its destination pending until DEVICE_LOAD_RETURN. -/
def State.ldN (s : State) (t : TileId) (a : CcArgs) (n : Nat) : Outcome State Fault Refusal :=
  s.ccIssue t a .both true .coreMem [a.rs1.toNat] [a.rd.toNat] (fun s => s.asTagged t (fun s =>
    let tl := s.tiles[t]
    let ad := s.ea t a
    if ad % n ≠ 0 then s.raiseC t .address ad
    else match s.devAddr t ad n false with
      | .fault c x => s.raiseC t c x
      | .miss v st => s.addWalk t v st none
      | .ok pa =>
        if s.bondHeld t then s else
        let mk := fun (r : Option Nat) (l : Nat) => (⟨a.rd.toNat, none, l, n, tl.forward pa n, tl.ctx, r, tl.running, none, false⟩ : LoadReq)
        match s.whereIs pa with
        | .member k l =>
          let (tag, s) := s.sciRead k (l / 8 * 8) 3
          (s.modTile t (fun tl => { tl with loads := tl.loads ++ [mk (some tag) pa] })).advance t
        | .here l => (s.modTile t (fun tl => { tl with loads := tl.loads ++ [mk none l] })).advance t
        | .nowhere => s))

/-- A device store (R393): translated, checked against its tag's window, and entered in the store buffer. -/
def State.stN (s : State) (t : TileId) (a : CcArgs) (n : Nat) : Outcome State Fault Refusal :=
  s.ccIssue t a .both true .coreMem [a.rs1.toNat, a.rs2.toNat] [] (fun s => s.asTagged t (fun s =>
    let tl := s.tiles[t]
    let ad := s.ea t a
    if ad % n ≠ 0 then s.raiseC t .address ad
    else match s.devAddr t ad n true with
      | .fault c x => s.raiseC t c x
      | .miss v st => s.addWalk t v st none
      | .ok pa =>
        if ¬ s.inWindow t tl.ctx pa n then s.raiseC t .window ad
        else match tl.sbPut pa (toLe (s.rs2 t a).toNat n) tl.ctx with
          | some tl' => (s.modTile t (fun _ => tl')).advance t
          | none => s.count64 (Reg.tileCntSbfull t)))

/-- A fence (R396): it closes the generations it names and holds later instructions back until its condition holds, when it
retires. -/
def State.fence (s : State) (t : TileId) (a : CcArgs) (kind : Nat) : Outcome State Fault Refusal :=
  s.ccIssue t a .both true .other [] [] (fun s =>
    (s.modTile t (fun tl =>
      let sb := if kind = 0 ∨ kind = 3 then tl.sbGen + 1 else tl.sbGen
      let sc := if kind = 1 ∨ kind = 3 then tl.scatGen + 1 else tl.scatGen
      let want := fun (u : UEntry) => match kind, u.op with
        | 0, _ => false
        | 1, .scat => true
        | 1, .hupdQ8 => true
        | 1, .hupdQ4 => true
        | 1, _ => false
        | _, _ => true
      let f : FenceRec := ⟨kind, (tl.window.filter want).map (·.seq), sb, sc⟩
      { tl with sbGen := sb, scatGen := sc, fences := tl.fences ++ [f], pc := (tl.pc + 8) % 2 ^ 64 })).settleFences t)

/-! ### Unit instructions -/

/-- The queues an array mask names. -/
def maskQueues (m : Nat) : List Nat := (List.range 4).filter (bitN m)

/-- A squashed unit instruction (R373): with SQS it signals at issue; where that overflows, the exception is at its own PC. -/
def State.squash (s : State) (t : TileId) (a : UArgs) : State :=
  if !a.sqs then s.advance t
  else
    let (ovf, s) := s.tokAdd t a.st.toNat 1
    if ovf then s.raiseC t .token 0 else s.advance t

/-- A unit instruction put in the reorder window, behind every other, with the operands as they stand, and passed (R190, R191,
R369). -/
def State.enterWindow (s : State) (t : TileId) (op : UOp) (a : UArgs) (qs : List Nat) : State :=
  let tl := s.tiles[t]
  let u : UEntry := {
    seq := tl.nextSeq, op := op, args := a, queues := qs, tag := tl.ctx, pc := tl.pc
    ga := tl.getG a.ga.toNat, gb := tl.getG a.gb.toNat, gc := tl.getG a.gc.toNat
    work := tl.running, consumed := false, started := false, armed := []
    banks := [], done := 0, touched := [], buf := [], ret := 0, wrote := false
    takes := false, drain := [], ver := s.fld (Reg.hrdTblVer (bitsN a.imm.toNat 12 9)) 15 0, rows := [] }
  (s.modTile t (fun tl => { tl with window := tl.window ++ [u], nextSeq := tl.nextSeq + 1 })).advance t

/-- One unit instruction: fetch and decode checks, its predicate, its stalls, then its entry in the queues `qs` and the
window with the operands as they stand (R190, R191, R369, R370). `gs` are the G registers it reads; `tagOk` is false for
an instruction that may not carry its tag. -/
def State.uIssue (s : State) (t : TileId) (op : UOp) (a : UArgs) (ok : Bool) (qs : List Nat) (gs : List Nat)
    (tagOk : Bool := true) : Outcome State Fault Refusal :=
  if ¬ s.coreRuns t then .next s else
  match s.fetchCheck t with
  | .fault c x => .next (s.raiseC t c x)
  | .miss _ _ => .next s
  | .ok _ =>
    let tl := s.tiles[t]
    if a.pmode = 3 ∨ ¬ ok ∨ s.inHandler t then .next (s.raiseC t .illegal 0)
    else if ¬ predPass tl.p a.pmode a.pred then .next (s.squash t a)
    else
      let dst := if op.scalar then [a.rd.toNat] else []
      let fc := if op.fenced a.imm.toNat then FenceClass.unitMem else FenceClass.unit
      if s.pendStall t gs dst || tl.held fc then .next s
      else if (op.scalar && decide (a.rd ≠ 0) && decide (8 ≤ tl.pendCount)) then .next s
      else if 64 ≤ tl.window.length ∨ qs.any (fun q => decide (16 ≤ (tl.window.filter (fun u => u.inQ q && !u.started)).length)) then
        .next (s.count64 (Reg.tileCntIsstall t))
      else if ¬ tagOk then .next (s.raiseC t .epoch 0)
      else match s.ctxClass t with
        | .stale => .next ((s.count (Cnt.tileCntStale t)).advance t)
        | .invalid => .next (s.raiseC t .epoch 0)
        | _ =>
          .next (s.enterWindow t op a qs)

end Sys2Proof.Machine
end

