-- ==== Sys2Proof/Machine/Berbo.lean ====
section
/-! DEFINITION. The control-core instructions of Berbo (12_berbo_reference.md R392 to R400): integer, load and store, branch, predicate,
token, fence, epoch and system classes. -/

namespace Sys2Proof.Machine

open Host

/-! ### Class 0x01: integer -/

/-- ADD (R392). -/
def execAdd (t : TileId) (a : CcArgs) (s : State) : Outcome State Fault Refusal :=
  s.alu t a (fun x y => x + y)

/-- SUB (R392). -/
def execSub (t : TileId) (a : CcArgs) (s : State) : Outcome State Fault Refusal :=
  s.alu t a (fun x y => x - y)

/-- AND (R392). -/
def execAnd (t : TileId) (a : CcArgs) (s : State) : Outcome State Fault Refusal :=
  s.alu t a (fun x y => x &&& y)

/-- OR (R392). -/
def execOr (t : TileId) (a : CcArgs) (s : State) : Outcome State Fault Refusal :=
  s.alu t a (fun x y => x ||| y)

/-- XOR (R392). -/
def execXor (t : TileId) (a : CcArgs) (s : State) : Outcome State Fault Refusal :=
  s.alu t a (fun x y => x ^^^ y)

/-- SLL (R392). -/
def execSll (t : TileId) (a : CcArgs) (s : State) : Outcome State Fault Refusal :=
  s.alu t a (fun x y => x <<< (y.toNat % 64))

/-- SRL (R392). -/
def execSrl (t : TileId) (a : CcArgs) (s : State) : Outcome State Fault Refusal :=
  s.alu t a (fun x y => x >>> (y.toNat % 64))

/-- SRA (R392). -/
def execSra (t : TileId) (a : CcArgs) (s : State) : Outcome State Fault Refusal :=
  s.alu t a (fun x y => x.sshiftRight (y.toNat % 64))

/-- SLT (signed) (R392). -/
def execSlt (t : TileId) (a : CcArgs) (s : State) : Outcome State Fault Refusal :=
  s.alu t a (fun x y => if x.slt y then 1 else 0)

/-- SLTU (unsigned) (R392). -/
def execSltu (t : TileId) (a : CcArgs) (s : State) : Outcome State Fault Refusal :=
  s.alu t a (fun x y => if x.ult y then 1 else 0)

/-- MIN (signed, log 34) (R392). -/
def execMin (t : TileId) (a : CcArgs) (s : State) : Outcome State Fault Refusal :=
  s.alu t a (fun x y => if y.slt x then y else x)

/-- MAX (signed, log 34) (R392). -/
def execMax (t : TileId) (a : CcArgs) (s : State) : Outcome State Fault Refusal :=
  s.alu t a (fun x y => if x.slt y then y else x)

/-- MUL: bits [63:0] of the product (R392). -/
def execMul (t : TileId) (a : CcArgs) (s : State) : Outcome State Fault Refusal :=
  s.alu t a (fun x y => x * y)

/-- MULH: bits [127:64] of the signed product (R392). -/
def execMulh (t : TileId) (a : CcArgs) (s : State) : Outcome State Fault Refusal :=
  s.alu t a (fun x y => BitVec.ofInt 64 (x.toInt * y.toInt / 2 ^ 64))

/-- ADD.I: with the sign-extended immediate (R392). -/
def execAddI (t : TileId) (a : CcArgs) (s : State) : Outcome State Fault Refusal :=
  s.aluI t a (fun x y => x + y)

/-- AND.I: with the sign-extended immediate (R392). -/
def execAndI (t : TileId) (a : CcArgs) (s : State) : Outcome State Fault Refusal :=
  s.aluI t a (fun x y => x &&& y)

/-- OR.I: with the sign-extended immediate (R392). -/
def execOrI (t : TileId) (a : CcArgs) (s : State) : Outcome State Fault Refusal :=
  s.aluI t a (fun x y => x ||| y)

/-- XOR.I: with the sign-extended immediate (R392). -/
def execXorI (t : TileId) (a : CcArgs) (s : State) : Outcome State Fault Refusal :=
  s.aluI t a (fun x y => x ^^^ y)

/-- SLL.I: with the sign-extended immediate (R392). -/
def execSllI (t : TileId) (a : CcArgs) (s : State) : Outcome State Fault Refusal :=
  s.aluI t a (fun x y => x <<< (y.toNat % 64))

/-- SRL.I: with the sign-extended immediate (R392). -/
def execSrlI (t : TileId) (a : CcArgs) (s : State) : Outcome State Fault Refusal :=
  s.aluI t a (fun x y => x >>> (y.toNat % 64))

/-- SRA.I: with the sign-extended immediate (R392). -/
def execSraI (t : TileId) (a : CcArgs) (s : State) : Outcome State Fault Refusal :=
  s.aluI t a (fun x y => x.sshiftRight (y.toNat % 64))

/-- SLT.I: with the sign-extended immediate (R392). -/
def execSltI (t : TileId) (a : CcArgs) (s : State) : Outcome State Fault Refusal :=
  s.aluI t a (fun x y => if x.slt y then 1 else 0)

/-- LI.H: IMM in bits [63:32], RS1[31:0] below (R392). -/
def execLiH (t : TileId) (a : CcArgs) (s : State) : Outcome State Fault Refusal :=
  s.ccIssue t a .both true .other [a.rs1.toNat] [a.rd.toNat]
    (fun s => s.setRd t a (BitVec.ofNat 64 (a.imm.toNat * 2 ^ 32 + (s.rs1 t a).toNat % 2 ^ 32)))

/-! ### Class 0x02: loads and stores (R393) -/

/-- LDT: 64 bits. -/
def execLdt (t : TileId) (a : CcArgs) (s : State) : Outcome State Fault Refusal := s.ldtN t a 8

/-- LDT.W: 32 bits. -/
def execLdtW (t : TileId) (a : CcArgs) (s : State) : Outcome State Fault Refusal := s.ldtN t a 4

/-- STT: 64 bits. -/
def execStt (t : TileId) (a : CcArgs) (s : State) : Outcome State Fault Refusal := s.sttN t a 8

/-- STT.W: 32 bits. -/
def execSttW (t : TileId) (a : CcArgs) (s : State) : Outcome State Fault Refusal := s.sttN t a 4

/-- LD: 64 bits. -/
def execLd (t : TileId) (a : CcArgs) (s : State) : Outcome State Fault Refusal := s.ldN t a 8

/-- LD.W: 32 bits. -/
def execLdW (t : TileId) (a : CcArgs) (s : State) : Outcome State Fault Refusal := s.ldN t a 4

/-- ST: 64 bits. -/
def execSt (t : TileId) (a : CcArgs) (s : State) : Outcome State Fault Refusal := s.stN t a 8

/-- ST.W: 32 bits. -/
def execStW (t : TileId) (a : CcArgs) (s : State) : Outcome State Fault Refusal := s.stN t a 4

/-! ### Class 0x03: branches and jumps -/

/-- BEQ (R366, R392). -/
def execBeq (t : TileId) (a : CcArgs) (s : State) : Outcome State Fault Refusal := s.branch t a (fun x y => x == y)

/-- BNE (R366, R392). -/
def execBne (t : TileId) (a : CcArgs) (s : State) : Outcome State Fault Refusal := s.branch t a (fun x y => x != y)

/-- BLT (R366, R392). -/
def execBlt (t : TileId) (a : CcArgs) (s : State) : Outcome State Fault Refusal := s.branch t a (fun x y => x.slt y)

/-- BGE (R366, R392). -/
def execBge (t : TileId) (a : CcArgs) (s : State) : Outcome State Fault Refusal := s.branch t a (fun x y => !(x.slt y))

/-- BLTU (R366, R392). -/
def execBltu (t : TileId) (a : CcArgs) (s : State) : Outcome State Fault Refusal := s.branch t a (fun x y => x.ult y)

/-- BGEU (R366, R392). -/
def execBgeu (t : TileId) (a : CcArgs) (s : State) : Outcome State Fault Refusal := s.branch t a (fun x y => !(x.ult y))

/-- JAL: PC + 8 to RD, then to PC + IMM. -/
def execJal (t : TileId) (a : CcArgs) (s : State) : Outcome State Fault Refusal :=
  s.ccIssue t a .both true .other [] [a.rd.toNat] (fun s => s.jump t (s.branchTo t a) (some a.rd.toNat))

/-- JR: PC + 8 to RD, then to RS1 + IMM. -/
def execJr (t : TileId) (a : CcArgs) (s : State) : Outcome State Fault Refusal :=
  s.ccIssue t a .both true .other [a.rs1.toNat] [a.rd.toNat] (fun s => s.jump t (s.rs1 t a + simm a) (some a.rd.toNat))

/-! ### Class 0x04: predicates -/

/-- PCMP.EQ (R392). -/
def execPcmpEq (t : TileId) (a : CcArgs) (s : State) : Outcome State Fault Refusal := s.pcmp t a false (fun x y => x == y)

/-- PCMP.NE (R392). -/
def execPcmpNe (t : TileId) (a : CcArgs) (s : State) : Outcome State Fault Refusal := s.pcmp t a false (fun x y => x != y)

/-- PCMP.LT (R392). -/
def execPcmpLt (t : TileId) (a : CcArgs) (s : State) : Outcome State Fault Refusal := s.pcmp t a false (fun x y => x.slt y)

/-- PCMP.LTU (R392). -/
def execPcmpLtu (t : TileId) (a : CcArgs) (s : State) : Outcome State Fault Refusal := s.pcmp t a false (fun x y => x.ult y)

/-- PCMP.EQ.I (R392). -/
def execPcmpEqI (t : TileId) (a : CcArgs) (s : State) : Outcome State Fault Refusal := s.pcmp t a true (fun x y => x == y)

/-- PCMP.LT.I (R392). -/
def execPcmpLtI (t : TileId) (a : CcArgs) (s : State) : Outcome State Fault Refusal := s.pcmp t a true (fun x y => x.slt y)

/-- PAND (R392). -/
def execPand (t : TileId) (a : CcArgs) (s : State) : Outcome State Fault Refusal := s.plog t a (fun x y => x && y)

/-- POR (R392). -/
def execPor (t : TileId) (a : CcArgs) (s : State) : Outcome State Fault Refusal := s.plog t a (fun x y => x || y)

/-- PXOR (R392). -/
def execPxor (t : TileId) (a : CcArgs) (s : State) : Outcome State Fault Refusal := s.plog t a (fun x y => x != y)

/-- PNOT (R392). -/
def execPnot (t : TileId) (a : CcArgs) (s : State) : Outcome State Fault Refusal := s.plog t a (fun x _ => !x)

/-- PSET (R392). -/
def execPset (t : TileId) (a : CcArgs) (s : State) : Outcome State Fault Refusal := s.plog t a (fun _ _ => bitN a.imm.toNat 0)

/-! ### Class 0x05: tokens and fences (R394, R396) -/

/-- Whether the fields of TWAIT and TSIG are as R394 asks: IMM[15:4] 0 and a count of at least 1. -/
def tokenArgsOk (a : CcArgs) : Bool := decide (bitsN a.imm.toNat 15 4 = 0 ∧ bitsN a.imm.toNat 31 16 ≠ 0)

/-- TWAIT: it waits until T[IMM[3:0]] holds the count beside what the eligible heads of Q0 to Q7 take first (R195), then subtracts
it. -/
def execTwait (t : TileId) (a : CcArgs) (s : State) : Outcome State Fault Refusal :=
  s.ccIssue t a .item (tokenArgsOk a) .other [] [] (fun s =>
    let k := bitsN a.imm.toNat 3 0
    let c := bitsN a.imm.toNat 31 16
    if s.tokLeft t (fun u => !(s.tiles[t].blocked u)) k 8 < c then s else (s.put (Reg.tileToken t k) (s.tok t k - c)).advance t)

/-- TSIG: the count added at issue. -/
def execTsig (t : TileId) (a : CcArgs) (s : State) : Outcome State Fault Refusal :=
  s.ccIssue t a .item (tokenArgsOk a) .other [] [] (fun s =>
    let (ovf, s) := s.tokAdd t (bitsN a.imm.toNat 3 0) (bitsN a.imm.toNat 31 16)
    if ovf then s.raiseC t .token 0 else s.advance t)

/-- TREAD: the counter's value to RD. -/
def execTread (t : TileId) (a : CcArgs) (s : State) : Outcome State Fault Refusal :=
  s.ccIssue t a .both true .other [] [a.rd.toNat] (fun s => s.setRd t a (BitVec.ofNat 64 (s.tok t (bitsN a.imm.toNat 3 0))))

/-- FENCE.SB. -/
def execFenceSb (t : TileId) (a : CcArgs) (s : State) : Outcome State Fault Refusal := s.fence t a 0

/-- FENCE.SC. -/
def execFenceSc (t : TileId) (a : CcArgs) (s : State) : Outcome State Fault Refusal := s.fence t a 1

/-- FENCE.U. -/
def execFenceU (t : TileId) (a : CcArgs) (s : State) : Outcome State Fault Refusal := s.fence t a 2

/-- FENCE.ALL. -/
def execFenceAll (t : TileId) (a : CcArgs) (s : State) : Outcome State Fault Refusal := s.fence t a 3

/-! ### Class 0x06: epochs (R397 to R400) -/

/-- Clearing the unit error bits of a parity (step 2 of R397). -/
def State.clearUnitErr (s : State) (t parity : Nat) : State :=
  ((s.putB (Reg.qllStat t) (parity + 1) false).putB (Reg.hrdStat t) (parity + 1) false).putB (Reg.treStat t) (parity + 1) false

/-- EPOCH.BEGIN, its checks in the order of R397; where one fails nothing is claimed. -/
def execEpochBegin (t : TileId) (a : CcArgs) (s : State) : Outcome State Fault Refusal :=
  s.ccIssue t a .item true .other [a.rs1.toNat, a.rs2.toNat] [] (fun s =>
    let tl := s.tiles[t]
    let tag := (s.rs1 t a).toNat % 256
    let segs := (s.rs2 t a).toNat % 2 ^ 48
    let mask := a.imm.toNat % 65536
    let par := tag % 2
    let tokR := s.rd (Reg.tileEpochTok t)
    let mine := bitsN tokR (16 * par + 15) (16 * par)
    let other := if s.fld (Reg.tileEpoch t) 17 16 = 3 then bitsN tokR (16 * (1 - par) + 15) (16 * (1 - par)) else 0
    let live := match s.classify t tag with | .older => true | .newer => true | _ => false
    let held := tl.claimed.toList.getD par none == some tag
    if tl.ctx.isSome || !live then s.raiseC t .epoch 0
    else if (if held then decide (mask ≠ 0 ∧ mask ≠ mine) else decide (mask &&& other ≠ 0)) then s.raiseC t .epoch 0
    else if (List.range 48).any (fun k => bitN segs k && s.segState t k != 0) then s.raiseC t .segment 0
    else
      let s := if held then s else
        (s.modTile t (fun tl => { tl with claimed := Vector.ofFn (fun i : Fin 2 => if i.val = par then some tag else tl.claimed[i]) })).clearUnitErr t par
      let s := if held then s else s.putF (Reg.tileEpochTok t) (16 * par + 15) (16 * par) mask
      let s := (List.range 48).foldl (fun s k => if bitN segs k then s.setSeg t k (par + 1) else s) s
      let s := s.putB (Reg.tileEpoch t) 18 (s.isNewer t tag)
      (s.modTile t (fun tl => { tl with ctx := some tag })).advance t)

/-- EPOCH.COMMIT: the context epoch clears. -/
def execEpochCommit (t : TileId) (a : CcArgs) (s : State) : Outcome State Fault Refusal :=
  s.ccIssue t a .item true .other [] [] (fun s =>
    if s.tiles[t].ctx.isNone then s.raiseC t .epoch 0
    else ((s.modTile t (fun tl => { tl with ctx := none })).putB (Reg.tileEpoch t) 18 false).advance t)

/-- EPOCH.REIN in the handler: R209 for the named epoch; a tag that names no live epoch only counts. -/
def execEpochRein (t : TileId) (a : CcArgs) (s : State) : Outcome State Fault Refusal :=
  s.ccIssue t a .handler true .other [a.rs1.toNat] [] (fun s =>
    let tag := (s.rs1 t a).toNat % 256
    match s.frm.live.find? (fun e => e.frame % 256 == tag) with
    | some e => (s.reinTile t e.frame).advance t
    | none => (s.count (Cnt.tileCntRein t)).advance t)

/-! ### Class 0x07: system (R377, R380, R395) -/

/-- END: the item is ended; it is complete once its unit instructions have retired. The next item may start. -/
def execEndItem (t : TileId) (a : CcArgs) (s : State) : Outcome State Fault Refusal :=
  s.ccIssue t a .item true .other [] [] (fun s =>
    let s := s.advance t
    let s := s.modTile t (fun tl => { tl with running := none, ctx := none, ended := tl.ended ++ tl.running.toList })
    (s.putB (Reg.tileEpoch t) 18 false).startItem t)

/-- Whether a started instruction stands in a queue. -/
def Tile.unitBusy (tl : Tile) (q : Nat) : Bool := tl.window.any (fun u => u.started && u.inQ q)

/-- TILE_ARR_STAT as it reads (Table 07-5): the bank and load bits follow the array; FROZEN is bit 8, set while a pass
stays frozen (R264, log 42). -/
def State.arrStat (s : State) (t : TileId) (a v : Nat) : Nat :=
  let tl := s.tiles[t]
  let r := tl.arr.toList.getD a ArrSt.empty
  putBits v 4 1 (b2n r.active.full + 2 * b2n r.shadow.full + 4 * b2n (tl.loading a) + 8 * b2n r.armed)

/-- What a word of a tile's register block reads as, with nothing cleared: computed fields in place. -/
def State.tilePeek (s : State) (t : TileId) (off : Nat) : Nat :=
  let reg := Reg.tileId t.val + off
  let v := s.rd reg
  if reg = Reg.tileId t then t.val + 2 ^ 8 * (if t.val < 16 then t.val else 47 - t.val) + 2 ^ 16 * (t.val / 16)
  else if reg = Reg.tileHpend t then s.tiles[t].pendMask
  else if reg = Reg.tileCntCycles t then (s.rd64 (Reg.tileCntCycles t) + s.cyclesDue t) % 2 ^ 32
  else if reg = Reg.tileCntCycles t + 4 then (s.rd64 (Reg.tileCntCycles t) + s.cyclesDue t) / 2 ^ 32 % 2 ^ 32
  else if reg = Reg.tileTlbStat t then putBits v 7 1 s.tiles[t].tlb.length
  else if 0x200 ≤ off ∧ off < 0x300 ∧ off % 64 = 0 then s.arrStat t ((off - 0x200) / 64) v
  else if reg = Reg.qllStat t then
    putBits (putBits v 0 0 (b2n (s.tiles[t].unitBusy 5))) 18 3
      ((List.range 16).foldl (fun m k => if (s.tiles[t].qll.leaves.toList.getD k []).isEmpty then m else m + 2 ^ k) 0)
  else if reg = Reg.hrdStat t then
    putBits (putBits v 0 0 (b2n (s.tiles[t].unitBusy 6))) 10 3 s.tiles[t].slotsUsed
  else if reg = Reg.treStat t then putBits v 0 0 (b2n (s.tiles[t].unitBusy 7))
  else match regAt reg with
    | some (r, _) => if r.acc = .wo then 0 else v
    | none => 0

/-- TSRR: 64 bits of the tile's own block to RD. -/
def execTsrr (t : TileId) (a : CcArgs) (s : State) : Outcome State Fault Refusal :=
  s.ccIssue t a .both (decide (a.imm.toNat % 8 = 0)) .other [] [a.rd.toNat] (fun s =>
    let o := a.imm.toNat % 4096
    s.setRd t a (BitVec.ofNat 64 (s.tilePeek t o + 2 ^ 32 * s.tilePeek t (o + 4))))

/-- Whether TSRW may write an offset: TILE_HVEC or TILE_HSCR0 to 3. -/
def tsrwMay (o : Nat) : Bool := o == 0x600 || (decide (0x618 ≤ o ∧ o ≤ 0x630) && o % 8 == 0)

/-- TSRW: RS1 to both halves of a handler register. -/
def execTsrw (t : TileId) (a : CcArgs) (s : State) : Outcome State Fault Refusal :=
  let o := a.imm.toNat % 4096
  s.ccIssue t a .handler (tsrwMay o) .other [a.rs1.toNat] [] (fun s =>
    let v := (s.rs1 t a).toNat
    let reg := Reg.tileId t.val + o
    let s := if o = 0x600 then s.put64 reg (bitsN v 21 3 * 8) else ((s.put64 reg v).markWritten reg).markWritten (reg + 4)
    s.advance t)

/-- Entries of a tile's TLB and the walker's cached PTEs of its ASID invalidated (R440). -/
def State.tlbInvalidate (s : State) (t : TileId) (all : Bool) (va : Nat) : State :=
  let tl := s.tiles[t]
  let keep := fun (e : TlbEntry) => !all && !(e.asid == tl.asid && decide (e.vbase ≤ va ∧ va < e.vbase + e.size))
  let s := { s with walker := s.walker.filter (fun c => c.1 != tl.asid) }
  s.modTile t (fun tl => { tl with tlb := tl.tlb.filter keep })

/-- TLB.INV: it stalls issue until the accesses translated before it are performed. -/
def execTlbInv (t : TileId) (a : CcArgs) (s : State) : Outcome State Fault Refusal :=
  s.ccIssue t a .handler true .other [a.rs1.toNat] [] (fun s =>
    let s := s.tlbInvalidate t (bitN a.imm.toNat 0) (s.rs1 t a).toNat
    if s.tiles[t].inFlight then s else s.advance t)

/-- RESUME (R383). -/
def execResume (t : TileId) (a : CcArgs) (s : State) : Outcome State Fault Refusal :=
  s.ccIssue t a .handler true .other [] [] (fun s => (s.resumeNow t).retiredAt t)

/-- ABANDON (R384). -/
def execAbandon (t : TileId) (a : CcArgs) (s : State) : Outcome State Fault Refusal :=
  s.ccIssue t a .handler true .other [] [] (fun s => (s.abandonNow t).retiredAt t)

end Sys2Proof.Machine
end

