-- ==== Sys2Proof/Machine/Fp.lean ====
section
/-! DEFINITION. The number formats of the tile's units: FP32 and BF16 with the rounding, subnormal and NaN rules of R246, FP16 as Hoard's
rows hold it (R303), and saturating INT32 (R244, R279). -/

namespace Sys2Proof.Machine

/-- A floating-point value: NaN, an infinity, or a signed magnitude. -/
inductive Fv where
  | nan
  | inf (neg : Bool)
  | fin (neg : Bool) (m : Rat)
  deriving DecidableEq, Repr

/-- Two to a power. -/
def pow2 (e : Int) : Rat := if 0 ≤ e then (2 ^ e.toNat : Nat) else 1 / ((2 ^ (-e).toNat : Nat) : Rat)

/-- The floor of the base-2 logarithm of a rational above 0. -/
def log2Rat (r : Rat) : Int :=
  let e : Int := (r.num.toNat.log2 : Int) - (r.den.log2 : Int)
  if pow2 e ≤ r then e else e - 1

/-- How a magnitude is rounded: to nearest even, up or down in magnitude. -/
inductive Rnd where
  | even | away | zero
  deriving DecidableEq, Repr

/-- A rational of at least 0 rounded to an integer. -/
def Rnd.int (d : Rnd) (r : Rat) : Int :=
  let f := r.floor
  match d with
  | .zero => f
  | .away => if (f : Rat) = r then f else f + 1
  | .even =>
    let x := r - f
    if x < 1 / 2 then f else if 1 / 2 < x then f + 1 else if f % 2 = 0 then f else f + 1

/-- A magnitude rounded to `p` significant bits, no finer than exponent `emin` allows. -/
def roundMag (d : Rnd) (p : Nat) (emin : Int) (r : Rat) : Rat :=
  if r = 0 then 0
  else
    let e := log2Rat r
    let q := pow2 ((if e < emin then emin else e) - (p - 1 : Nat))
    (d.int (r / q) : Rat) * q

/-! ### FP32 -/

/-- The NaN every operation gives (R246). -/
def nan32 : Nat := 0x7FC00000

/-- An FP32 pattern read; subnormals are zeros of their sign (R246). -/
def fv32 (w : Nat) : Fv :=
  let s := bitN w 31
  let e := bitsN w 30 23
  let m := bitsN w 22 0
  if e = 255 then (if m = 0 then .inf s else .nan)
  else if e = 0 then .fin s 0
  else .fin s ((2 ^ 23 + m : Nat) * pow2 ((e : Int) - 150))

/-- An FP32 pattern that is exactly representable, from sign and magnitude. -/
def pack32 (s : Bool) (m : Rat) : Nat :=
  if m = 0 then 2 ^ 31 * b2n s
  else
    let e := log2Rat m
    if 127 < e then 2 ^ 31 * b2n s + 0x7F800000
    else if e < -126 then 2 ^ 31 * b2n s
    else 2 ^ 31 * b2n s + 2 ^ 23 * (e + 127).toNat + ((m / pow2 (e - 23)).floor.toNat - 2 ^ 23)

/-- A value as FP32: nearest even, subnormal results zero with their sign kept (R246). -/
def to32 : Fv → Nat
  | .nan => nan32
  | .inf s => 2 ^ 31 * b2n s + 0x7F800000
  | .fin s m => pack32 s (roundMag .even 24 (-126) m)

/-- The sum of two values, exact; the sign of an exact zero as IEEE 754 has it for rounding to nearest. -/
def Fv.add : Fv → Fv → Fv
  | .nan, _ => .nan
  | _, .nan => .nan
  | .inf a, .inf b => if a = b then .inf a else .nan
  | .inf a, _ => .inf a
  | _, .inf b => .inf b
  | .fin a x, .fin b y =>
    let v := (if a then -x else x) + (if b then -y else y)
    if v = 0 then .fin (a && b) 0 else .fin (decide (v < 0)) (if v < 0 then -v else v)

/-- The product of two values, exact. -/
def Fv.mul : Fv → Fv → Fv
  | .nan, _ => .nan
  | _, .nan => .nan
  | .inf a, .inf b => .inf (a != b)
  | .inf a, .fin b y => if y = 0 then .nan else .inf (a != b)
  | .fin a x, .inf b => if x = 0 then .nan else .inf (a != b)
  | .fin a x, .fin b y => .fin (a != b) (x * y)

/-- The quotient of two values, exact. -/
def Fv.div : Fv → Fv → Fv
  | .nan, _ => .nan
  | _, .nan => .nan
  | .inf _, .inf _ => .nan
  | .inf a, .fin b _ => .inf (a != b)
  | .fin a _, .inf b => .fin (a != b) 0
  | .fin a x, .fin b y => if y = 0 then (if x = 0 then .nan else .inf (a != b)) else .fin (a != b) (x / y)

/-- A value negated. -/
def Fv.neg : Fv → Fv
  | .nan => .nan
  | .inf a => .inf (!a)
  | .fin a x => .fin (!a) x

/-- A finite value as a signed rational; 0 for the others. -/
def Fv.rat : Fv → Rat
  | .fin a x => if a then -x else x
  | _ => 0

/-- Whether a value is finite. -/
def Fv.isFin : Fv → Bool
  | .fin _ _ => true
  | _ => false

/-- Ordered less-than; false where either is NaN. -/
def Fv.lt : Fv → Fv → Bool
  | .nan, _ => false
  | _, .nan => false
  | .inf a, .inf b => a && !b
  | .inf a, _ => a
  | _, .inf b => !b
  | x, y => decide (x.rat < y.rat)

/-- FP32 addition. -/
def fadd (a b : Nat) : Nat := to32 ((fv32 a).add (fv32 b))
/-- FP32 subtraction. -/
def fsub (a b : Nat) : Nat := to32 ((fv32 a).add (fv32 b).neg)
/-- FP32 multiplication. -/
def fmul (a b : Nat) : Nat := to32 ((fv32 a).mul (fv32 b))
/-- FP32 division. -/
def fdiv (a b : Nat) : Nat := to32 ((fv32 a).div (fv32 b))

/-- Whether an FP32 pattern is NaN. -/
def isNan32 (w : Nat) : Bool := fv32 w == .nan

/-- An integer as FP32, to nearest even (R406). -/
def intTo32 (i : Int) : Nat := to32 (.fin (decide (i < 0)) (i.natAbs : Rat))

/-- FP32 to INT32, to nearest even and saturating (R406); none for NaN, for which the manual states no result. -/
def f32ToInt (w : Nat) : Option Int :=
  match fv32 w with
  | .nan => none
  | .inf s => some (if s then -2 ^ 31 else 2 ^ 31 - 1)
  | .fin s m => let v := Rnd.even.int m; some (clampI (-2 ^ 31) (2 ^ 31 - 1) (if s then -v else v))

/-! ### BF16 -/

/-- A BF16 pattern read as FP32. -/
def bfTo32 (h : Nat) : Nat := (h % 2 ^ 16) * 2 ^ 16

/-- A value rounded to BF16, to nearest even, subnormals zero (R246, R247). -/
def toBf : Fv → Nat
  | .nan => 0x7FC0
  | .inf s => 2 ^ 15 * b2n s + 0x7F80
  | .fin s m => pack32 s (roundMag .even 8 (-126) m) / 2 ^ 16

/-- FP32 to BF16. -/
def f32ToBf (w : Nat) : Nat := toBf (fv32 w)

/-! ### FP16 (R303, R323) -/

/-- An FP16 pattern read, subnormals kept. -/
def fv16 (h : Nat) : Fv :=
  let s := bitN h 15
  let e := bitsN h 14 10
  let m := bitsN h 9 0
  if e = 31 then (if m = 0 then .inf s else .nan)
  else if e = 0 then .fin s ((m : Rat) * pow2 (-24))
  else .fin s ((2 ^ 10 + m : Nat) * pow2 ((e : Int) - 25))

/-- An FP16 pattern from sign and representable magnitude. -/
def pack16 (s : Bool) (m : Rat) : Nat :=
  let sg := 2 ^ 15 * b2n s
  if m = 0 then sg
  else
    let e := log2Rat m
    if 15 < e then sg + 0x7C00
    else if e < -14 then sg + (m / pow2 (-24)).floor.toNat
    else sg + 2 ^ 10 * (e + 15).toNat + ((m / pow2 (e - 10)).floor.toNat - 2 ^ 10)

/-- A value as FP16 rounded toward plus infinity (`up`) or minus infinity; a magnitude rounded toward zero stops at the
largest finite value. -/
def to16 (up : Bool) : Fv → Nat
  | .nan => 0x7E00
  | .inf s => 2 ^ 15 * b2n s + 0x7C00
  | .fin s m =>
    let d := if s = up then Rnd.zero else Rnd.away
    let r := roundMag d 11 (-14) m
    if d = .zero ∧ 65504 < r then pack16 s 65504 else pack16 s r

/-- An FP16 pattern as FP32; FP16 subnormals are normal there. -/
def f16To32 (h : Nat) : Nat := to32 (fv16 h)

/-! ### Saturating integers -/

/-- An INT32 sum that saturates: pattern, and whether it saturated (R244, R279). -/
def satAdd (a b : Nat) : Nat × Bool :=
  let v := sint 32 a + sint 32 b
  let c := clampI (-2 ^ 31) (2 ^ 31 - 1) v
  (unsint 32 c, decide (c ≠ v))

end Sys2Proof.Machine
end

