-- ==== Sys2Proof/Machine/Bitmap.lean ====
section
/-! DEFINITION. What several units read in a tile store: packed operand words (Tables 12-1, 12-2), the bitmap groups of sparse operands
(R273 to R275, Tables 08-1, 08-2, 12-8), and the error bits of Quill, Hoard and the tree unit (R275, R307, R345). -/

namespace Sys2Proof.Machine

/-! ### Progress -/

/-- How far a started unit instruction has come: it may retire with a scalar result, it waits, or it raises an exception. -/
inductive Prog where
  | fin (ret : Nat) (s : State)
  | stay (s : State)
  | fault (c : Cause) (addr : Nat) (s : State)
  deriving DecidableEq, Repr

/-- The window entry of an instruction as it stands. -/
def State.entry (s : State) (t : TileId) (seq : Nat) : Option UEntry := s.tiles[t].window.find? (fun u => u.seq == seq)

/-- An instruction's window entry changed. -/
def State.modEntry (s : State) (t : TileId) (seq : Nat) (f : UEntry → UEntry) : State := s.modTile t (fun tl => tl.modU seq f)

/-! ### Error bits and checks -/

/-- The error bit of a unit for the parity of a tag (QLL_STAT, HRD_STAT, TRE_STAT bits 1 and 2): the epoch's frame commits
with DEGRADED. Untagged work sets none. -/
def State.unitErr (s : State) (reg : Nat) (tag : Option Nat) : State :=
  match tag with
  | some g => (s.orReg reg (2 ^ (1 + g % 2))).degradeTag tag
  | none => s

/-- A count of events of Quill's metadata and key checks, with its error bit. -/
def State.quillCount (s : State) (t : TileId) (tag : Option Nat) (c : Ctr) (n : Nat) : State :=
  if n = 0 then s else (s.count c n).unitErr (Reg.qllStat t) tag

/-- A range of a unit's tile-store accesses checked, row by row. -/
def State.tsRows (s : State) (t : TileId) (tag : Option Nat) (write : Bool) (base stride len n : Nat) : Acc3 Unit :=
  Acc3.all (fun i => s.tsCheck t tag write (base + i * stride) len) (List.range n)

/-! ### Packed words (Table 12-2) -/

/-- Fields of a matrix word. -/
structure MatWord where
  base : Nat
  stride : Nat
  ring : Bool
  q8 : Nat
  deriving DecidableEq, Repr

/-- A matrix word, or none where a reserved bit is set; the ring bit and the parameter table stand only where they are
allowed. -/
def matWord (w : W64) (ringOk q8Ok : Bool) : Option MatWord :=
  let n := w.toNat
  if bitN n 39 || bitsN n 63 62 != 0 || (!ringOk && bitN n 38) || (!q8Ok && bitsN n 61 40 != 0) then none
  else some ⟨bitsN n 21 0, bitsN n 37 22, bitN n 38, bitsN n 61 40⟩

/-- Base and count of an index word. -/
def idxWord (w : W64) : Option (Nat × Nat) :=
  let n := w.toNat
  if bitsN n 63 42 ≠ 0 ∨ 786432 < bitsN n 41 22 then none else some (bitsN n 21 0, bitsN n 41 22)

/-- Base, slot count and slot size of an area word. -/
def areaWord (w : W64) : Option (Nat × Nat × Nat) :=
  let n := w.toNat
  if bitsN n 63 48 ≠ 0 then none else some (bitsN n 21 0, bitsN n 41 22, (bitsN n 47 42 + 1) * 16)

/-! ### Bitmap groups -/

/-- A group as read: its length in bytes, its stored elements (index, raw value) in order, blocks that are empty under a set
top bit, and elements at or above L, which are dropped. -/
structure Group where
  len : Nat
  elems : List (Nat × Nat)
  empty : Nat
  past : Nat
  deriving DecidableEq, Repr

/-- Bits of a stored element by format: 0 INT8, 1 INT4, 2 BF16. -/
def fmtBits (fmt : Nat) : Nat := if fmt = 1 then 4 else if fmt = 2 then 16 else 8

/-- The bits set in a 64-bit mask. -/
def maskBits (m : Nat) : List Nat := (List.range 64).filter (bitN m)

/-- A group at byte 0 of a reader of bytes (Table 08-1). -/
def readGroup (rd : Nat → Nat) (l fmt : Nat) : Group :=
  let word := fun (o k : Nat) => (List.range k).foldl (fun n i => n + rd (o + i) * 256 ^ i) 0
  let tops := maskBits (word 0 8)
  let p := tops.length
  let blocks := tops.zipIdx.map (fun x => (x.1, maskBits (word (8 + 8 * x.2) 8)))
  let idxs := blocks.flatMap (fun b => b.2.map (fun i => 64 * b.1 + i))
  let v0 := 8 + 8 * p
  let bits := fmtBits fmt
  let val := fun (k : Nat) =>
    if fmt = 1 then (if k % 2 = 0 then rd (v0 + k / 2) % 16 else rd (v0 + k / 2) / 16)
    else word (v0 + k * (bits / 8)) (bits / 8)
  let all := idxs.zipIdx.map (fun x => (x.1, val x.2))
  { len := v0 + (idxs.length * bits + 63) / 64 * 8
    elems := all.filter (fun e => decide (e.1 < l))
    empty := (blocks.filter (fun b => b.2.isEmpty)).length
    past := (all.filter (fun e => decide (l ≤ e.1))).length }

/-- A group of zeros only. -/
def Group.zero : Group := ⟨8, [], 0, 0⟩

/-- A sparse operand descriptor (Table 12-8). -/
structure SpDesc where
  base : Nat
  offs : Nat
  rows : Nat
  l : Nat
  fmt : Nat
  size : Nat
  deriving DecidableEq, Repr

/-- The sparse operand descriptor at a tile-store address; none where a field lies outside its range. -/
def Tile.spDesc (tl : Tile) (a : Nat) : Option SpDesc :=
  let d : SpDesc := ⟨tl.tsNat a 4, tl.tsNat (a + 4) 4, tl.tsNat (a + 8) 4, tl.tsNat (a + 0xC) 2, tl.tsNat (a + 0xE) 1, tl.tsNat (a + 0x10) 4⟩
  if 1 ≤ d.l ∧ d.l ≤ 4096 ∧ d.fmt ≤ 2 ∧ tl.tsNat (a + 0xF) 1 = 0 ∧ tl.tsNat (a + 0x14) 12 = 0 then some d else none

/-- Row `r` of a sparse operand under check 1 of Table 08-2: the group, and whether it was malformed. -/
def Tile.spRow (tl : Tile) (d : SpDesc) (r : Nat) : Group × Bool :=
  let off := tl.tsNat (d.offs + 4 * r) 4
  let prev := if r = 0 then 0 else tl.tsNat (d.offs + 4 * (r - 1)) 4
  let next := if r + 1 < d.rows then tl.tsNat (d.offs + 4 * (r + 1)) 4 else d.size
  let g := readGroup (fun o => (tl.tsByte (d.base + off + o)).toNat) d.l d.fmt
  if off < prev ∨ next < off + g.len ∨ d.size < off + g.len then (Group.zero, true) else (g, false)

/-- The tile-store accesses a sparse operand's rows need. -/
def State.spCheck (s : State) (t : TileId) (tag : Option Nat) (d : SpDesc) : Acc3 Unit :=
  (s.tsCheck t tag false d.offs (4 * d.rows)).bind (fun _ =>
    Acc3.all (fun r =>
      let x := s.tiles[t].spRow d r
      if x.2 then .ok () else s.tsCheck t tag false (d.base + s.tiles[t].tsNat (d.offs + 4 * r) 4) x.1.len) (List.range d.rows))

/-- The counts of a group's checks (Table 08-2), in tagged work with the error bit. -/
def State.groupCount (s : State) (t : TileId) (tag : Option Nat) (g : Group) (bad : Bool) : State :=
  (s.quillCount t tag (Cnt.qllCntMeta t) (b2n bad + g.empty)).quillCount t tag (Cnt.qllCntRange t) g.past

/-- A group written out: masks of the indices, then the values, padded (Table 08-1). -/
def writeGroup (es : List (Nat × Nat)) (fmt : Nat) : List Byte :=
  let blk := fun (j : Nat) => es.filter (fun e => e.1 / 64 == j)
  let js := (List.range 64).filter (fun j => !(blk j).isEmpty)
  let top := js.foldl (fun n j => n + 2 ^ j) 0
  let masks := js.flatMap (fun j => toLe ((blk j).foldl (fun n e => n + 2 ^ (e.1 % 64)) 0) 8)
  let bits := fmtBits fmt
  let vals := es.zipIdx.foldl (fun n x => n + (x.1.2 % 2 ^ bits) * 2 ^ (bits * x.2)) 0
  toLe top 8 ++ masks ++ toLe vals ((es.length * bits + 63) / 64 * 8)

end Sys2Proof.Machine
end

