-- ==== Sys2Proof/Machine/ArrayOps.lean ====
section
/-! DEFINITION. The multiply-accumulate arrays (07_arrays.md, R401 to R405): forms, weight banks, passes, weight loads and SWAP. A pass
takes its rows one by one; the merge tree it may drain to is in Quill's file, so a row's delivery there is a parameter. -/

namespace Sys2Proof.Machine

/-! ### Forms (Table 07-1) -/

/-- The form an operation names: 0 private, 1 paired, 2 shared, 3 wide. -/
def UOp.form : UOp → Nat
  | .mmaD | .mmaDZ => 1
  | .mmaS | .mmaSZ => 2
  | .mmaW => 3
  | _ => 0

/-- Whether a pass reads bitmap activations. -/
def UOp.skip : UOp → Bool
  | .mmaPZ | .mmaDZ | .mmaSZ => true
  | _ => false

/-- Whether an operation is an array pass. -/
def UOp.isPass : UOp → Bool
  | .mmaP | .mmaD | .mmaS | .mmaW | .mmaPZ | .mmaDZ | .mmaSZ => true
  | _ => false

/-- The K of a form, by format code (0 INT8, 1 INT4, 2 BF16). -/
def formK (form fmt : Nat) : Nat :=
  if form = 3 then 1024 else (if form = 2 then 64 else 32) / (if fmt = 2 then 2 else 1)

/-- The columns one array holds in a form. -/
def formCols (form fmt : Nat) : Nat := if form = 3 then 1 else if fmt = 2 then 16 else if fmt = 1 then 64 else 32

/-- The N of a form. -/
def formN (form fmt : Nat) : Nat := if form = 0 ∨ form = 3 then formCols form fmt else 2 * formCols form fmt

/-- The largest M and the accumulator's row limit (R237). -/
def rowLimit (form fmt : Nat) : Nat := min 1024 (16384 / formCols form fmt)

/-- IMM of an array instruction (Table 12-6). -/
structure ArrImm where
  mask : Nat
  add : Bool
  drain : Nat
  quill : Bool
  fmt : Nat
  deriving DecidableEq, Repr

/-- The fields of IMM. -/
def arrImm (a : UArgs) : ArrImm :=
  let n := a.imm.toNat
  ⟨bitsN n 12 9, bitN n 8, bitsN n 7 6, bitN n 5, bitsN n 4 3⟩

/-- The decode check of a pass (R368, R401). -/
def passDecode (op : UOp) (a : UArgs) : Bool :=
  let i := arrImm a
  let okMask : Bool := match op.form with
    | 0 => i.mask == 1 || i.mask == 2 || i.mask == 4 || i.mask == 8
    | 1 => i.mask == 3 || i.mask == 12
    | 2 => i.mask == 15
    | _ => i.mask != 0
  okMask && i.fmt != 3 && (op.form != 3 || i.fmt == 0) && bitsN a.imm.toNat 2 0 == 0 && a.rd == 0

/-- The decode check of a weight load. -/
def wldDecode (op : UOp) (a : UArgs) : Bool :=
  let n := a.imm.toNat
  let form := bitsN n 7 6
  let fmt := bitsN n 4 3
  bitsN n 12 9 != 0 && !(bitN n 8) && !(bitN n 5) && bitsN n 2 0 == 0 && a.rd == 0 && a.gc == 0 && fmt != 3
    && (form != 3 || fmt == 0) && (op == .wld || (fmt == 0 && form != 3 && a.gb == 0))

/-- The decode check of SWAP. -/
def swapDecode (a : UArgs) : Bool :=
  bitsN a.imm.toNat 12 9 != 0 && bitsN a.imm.toNat 8 0 == 0 && a.rd == 0 && a.ga == 0 && a.gb == 0 && a.gc == 0

/-- The shape word (Table 12-7). -/
structure Shape where
  m : Nat
  k : Nat
  n : Nat
  row : Nat
  bias : Option Nat
  deriving DecidableEq, Repr

/-- A shape word within the limits of a form; none outside them. -/
def shapeWord (w : W64) (form fmt : Nat) : Option Shape :=
  let n := w.toNat
  let x : Shape := ⟨bitsN n 10 0, bitsN n 21 11, bitsN n 29 22, bitsN n 43 30,
    if bitN n 60 then some (64 * bitsN n 59 44) else none⟩
  if bitsN n 63 61 = 0 ∧ x.m ≤ rowLimit form fmt ∧ x.k ≤ formK form fmt ∧ x.n ≤ formN form fmt ∧ x.row + x.m ≤ rowLimit form fmt
  then some x else none

/-- A pass with its operands read: IMM, form, member arrays, shape, A source and drain. -/
structure Pass where
  form : Nat
  mem : List Nat
  imm : ArrImm
  sh : Shape
  src : MatWord
  dst : MatWord
  skip : Bool
  deriving DecidableEq, Repr

/-- The operands of a pass (R402); none where a value lies outside its range, or the skip flag stands on a BF16 pass (R289,
R389). -/
def UEntry.pass (u : UEntry) : Option Pass :=
  let i := arrImm u.args
  if u.op.skip ∧ i.fmt = 2 then none else
  match shapeWord u.gb u.op.form i.fmt, matWord u.ga true false, matWord u.gc false true with
  | some sh, some a, some d => some ⟨u.op.form, maskQueues i.mask, i, sh, a, d, u.op.skip⟩
  | _, _, _ => none

/-- Arrays that hold a pass's results, each with its first column. -/
def Pass.results (p : Pass) : List (Nat × Nat) :=
  let c := formCols p.form p.imm.fmt
  match p.form with
  | 2 => [(2, 0), (3, c)]
  | _ => p.mem.zipIdx.map (fun x => (x.1, x.2 * c))

/-- The leaf of the merge tree a pass's rows enter (R281). -/
def Pass.leaf (p : Pass) : Nat := if p.form = 2 then 2 else p.mem.headD 0

/-- Result columns of a pass: N, and one for each named array in wide form. -/
def Pass.cols (p : Pass) : Nat := if p.form = 3 then p.sh.n * p.mem.length else p.sh.n

/-! ### Weight banks -/

/-- A cell's byte. -/
def Bank.byte (b : Bank) (i : Nat) : Nat := (spGet (fun _ => (0 : Int)) b.data i).toNat

/-- Whether a bank holds a sparse block, and its K_blk. -/
def Bank.sparse (b : Bank) : Bool := bitN b.fmt 2
/-- Rows of a sparse bank's block. -/
def Bank.kblk (b : Bank) : Nat := b.fmt / 8

/-- The bank a pass captured for an array. -/
def UEntry.bank (u : UEntry) (a : Nat) : Bank := ((u.banks.find? (fun x => x.1 == a)).map (·.2)).getD Bank.empty

/-- The array whose cells hold weight row `k`, column `n` of a form, and the row and column there (R239 to R241). A sparse
block of shared form stands whole in arrays 0 and 1 (log 36). -/
def Pass.cell (p : Pass) (sparse : Bool) (k n : Nat) : Nat × Nat × Nat :=
  let c := formCols p.form p.imm.fmt
  let kr := if p.imm.fmt = 2 then 16 else 32
  match p.form with
  | 0 => (p.mem.headD 0, k, n)
  | 1 => ((p.mem[n / c]?).getD 0, k, n % c)
  | 2 => if sparse then (n / c, k, n % c) else (n / c + (if k < kr then 0 else 2), k % kr, n % c)
  | _ => ((p.mem[n]?).getD 0, k, 0)

/-- An integer weight (R244, R245). -/
def Pass.weight (p : Pass) (u : UEntry) (k n : Nat) : Int :=
  let sp := (u.bank (p.cell false 0 n).1).sparse
  let x := p.cell sp k n
  let b := u.bank x.1
  if b.sparse then spGet (fun _ => (0 : Int)) b.data (64 * x.2.1 + x.2.2)
  else if p.form = 3 then sint 8 (b.byte k)
  else if p.imm.fmt = 1 then
    let v := b.byte (32 * x.2.1 + x.2.2 / 2)
    sint 4 (if x.2.2 % 2 = 0 then v % 16 else v / 16)
  else sint 8 (b.byte (32 * x.2.1 + x.2.2))

/-- A BF16 weight as FP32. -/
def Pass.weightBf (p : Pass) (u : UEntry) (k n : Nat) : Nat :=
  let x := p.cell false k n
  let b := u.bank x.1
  bfTo32 (b.byte (32 * x.2.1 + 2 * x.2.2) + 256 * b.byte (32 * x.2.1 + 2 * x.2.2 + 1))

/-- Reduction length: K, or the block's rows on a sparse bank (R291). -/
def Pass.depth (p : Pass) (u : UEntry) : Nat :=
  if p.sh.k = 0 then 0
  else
    let b := u.bank (p.mem.headD 0)
    if b.sparse then b.kblk else p.sh.k

/-- Bytes of one A row in dense form. -/
def Pass.rowBytes (p : Pass) (u : UEntry) : Nat := if p.imm.fmt = 2 then 2 * p.depth u else p.depth u

/-! ### The start of a pass -/

/-- The state of an array changed. -/
def Tile.modArr (tl : Tile) (a : Nat) (f : ArrSt → ArrSt) : Tile :=
  { tl with arr := Vector.ofFn (fun i : Fin 4 => if i.val = a then f tl.arr[i] else tl.arr[i]) }

/-- An array. -/
def Tile.arrAt (tl : Tile) (a : Nat) : ArrSt := tl.arr.toList.getD a ArrSt.empty

/-- The bank a pass that starts now would use. -/
def ArrSt.next (r : ArrSt) : Bank := if r.armed then r.shadow else r.active

/-- Bytes of a drained row (R247): drain 1 I32, 2 BF, 3 Q8. -/
def Pass.drainBytes (p : Pass) : Nat :=
  match p.imm.drain with
  | 1 => 4 * p.cols
  | 2 => 2 * p.cols
  | 3 => p.cols
  | _ => 0

/-- Tile-store accesses a pass makes but for its ring. -/
def State.passStore (s : State) (t : TileId) (u : UEntry) (p : Pass) : Acc3 Unit :=
  let m := if p.sh.n = 0 then 0 else p.sh.m
  let src : Acc3 Unit :=
    if p.src.ring then .ok ()
    else if p.skip then
      Acc3.all (fun i =>
        let a := p.src.base + i * p.src.stride
        s.tsCheck t u.tag false a (readGroup (fun o => (s.tiles[t].tsByte (a + o)).toNat) (formK p.form p.imm.fmt) 0).len)
        (if p.sh.k = 0 then [] else List.range m)
    else if p.form = 3 ∧ p.sh.k ≠ 0 ∧ 0 < m ∧ (p.src.base % 1024 ≠ 0 ∨ (1 < m ∧ p.src.stride % 1024 ≠ 0)) then
      .fault .address (if p.src.base % 1024 ≠ 0 then p.src.base else p.src.base + p.src.stride)
    else s.tsRows t u.tag false p.src.base p.src.stride (p.rowBytes u) m
  let dst := if p.imm.drain = 0 ∨ p.imm.quill then .ok () else s.tsRows t u.tag true p.dst.base p.dst.stride p.drainBytes m
  let par := if p.imm.drain = 3 ∧ 0 < m then s.tsCheck t u.tag false p.dst.q8 (4 * p.cols) else .ok ()
  let bias := match p.sh.bias with
    | some b => if p.imm.add ∨ m = 0 then .ok () else s.tsCheck t u.tag false b (4 * p.cols)
    | none => .ok ()
  src.bind (fun _ => dst.bind (fun _ => par.bind (fun _ => bias)))

/-- What the start of a pass comes to (R254 to R259, R289, R403), with the banks it captures. -/
def State.passCheck (s : State) (t : TileId) (u : UEntry) : Acc3 (List (Nat × Bank)) :=
  match u.pass with
  | none => .fault .illegal 0
  | some p =>
    if p.sh.m = 0 then .ok [] else
    let tl := s.tiles[t]
    let armed := p.mem.map (fun a => (tl.arrAt a).armed)
    let banks := p.mem.map (fun a => (a, (tl.arrAt a).next))
    if armed.any id ∧ ¬ armed.all id then .fault .illegal 0
    else if p.skip ∧ banks.any (fun x => x.2.full && x.2.sparse) then .fault .illegal 0
    else if 1 ≤ p.sh.k ∧ banks.any (fun x => !x.2.full || x.2.fmt % 4 != p.imm.fmt || (x.2.sparse && (p.form == 3 || p.imm.fmt != 0))) then
      .fault .load 0
    else (s.passStore t { u with banks := banks } p).bind (fun _ => .ok banks)

/-- The arrays of a pass stand frozen in the last cycle, or do not (Table 07-5). -/
def State.setFrozen (s : State) (t : TileId) (p : Pass) (b : Bool) : State :=
  p.mem.foldl (fun (s : State) a => s.putB (Reg.tileArrStat t a) 8 b) s

/-- The start of a pass fixes the banks it uses and whether it takes armed swaps, and records form and format in TILE_ARR_STAT. -/
def State.passStart (s : State) (t : TileId) (u : UEntry) (banks : List (Nat × Bank)) : State :=
  match u.pass with
  | none => s
  | some p =>
    if p.sh.m = 0 then s else
    let takes := p.mem.any (fun a => (s.tiles[t].arrAt a).armed)
    let s := p.mem.foldl (fun (s : State) a =>
      s.put (Reg.tileArrStat t a) (putBits (s.rd (Reg.tileArrStat t a)) 8 5 (p.form + 4 * b2n (p.imm.fmt == 2)))) s
    s.modTile t (fun tl => tl.modU u.seq (fun e => { e with banks := banks, takes := takes }))

/-- The first activation of a pass takes the armed swaps (R252): the shadow bank becomes active, and the former active bank the
shadow, stale until a load completes. -/
def State.takeSwaps (s : State) (t : TileId) (seq : Nat) (p : Pass) : State :=
  match s.entry t seq with
  | some u =>
    if u.takes then
      p.mem.foldl (fun (s : State) a =>
        (s.putF (Reg.tileArrStat t a) 0 0 (1 - s.fld (Reg.tileArrStat t a) 0 0)).modTile t (fun tl => tl.modArr a (fun r => { r with
          active := r.shadow, shadow := { r.active with full := false }, armed := false })))
        (s.modEntry t seq (fun e => { e with takes := false }))
    else s
  | none => s

/-! ### One row of a pass -/

/-- The activations of a row of bytes: (k, raw value). -/
def denseRow (bs : List Byte) (fmt n : Nat) : List (Nat × Nat) :=
  (List.range n).map (fun k => (k, if fmt = 2 then leAt bs (2 * k) 2 else leAt bs k 1))

/-- An INT8 or INT4 column summed onto `acc` in ascending k, with the number of saturations (R244). -/
def sumInt (acc : Nat) (xs : List (Nat × Nat)) (w : Nat → Int) : Nat × Nat :=
  xs.foldl (fun (x : Nat × Nat) (e : Nat × Nat) =>
    let v := sint 32 x.1 + sint 8 e.2 * w e.1
    let c := clampI (-2 ^ 31) (2 ^ 31 - 1) v
    (unsint 32 c, if c = v then x.2 else x.2 + 1)) (acc, 0)

/-- A BF16 column summed onto `acc` in ascending k (R246). -/
def sumBf (acc : Nat) (xs : List (Nat × Nat)) (w : Nat → Nat) : Nat :=
  xs.foldl (fun x e => fadd x (fmul (bfTo32 e.2) (w e.1))) acc

/-- A value drained through Q8 (R247), from a parameter word. -/
def drainQ8 (acc par : Nat) : Nat :=
  let v : Rat := (sint 32 acc * sint 16 par : Int) / ((2 ^ bitsN par 20 16 : Nat) : Rat)
  unsint 8 (clampI (-128) 127 (if v < 0 then -(Rnd.even.int (-v)) else Rnd.even.int v))

/-- The activations that meet the weights of result column `n`, in ascending k: each from the row of the array whose cells hold
that weight row (R239 to R241, R402). -/
def Pass.acts (p : Pass) (u : UEntry) (xs : List (Nat × List (Nat × Nat))) (n : Nat) : List (Nat × Nat) :=
  let sp := (u.bank (p.cell false 0 n).1).sparse
  xs.flatMap (fun x => x.2.filter (fun e => (p.cell sp e.1 n).1 == x.1))

/-- A row of results from the activations at each array: the accumulator row updated with its saturation counts, and the row's
words in column order. -/
def State.passRow (s : State) (t : TileId) (u : UEntry) (p : Pass) (i : Nat) (xs : List (Nat × List (Nat × Nat))) : List Nat × State :=
  let cols := formCols p.form p.imm.fmt
  p.results.foldl (fun (x : List Nat × State) (r : Nat × Nat) =>
    let (ws, s) := x
    let n := min cols (p.cols - r.2)
    let w0 := (p.sh.row + i) * cols
    let tl := s.tiles[t]
    let init := fun (c : Nat) =>
      if p.imm.add then tl.accGet r.1 (w0 + c)
      else match p.sh.bias with | some b => tl.tsNat (b + 4 * (r.2 + c)) 4 | none => 0
    let out : List (Nat × Nat) := (List.range n).map (fun c =>
      let as_ := p.acts u xs (r.2 + c)
      if p.imm.fmt = 2 then (if p.sh.k = 0 then init c else sumBf (init c) as_ (fun k => p.weightBf u k (r.2 + c)), 0)
      else sumInt (init c) as_ (fun k => p.weight u k (r.2 + c)))
    let s := s.count (Cnt.tileArrCntSat t r.1) ((out.map (·.2)).foldl (· + ·) 0)
    let s := s.modTile t (fun tl =>
      (out.zipIdx.foldl (fun (tl : Tile) (y : (Nat × Nat) × Nat) => tl.accSet r.1 (w0 + y.2) y.1.1) tl).modU u.seq
        (fun e => { e with touched := if n = 0 then e.touched else (r.1, w0, cols) :: e.touched }))
    (ws ++ out.map (·.1), s)) ([], s)

/-- The bytes of a drained row. -/
def State.drainRow (s : State) (t : TileId) (p : Pass) (ws : List Nat) : List Byte :=
  match p.imm.drain with
  | 1 => ws.flatMap (fun w => toLe w 4)
  | 2 => ws.flatMap (fun w => toLe (f32ToBf w) 2)
  | 3 => ws.zipIdx.flatMap (fun x => toLe (drainQ8 x.1 (s.tiles[t].tsNat (p.dst.q8 + 4 * x.2) 4)) 1)
  | _ => []

/-- What the feeder has for row `i` of a pass: its activations at each array, its output row, and the bitmap groups read, each with
whether check 1 of Table 08-2 fails; not yet; or a fault. -/
inductive Feed where
  | row (xs : List (Nat × List (Nat × Nat))) (out : Nat) (gs : List (Group × Bool))
  | dry
  | fault (c : Cause) (addr : Nat)
  deriving DecidableEq, Repr

/-- The next row of a pass's feeder (R262, R287, R289, R311, R402): from the tile store, the same for every array, or from the head of
each member's own ring. Activations of a skip pass are INT8 (R245). -/
def State.feed (s : State) (t : TileId) (u : UEntry) (p : Pass) (i : Nat) : Feed :=
  let tl := s.tiles[t]
  let group := fun (a lim : Nat) =>
    let g := readGroup (fun o => (tl.tsByte (a + o)).toNat) (formK p.form p.imm.fmt) 0
    let bad := decide (0 < lim ∧ lim < g.len)
    ((if bad then Group.zero else g), bad)
  let read := fun (a lim : Nat) =>
    if p.skip then let g := group a lim; (g.1.elems.filter (fun e => decide (e.1 < p.sh.k)), [g])
    else (denseRow (tl.ts a (p.rowBytes u)) p.imm.fmt (p.depth u), [])
  if p.src.ring then
    let heads := p.mem.map (fun a => (a, (tl.arrAt a).ring.head?))
    if heads.any (fun h => match h.2 with | some r => !r.ready | none => true) then .dry
    else
      let rows := heads.filterMap (fun h => h.2.map (fun r => (h.1, r)))
      let out := ((rows.find? (fun x => x.1 == p.leaf)).map (fun x => x.2.out)).getD 0
      if p.sh.k = 0 ∨ p.sh.n = 0 then .row [] out []
      else if p.skip ∧ rows.any (fun x => !x.2.bitmap) then .fault .illegal 0
      else match rows.find? (fun x => p.form == 3 && x.2.addr % 1024 != 0) with
        | some x => .fault .address x.2.addr
        | none =>
          match Acc3.all (fun (x : Nat × RingRow) => s.tsCheck t u.tag false x.2.addr (if p.skip then x.2.size else p.rowBytes u)) rows with
          | .fault c a => .fault c a
          | .miss _ _ => .dry
          | .ok _ =>
            let rs := rows.map (fun x => (x.1, read x.2.addr x.2.size))
            .row (rs.map (fun x => (x.1, x.2.1))) out (rs.flatMap (fun x => x.2.2))
  else if p.sh.k = 0 ∨ p.sh.n = 0 then .row [] i []
  else
    let r := read (p.src.base + i * p.src.stride) (if 1 < p.sh.m then p.src.stride else 0)
    .row (p.mem.map (fun a => (a, r.1))) i r.2

/-- A row taken off the ring of every member. -/
def State.consumeRing (s : State) (t : TileId) (p : Pass) : State :=
  if p.src.ring then s.modTile t (fun tl => p.mem.foldl (fun (tl : Tile) a => tl.modArr a (fun r => { r with ring := r.ring.drop 1 })) tl)
  else s

/-! ### Weight loads (R248 to R251, R290, R294, R295, R404) -/

/-- Whether a mask of rows of stored indices breaks R294 in some 4-aligned 4 × 4 block. -/
def maskBroken (rows : List (List Nat)) (l : Nat) : Bool :=
  let at_ := fun (r k : Nat) => ((rows[r]?).getD []).contains k
  (List.range ((rows.length + 3) / 4)).any (fun br => (List.range ((l + 3) / 4)).any (fun bk =>
    (List.range 4).any (fun i =>
      decide (2 < ((List.range 4).filter (fun j => at_ (4 * br + i) (4 * bk + j))).length) ||
      decide (2 < ((List.range 4).filter (fun j => at_ (4 * br + j) (4 * bk + i))).length))))

/-- The rows of a sparse block, with its descriptor. -/
def State.spRows (s : State) (t : TileId) (d : SpDesc) : List (Group × Bool) := (List.range d.rows).map (s.tiles[t].spRow d)

/-- What the start of a weight load comes to. -/
def State.wldCheck (s : State) (t : TileId) (u : UEntry) : Acc3 Unit :=
  let n := u.args.imm.toNat
  let form := bitsN n 7 6
  let fmt := bitsN n 4 3
  let mem := maskQueues (bitsN n 12 9)
  let base := bitsN u.ga.toNat 21 0
  if mem.any (fun a => (s.tiles[t].arrAt a).armed) then .fault .illegal 0
  else if u.op = .wld then
    if formK form fmt < bitsN u.gb.toNat 10 0 ∨ formN form fmt < bitsN u.gb.toNat 21 11 then .fault .load 0
    else s.tsCheck t u.tag false base ((if fmt = 2 then 512 else 1024) * mem.length)
  else
    (s.tsCheck t u.tag false base 32).bind (fun _ =>
      match s.tiles[t].spDesc base with
      | none => .fault .illegal 0
      | some d =>
        if d.fmt ≠ 0 then .fault .illegal 0
        else if 8 * formK form 0 < d.l ∨ formN form 0 < d.rows then .fault .load 0
        else (s.spCheck t u.tag d).bind (fun _ =>
          let rows := s.spRows t d
          if rows.any (fun x => decide (formK form 0 < x.1.elems.length)) then .fault .load 0
          else if u.op = .wldSpt ∧ maskBroken (rows.map (fun x => x.1.elems.map (·.1))) d.l then .fault .load 0
          else .ok ()))

/-- Whether a WLD.SPT fails by its mask alone (R295). -/
def State.sptBroken (s : State) (t : TileId) (u : UEntry) : Bool :=
  u.op == .wldSpt && (match s.wldCheck t { u with op := .wldSp }, s.tiles[t].spDesc (bitsN u.ga.toNat 21 0) with
    | .ok _, some _ => true
    | _, _ => false)

/-- A weight load starts: the shadow banks it fills are no longer complete. -/
def State.wldStart (s : State) (t : TileId) (u : UEntry) : State :=
  s.modTile t (fun tl => (maskQueues (bitsN u.args.imm.toNat 12 9)).foldl (fun (tl : Tile) a =>
    tl.modArr a (fun r => { r with shadow := { r.shadow with full := false } })) tl)

/-- A weight load ends: the shadow banks are complete (R248). -/
def State.wldEnd (s : State) (t : TileId) (u : UEntry) : State :=
  let n := u.args.imm.toNat
  let form := bitsN n 7 6
  let fmt := bitsN n 4 3
  let mem := maskQueues (bitsN n 12 9)
  let base := bitsN u.ga.toNat 21 0
  let fill := fun (f : Nat → Nat → Bank) (s : State) =>
    s.modTile t (fun tl => mem.zipIdx.foldl (fun (tl : Tile) (x : Nat × Nat) => tl.modArr x.1 (fun r => { r with shadow := f x.1 x.2 })) tl)
  let tl := s.tiles[t]
  if u.op = .wld then
    let size := if fmt = 2 then 512 else 1024
    let cells := fun (j : Nat) => (List.range size).foldr (fun i (m : List (Nat × Int)) =>
      let v := (tl.tsByte (base + j * size + i)).toNat
      if v = 0 then m else (i, (v : Int)) :: m) []
    fill (fun _ j => ⟨true, cells j, fmt⟩) s
  else
    match tl.spDesc base with
    | none => s
    | some d =>
      let rows := s.spRows t d
      let s := rows.foldl (fun (s : State) (x : Group × Bool) => s.groupCount t u.tag x.1 x.2) s
      let part := fun (lo : Nat) => ((rows.drop lo).take 32).zipIdx.foldl (fun (m : List (Nat × Int)) (x : (Group × Bool) × Nat) =>
        x.1.1.elems.foldl (fun m e => spSet (fun _ => (0 : Int)) m (64 * e.1 + x.2) (sint 8 e.2)) m) []
      fill (fun a _ => ⟨true, if form = 0 then part 0 else if form = 1 then part (32 * (a % 2)) else if a < 2 then part (32 * a) else [],
        4 + 8 * d.l⟩) s

/-- A load fault counted on the arrays of an instruction. -/
def State.countLdflt (s : State) (t : TileId) (mem : List Nat) : State :=
  mem.foldl (fun (s : State) a => s.count (Cnt.tileArrCntLdflt t a)) s

end Sys2Proof.Machine
end

