-- ==== Sys2Proof/Machine/Vector.lean ====
section
/-! DEFINITION. The vector unit (R406 to R408): lane arithmetic, conversions, moves, loads and stores, and the label store. -/

namespace Sys2Proof.Machine

/-! ### V registers -/

/-- What an unlisted V word reads as: 0, or a free value once the contents were lost (log 10). -/
def Tile.vDflt (tl : Tile) (k : Nat) : W32 :=
  match tl.vFill with
  | none => 0
  | some b => BitVec.ofNat 32 (Config.freeNat (b + k))

/-- Lane `i` of V register `r`. -/
def Tile.vGet (tl : Tile) (r i : Nat) : Nat := (spGet tl.vDflt tl.v (64 * r + i)).toNat

/-- A lane written. -/
def Tile.vSet (tl : Tile) (r i v : Nat) : Tile := { tl with v := spSet tl.vDflt tl.v (64 * r + i) (BitVec.ofNat 32 v) }

/-- A register written lane by lane. -/
def Tile.vPut (tl : Tile) (r : Nat) (f : Nat → Nat) : Tile := (List.range 64).foldl (fun (tl : Tile) i => tl.vSet r i (f i)) tl

/-! ### Lane operations -/

/-- An exact integer result held to its type: 0 I32, 2 U32. Outside the type's range the manual states no result: the free
value `fr` (log 37). -/
def laneInt (ty : Nat) (v : Int) (fr : Nat) : Nat :=
  let lo : Int := if ty = 2 then 0 else -2 ^ 31
  let hi : Int := if ty = 2 then 2 ^ 32 - 1 else 2 ^ 31 - 1
  if lo ≤ v ∧ v ≤ hi then unsint 32 v else fr % 2 ^ 32

/-- A lane as an integer of its type. -/
def laneVal (ty a : Nat) : Int := if ty = 2 then (a : Int) else sint 32 a

/-- The larger or smaller of two F32 lanes: NaN gives NaN (R246); of two zeros of different sign, either (log 37). -/
def laneF (max : Bool) (a b fr : Nat) : Nat :=
  let x := fv32 a; let y := fv32 b
  if x = .nan ∨ y = .nan then nan32
  else if x.lt y then (if max then to32 y else to32 x)
  else if y.lt x then (if max then to32 x else to32 y)
  else if to32 x = to32 y then to32 x else 2 ^ 31 * (fr % 2)

/-- One lane of an arithmetic or logic form (R406); `ty` 0 I32, 1 F32, 2 U32. -/
def laneOp (op : UOp) (ty a b fr : Nat) : Nat :=
  let i := fun (f : Int → Int → Int) => laneInt ty (f (laneVal ty a) (laneVal ty b)) fr
  match op with
  | .vadd => if ty = 1 then fadd a b else i (· + ·)
  | .vsub => if ty = 1 then fsub a b else i (· - ·)
  | .vmul => if ty = 1 then fmul a b else i (· * ·)
  | .vmax => if ty = 1 then laneF true a b fr else i max
  | .vmin => if ty = 1 then laneF false a b fr else i min
  | .vand => a &&& b
  | .vor => a ||| b
  | .vxor => a ^^^ b
  | .vshl => if b < 32 then a * 2 ^ b % 2 ^ 32 else fr % 2 ^ 32
  | .vshr =>
    if 32 ≤ b ∨ ty = 1 then fr % 2 ^ 32
    else if ty = 0 then unsint 32 (sint 32 a / 2 ^ b)
    else a / 2 ^ b
  | _ => a

/-- One lane of VCVT by IMM[3:2]. -/
def laneCvt (k a fr : Nat) : Nat :=
  match k with
  | 0 => intTo32 (sint 32 a)
  | 1 => match f32ToInt a with | some i => unsint 32 i | none => fr % 2 ^ 32
  | 2 => f32ToBf a
  | _ => to32 (fv32 (bfTo32 a))

/-- VRSUM (R407): lanes summed in ascending order; the result and whether it is a value the manual states. -/
def laneSum (ty : Nat) (xs : List Nat) : Nat × Bool :=
  match ty, xs with
  | 1, x :: r => (r.foldl fadd (to32 (fv32 x)), true)
  | 2, xs => let v := xs.foldl (· + ·) 0; (v % 2 ^ 32, decide (v < 2 ^ 32))
  | _, xs => (xs.foldl (fun a b => (satAdd a b).1) 0, true)

/-- Whether an operation is of the vector class. -/
def UOp.isVec : UOp → Bool
  | .vadd | .vsub | .vmul | .vmax | .vmin | .vand | .vor | .vxor | .vshl | .vshr | .vcvt | .vld | .vst | .vbcast
  | .vlane | .vrsum | .lblSt => true
  | _ => false

/-- The decode check of class 0x14: fields an instruction does not use are 0, type 3 is reserved. -/
def vecDecode (op : UOp) (a : UArgs) : Bool :=
  let n := a.imm.toNat
  let ty := bitsN n 1 0
  match op with
  | .vcvt => n / 16 == 0 && ty == 0 && a.gc == 0 && a.rd == 0
  | .vld | .vst => n / 8 == 0 && ty == 0 && a.gc == 0 && a.rd == 0
  | .vbcast => n == 0 && a.gc == 0 && a.rd == 0
  | .vlane => bitsN n 12 8 == 0 && ty == 0 && a.ga == 0 && a.gc == 0
  | .vrsum => n / 4 == 0 && ty != 3 && a.ga == 0 && a.gc == 0
  | .lblSt => n == 0 && a.rd == 0
  | _ => n / 4 == 0 && ty != 3 && a.rd == 0

/-- The G registers a vector instruction reads. -/
def vecGs (op : UOp) (a : UArgs) : List Nat :=
  match op with
  | .vld | .vst | .vbcast => [a.gb.toNat]
  | .lblSt => [a.gc.toNat]
  | _ => []

/-! ### Device memory -/

/-- The lines of a 256-byte device access. -/
def vecLines (a : Nat) : List Nat := (List.range 4).map (fun i => a + 64 * i)

/-- The physical address of one line of a device store, with its checks: translation, window of its tag (R206). -/
def State.storeAddr (s : State) (t : TileId) (tag : Option Nat) (va n : Nat) : Acc3 Nat :=
  (s.devAddr t va n true).bind (fun pa => if s.inWindow t tag pa n then .ok pa else .fault .window va)

/-- What the start of a vector instruction comes to. -/
def State.vecCheck (s : State) (t : TileId) (u : UEntry) : Acc3 Unit :=
  let a := u.gb.toNat
  let dev := bitN u.args.imm.toNat 2
  match u.op with
  | .vld =>
    if a % 64 ≠ 0 then .fault .address a
    else if dev then Acc3.all (fun x => (s.devAddr t x 64 false).bind (fun _ => .ok ())) (vecLines a)
    else s.tsCheck t u.tag false a 256
  | .vst =>
    if a % 64 ≠ 0 then .fault .address a
    else if dev then Acc3.all (fun x => (s.storeAddr t u.tag x 64).bind (fun _ => .ok ())) (vecLines a)
    else s.tsCheck t u.tag true a 256
  | _ => .ok ()

/-- A vector load from device memory sends its four lines. -/
def State.vecStart (s : State) (t : TileId) (u : UEntry) : State :=
  if u.op = .vld ∧ bitN u.args.imm.toNat 2 then
    (vecLines u.gb.toNat).zipIdx.foldl (fun (s : State) (x : Nat × Nat) =>
      match s.tiles[t].xlate x.1 false with
      | .ok pa =>
        let fwd := s.tiles[t].forward pa 64
        match s.whereIs pa with
        | .member k l =>
          let (tag, s) := s.sciRead k l 6
          s.modTile t (fun tl => { tl with loads := tl.loads ++ [⟨0, some (u.seq, 64 * x.2), pa, 64, fwd, u.tag, some tag, u.work, none, false⟩] })
        | .here l => s.modTile t (fun tl => { tl with loads := tl.loads ++ [⟨0, some (u.seq, 64 * x.2), l, 64, fwd, u.tag, none, u.work, none, false⟩] })
        | .nowhere => s
      | _ => s) s
  else s

/-! ### The label store (R221, R408) -/

/-- The register file and frame parity a tagged or untagged instruction's frame reads. -/
def State.tagConf (s : State) (tag : Option Nat) : List (Nat × W32) × Nat :=
  match tag with
  | some g => match s.frm.live.find? (fun e => e.frame % 256 == g) with
    | some e => (e.conf, g % 2)
    | none => (s.inForce, g % 2)
  | none => (s.inForce, s.frameNum % 2)

/-- The code the label store writes (R221). -/
def labelCode (code : Nat) (unres expired : Bool) : Nat :=
  if unres then 0xF8
  else if expired then code / 8 * 8 + min 3 (code % 8)
  else code

/-- Whether the register that holds a base was written before the epoch of a tag opened, or, for untagged work, before the last boundary
(R660). -/
def State.tagUnset (s : State) (tag : Option Nat) (reg : Nat) : Bool :=
  match tag.bind (fun g => s.frm.live.find? (fun e => e.frame % 256 == g)) with
  | some e => e.isUnset reg 2
  | none => s.forceUnset reg 2

/-- A read of the label store at an offset from a base register, whose bits below 64 bytes count as 0 (R661): the datum, zeros where
it is uncorrectable (R425), a free value from another member (log 51); none where the address is reserved or the base
unset (R419, R660). -/
def State.labelRead (s : State) (tag : Option Nat) (conf : List (Nat × W32)) (reg off : Nat) : Option (Nat × State) :=
  let a := regN64 conf reg / 64 * 64 + off
  if s.tagUnset tag reg then none
  else match s.whereIs a with
  | .here l =>
    if s.memRange l 4 then
      let (bs, bad, s) := s.tileRead l 4
      some (leNat bs, if bad then s.degradeTag tag else s)
    else none
  | .member k l => if remoteMay l 4 then some (leNat (s.engBytes a 4), (s.sciRead k (l / 8 * 8) 3).2) else none
  | .nowhere => none

/-- One lane of the label store. -/
def State.labelLane (s : State) (t : TileId) (u : UEntry) (i : Nat) : Prog :=
  let idx := s.tiles[t].vGet u.args.gb.toNat i
  let code := s.tiles[t].vGet u.args.ga.toNat i % 256
  let (conf, par) := s.tagConf u.tag
  if idx = 0xFFFFFFFF then .fin 0 s
  else if regN conf Reg.ingPbCap ≤ idx then .fin 0 (s.count (Cnt.hrdCntRange t))
  else
    let va := (u.gc.toNat + idx) % 2 ^ 64
    match s.storeAddr t u.tag va 1 with
    | .miss v st => .stay (s.addWalk t v st (some u.seq))
    | .fault c a => .fault c a s
    | .ok pa =>
      match s.labelRead u.tag conf (Reg.dreyPmBase par) (4 * idx) with
      | none => .fault .address (regN64 conf (Reg.dreyPmBase par) / 64 * 64 + 4 * idx) s
      | some (pm, s) =>
        match s.labelRead u.tag conf (Reg.ingPbBase par) (16 * idx + 12) with
        | none => .fault .address (regN64 conf (Reg.ingPbBase par) / 64 * 64 + 16 * idx + 12) s
        | some (pb, s) =>
          match s.tiles[t].sbPut pa [BitVec.ofNat 8 (labelCode code (bitN pm 30) (bitN pb 22))] u.tag with
          | some tl => .fin 0 (s.modTile t (fun _ => tl))
          | none => .stay (s.count64 (Reg.tileCntSbfull t))

/-- Lanes, lines or keys `i` up to `n` done one by one, progress kept in the window entry. -/
def State.steps (f : State → Nat → Prog) (t : TileId) (seq : Nat) : Nat → Nat → State → Prog
  | 0, _, s => .fin 0 s
  | k + 1, i, s =>
    match f s i with
    | .fin _ s => State.steps f t seq k (i + 1) (s.modEntry t seq (fun e => { e with done := i + 1 }))
    | .stay s => .stay s
    | .fault c a s => .fault c a s

/-- The effect of a vector instruction up to its retirement. -/
def State.vecStep (s : State) (t : TileId) (u : UEntry) : Prog :=
  let n := u.args.imm.toNat
  let ty := bitsN n 1 0
  let ra := u.args.ga.toNat; let rb := u.args.gb.toNat; let rc := u.args.gc.toNat
  let tl := s.tiles[t]
  match u.op with
  | .vcvt =>
    let (fr, s) := s.fresh 64
    .fin 0 (s.modTile t (fun tl' => tl'.vPut ra (fun i => laneCvt (bitsN n 3 2) (tl.vGet rb i) (Config.freeNat (fr + i)))))
  | .vld =>
    if bitN n 2 then
      if tl.loads.any (fun l => match l.vec with | some x => x.1 == u.seq | none => false) then .stay s
      else
        let bs := (List.range 256).map (fun i => spGet (fun _ => (0 : Byte)) u.buf i)
        .fin 0 (s.modTile t (fun tl => tl.vPut ra (fun i => leAt bs (4 * i) 4)))
    else .fin 0 (s.modTile t (fun tl' => tl'.vPut ra (fun i => tl.tsNat (u.gb.toNat + 4 * i) 4)))
  | .vst =>
    let bytes := fun (o k : Nat) => (List.range (k / 4)).flatMap (fun i => toLe (tl.vGet ra (o / 4 + i)) 4)
    if bitN n 2 then
      State.steps (fun s i =>
        match s.storeAddr t u.tag (u.gb.toNat + 64 * i) 64 with
        | .miss v st => .stay (s.addWalk t v st (some u.seq))
        | .fault c a => .fault c a s
        | .ok pa =>
          match s.tiles[t].sbPut pa (bytes (64 * i) 64) u.tag with
          | some tl => .fin 0 (s.modTile t (fun _ => tl))
          | none => .stay (s.count64 (Reg.tileCntSbfull t))) t u.seq (4 - u.done) u.done s
    else .fin 0 (s.modTile t (fun tl => tl.tsPuts u.gb.toNat (bytes 0 256)))
  | .vbcast => .fin 0 (s.modTile t (fun tl => tl.vPut ra (fun _ => u.gb.toNat % 2 ^ 32)))
  | .vlane => .fin (tl.vGet rb (bitsN n 7 2)) s
  | .vrsum =>
    let (fr, s) := s.fresh 2
    let (v, stated) := laneSum ty ((List.range 64).map (tl.vGet rb))
    let v := if stated then v else Config.freeNat fr % 2 ^ 32
    .fin (v + (if bitN v 31 && ty != 2 then 2 ^ 32 * (Config.freeNat (fr + 1) % 2 ^ 32) else 0)) s
  | .lblSt => State.steps (fun s i => s.labelLane t u i) t u.seq (64 - u.done) u.done s
  | op =>
    let (fr, s) := s.fresh 64
    .fin 0 (s.modTile t (fun tl' => tl'.vPut ra (fun i => laneOp op ty (tl.vGet rb i) (tl.vGet rc i) (Config.freeNat (fr + i)))))

end Sys2Proof.Machine
end

