-- ==== Sys2Proof/Machine/Quill.lean ====
section
/-! DEFINITION. Quill (08_quill.md, R409 to R411): expansion and compression of sparse operands, merge, intersection, sort, and the
reduction of drained rows through the merge tree. -/

namespace Sys2Proof.Machine

/-- A stream element: key and payload lanes. -/
abbrev QElem := Nat × List Nat

/-- A stream descriptor (Table 12-9). -/
structure Stream where
  keys : Nat
  pay : Nat
  len : Nat
  w : Nat
  fp : Bool
  area1 : Nat
  area2 : Nat
  deriving DecidableEq, Repr

/-- The stream descriptor at an address; none where a field lies outside its range (R280). -/
def Tile.stream (tl : Tile) (a : Nat) (long : Bool) : Option Stream :=
  let x := tl.tsNat (a + 0xC) 4
  if bitsN x 31 9 ≠ 0 ∨ 128 < bitsN x 7 0 then none
  else some ⟨tl.tsNat a 4, tl.tsNat (a + 4) 4, tl.tsNat (a + 8) 4, bitsN x 7 0, bitN x 8,
    if long then tl.tsNat (a + 0x10) 4 else 0, if long then tl.tsNat (a + 0x14) 4 else 0⟩

/-- The elements of a stream. -/
def Tile.elems (tl : Tile) (d : Stream) : List QElem :=
  (List.range d.len).map (fun i =>
    (tl.tsNat (d.keys + 4 * i) 4, (List.range d.w).map (fun j => tl.tsNat (d.pay + 4 * (d.w * i + j)) 4)))

/-- Two payloads summed lane by lane, with the number of saturations (R279). -/
def sumPay (fp : Bool) (a b : List Nat) : List Nat × Nat :=
  let xs := (a.zip b).map (fun p => if fp then (fadd p.1 p.2, false) else satAdd p.1 p.2)
  (xs.map (·.1), (xs.filter (·.2)).length)

/-- Keys of a sorted stream checked (R277): kept elements, out of range, out of order. -/
def checkKeys (bound : Nat) (ordered : Bool) (es : List QElem) : List QElem × Nat × Nat :=
  let r := es.foldl (fun (x : List QElem × Nat × Nat × Nat) (e : QElem) =>
    let (kept, rng, ord, prev) := x
    if bound ≠ 0 ∧ bound ≤ e.1 then (kept, rng + 1, ord, prev)
    else if ordered ∧ e.1 < prev then (kept, rng, ord + 1, prev)
    else (e :: kept, rng, ord, e.1)) ([], 0, 0, 0)
  (r.1.reverse, r.2.1, r.2.2.1)

/-- Sorted streams merged, equal keys summed in stream order and within a stream in arrival order, with the number of
saturations (R279). -/
def mergeAll (fp : Bool) (ss : List (List QElem)) : List QElem × Nat :=
  let all := ss.flatten.mergeSort (fun a b => decide (a.1 ≤ b.1))
  let r := all.foldl (fun (x : List QElem × Nat) (e : QElem) =>
    match x.1 with
    | c :: rest =>
      if c.1 = e.1 then
        let (p, n) := sumPay fp c.2 e.2
        ((c.1, p) :: rest, x.2 + n)
      else (e :: x.1, x.2)
    | [] => ([e], x.2)) ([], 0)
  (r.1.reverse, r.2)

/-- A list cut into pieces of `n`, with fuel. -/
def chunks {α : Type} (n : Nat) : Nat → List α → List (List α)
  | 0, _ => []
  | _ + 1, [] => []
  | k + 1, l => l.take n :: chunks n k (l.drop n)

/-- The later passes of QSORT: up to 16 runs merged at a time until one is left; the result, saturations, elements the root
consumed, passes. -/
def sortPasses (fp : Bool) : Nat → List (List QElem) → Nat × Nat × Nat → List QElem × Nat × Nat × Nat
  | 0, _, x => ([], x)
  | k + 1, runs, (sat, used, passes) =>
    match runs with
    | [] => ([], sat, used, passes)
    | [r] => (r, sat, used, passes)
    | _ =>
      let next := (chunks 16 runs.length runs).map (mergeAll fp)
      sortPasses fp k (next.map (·.1))
        (sat + (next.map (·.2)).foldl (· + ·) 0, used + (runs.map List.length).foldl (· + ·) 0, passes + 1)

/-- QSORT (R285): runs of 64 with equal keys summed, then the later passes. -/
def sortAll (fp : Bool) (es : List QElem) : List QElem × Nat × Nat × Nat :=
  let runs := (chunks 64 es.length es).map (fun r => mergeAll fp [r])
  sortPasses fp (es.length + 1) (runs.map (·.1)) ((runs.map (·.2)).foldl (· + ·) 0, es.length, 1)

/-- Whether an operation is Quill's. -/
def UOp.isQuill : UOp → Bool
  | .qexp | .qcmp | .qmrgU | .qmrgI | .qsort | .qred => true
  | _ => false

/-- The decode check of class 0x18. -/
def quillDecode (op : UOp) (a : UArgs) : Bool :=
  let n := a.imm.toNat
  match op with
  | .qexp => n == 0 && a.gb == 0 && a.rd == 0
  | .qcmp => n == 0 && a.rd == 0
  | .qmrgU => n / 32 == 0
  | .qred => bitsN n 7 0 == 0 && a.rd == 0
  | _ => n == 0

/-- Bytes of `n` elements of a format. -/
def elemBytes (fmt n : Nat) : Nat := (n * fmtBits fmt + 7) / 8

/-- Element `i` of a dense row in the tile store. -/
def Tile.denseAt (tl : Tile) (a fmt i : Nat) : Nat :=
  if fmt = 2 then tl.tsNat (a + 2 * i) 2
  else if fmt = 1 then (if i % 2 = 0 then (tl.tsByte (a + i / 2)).toNat % 16 else (tl.tsByte (a + i / 2)).toNat / 16)
  else (tl.tsByte (a + i)).toNat

/-- A dense row of `l` elements from its non-zero ones. -/
def denseBytes (fmt l : Nat) (es : List (Nat × Nat)) : List Byte :=
  toLe (es.foldl (fun n e => n + (e.2 % 2 ^ fmtBits fmt) * 2 ^ (fmtBits fmt * e.1)) 0) (elemBytes fmt l)

/-- The groups QCMP makes: every non-zero element, or under a fixed mask the positions the mask sets (R296). -/
def State.cmpRows (s : State) (t : TileId) (d : SpDesc) (m : MatWord) (mask : Option SpDesc) : List (List (Nat × Nat)) :=
  let tl := s.tiles[t]
  (List.range d.rows).map (fun r =>
    let a := m.base + r * m.stride
    match mask with
    | some k => ((tl.spRow k r).1.elems.filter (fun e => decide (e.1 < d.l))).map (fun e => (e.1, tl.denseAt a d.fmt e.1))
    | none => ((List.range d.l).map (fun i => (i, tl.denseAt a d.fmt i))).filter (fun e => e.2 != 0))

/-- The groups with their offsets from the base. -/
def groupOffsets (gs : List (List Byte)) : List (Nat × List Byte) :=
  (gs.foldl (fun (x : List (Nat × List Byte) × Nat) g => ((x.2, g) :: x.1, x.2 + g.length)) ([], 0)).1.reverse

/-- Descriptors of a QMRG.U's input streams. -/
def Tile.inStreams (tl : Tile) (a n : Nat) : Option (List Stream) :=
  let l := (List.range n).map (fun i => tl.stream (a + 16 * i) false)
  if l.all Option.isSome then some (l.filterMap id) else none

/-- The tile-store accesses of a stream's elements. -/
def State.streamCheck (s : State) (t : TileId) (tag : Option Nat) (write : Bool) (d : Stream) (n : Nat) : Acc3 Unit :=
  (s.tsCheck t tag write d.keys (4 * n)).bind (fun _ => s.tsCheck t tag write d.pay (4 * d.w * n))

/-- The fixed-mask operand of a QCMP, if it names one. -/
def Tile.maskDesc (tl : Tile) (u : UEntry) : Option SpDesc := if u.gb = 0 then none else tl.spDesc (bitsN u.gb.toNat 21 0)

/-- The width and type a QRED's GB names. -/
def qredW (u : UEntry) : Nat := bitsN u.gb.toNat 23 16

/-- What the start of a Quill operation comes to (R280, R389). -/
def State.quillCheck (s : State) (t : TileId) (u : UEntry) : Acc3 Unit :=
  let tl := s.tiles[t]
  let ad := fun (w : W64) => bitsN w.toNat 21 0
  let rd := fun (a n : Nat) (k : Acc3 Unit) => (s.tsCheck t u.tag false a n).bind (fun _ => k)
  match u.op with
  | .qexp =>
    rd (ad u.ga) 32 (match tl.spDesc (ad u.ga), matWord u.gc false false with
      | some d, some m => (s.spCheck t u.tag d).bind (fun _ => s.tsRows t u.tag true m.base m.stride (elemBytes d.fmt d.l) d.rows)
      | _, _ => .fault .illegal 0)
  | .qcmp =>
    rd (ad u.ga) 32 (rd (ad u.gb) (if u.gb = 0 then 0 else 32) (match tl.spDesc (ad u.ga), matWord u.gc false false with
      | some d, some m =>
        if u.gb ≠ 0 ∧ (tl.maskDesc u).isNone then .fault .illegal 0
        else
          (match tl.maskDesc u with
            | some k => s.spCheck t u.tag { k with rows := min k.rows d.rows }
            | none => Acc3.ok ()).bind (fun _ =>
          (s.tsRows t u.tag false m.base m.stride (elemBytes d.fmt d.l) d.rows).bind (fun _ =>
          (s.tsCheck t u.tag true d.offs (4 * d.rows)).bind (fun _ =>
            s.tsCheck t u.tag true d.base
              (((s.cmpRows t d m (tl.maskDesc u)).map (fun es => (writeGroup es d.fmt).length)).foldl (· + ·) 0))))
      | _, _ => .fault .illegal 0))
  | .qmrgU =>
    let n := bitsN u.args.imm.toNat 4 0
    if n = 0 ∨ 16 < n then .fault .illegal 0
    else rd (ad u.ga) (16 * n) (rd (ad u.gc) 16 (match tl.inStreams (ad u.ga) n, tl.stream (ad u.gc) false with
      | some ins, some o =>
        if ins.any (fun d => d.w != o.w || d.fp != o.fp) then .fault .illegal 0
        else (Acc3.all (fun (d : Stream) => s.streamCheck t u.tag false d d.len) ins).bind (fun _ =>
          let out := (mergeAll o.fp (ins.map (fun d => (checkKeys u.gb.toNat true (tl.elems d)).1))).1
          s.streamCheck t u.tag true o (min o.len out.length))
      | _, _ => .fault .illegal 0))
  | .qmrgI =>
    rd (ad u.ga) 16 (rd (ad u.gb) 16 (rd (ad u.gc) 16 (match tl.stream (ad u.ga) false, tl.stream (ad u.gb) false, tl.stream (ad u.gc) false with
      | some a, some b, some o =>
        (s.tsCheck t u.tag false a.keys (4 * a.len)).bind (fun _ => (s.tsCheck t u.tag false b.keys (4 * b.len)).bind (fun _ =>
          s.tsCheck t u.tag true o.keys (8 * min o.len (min a.len b.len))))
      | _, _, _ => .fault .illegal 0)))
  | .qsort =>
    rd (ad u.ga) 16 (rd (ad u.gc) 32 (match tl.stream (ad u.ga) false, tl.stream (ad u.gc) true with
      | some d, some o =>
        if d.w ≠ o.w ∨ d.fp ≠ o.fp then .fault .illegal 0
        else (s.streamCheck t u.tag false d d.len).bind (fun _ =>
          let (out, _, _, p) := sortAll o.fp (checkKeys u.gb.toNat false (tl.elems d)).1
          (s.tsCheck t u.tag true o.area1 (if 2 ≤ p then d.len * (4 + 4 * d.w) else 0)).bind (fun _ =>
          (s.tsCheck t u.tag true o.area2 (if 3 ≤ p then d.len * (4 + 4 * d.w) else 0)).bind (fun _ =>
            s.streamCheck t u.tag true o (min o.len out.length))))
      | _, _ => .fault .illegal 0))
  | _ => if 128 < qredW u ∨ (matWord u.gc false false).isNone then .fault .illegal 0 else .ok ()

/-- A QRED starts: its leaves are empty and wait for its passes, less those that have retired already (R281, R411). -/
def State.quillStart (s : State) (t : TileId) (u : UEntry) : State :=
  if u.op = .qred then
    let mask := bitsN u.args.imm.toNat 12 9
    let early := s.tiles[t].qll.early
    let n := fun (a : Nat) => if a < 4 ∧ bitN mask a then bitsN u.gb.toNat 15 0 else 0
    let rest := (List.range 4).foldl (fun (l : List (Nat × Option Nat)) a => (List.range (n a)).foldl (fun l _ => l.erase (a, u.tag)) l) early
    s.modTile t (fun tl => { tl with qll := { QllSt.empty with
      left := Vector.ofFn (fun a : Fin 16 => n a.val - (early.count (a.val, u.tag) - rest.count (a.val, u.tag))), early := rest } })
  else s

/-- An output stream written (R410): elements past the capacity are dropped, counted, and set the error bit. -/
def State.writeStream (s : State) (t : TileId) (tag : Option Nat) (o : Stream) (es : List QElem) : State :=
  let s := s.modTile t (fun tl => (es.take o.len).zipIdx.foldl (fun (tl : Tile) (x : QElem × Nat) =>
    (tl.tsPuts (o.keys + 4 * x.2) (toLe x.1.1 4)).tsPuts (o.pay + 4 * o.w * x.2) (x.1.2.flatMap (fun v => toLe v 4))) tl)
  s.quillCount t tag (Cnt.qllCntRange t) (es.length - o.len)

/-- A stretch of the tile store whose contents the manual leaves open. -/
def State.scramble (s : State) (t : TileId) (a n : Nat) : State :=
  let (b, s) := s.fresh n
  s.modTile t (fun tl => tl.tsPuts a ((List.range n).map (fun i => BitVec.ofNat 8 (Config.freeNat (b + i)))))

/-! ### The merge tree under QRED (R281 to R284) -/

/-- A merged row put into the output matrix, or the fault its write meets. -/
def State.qredWrite (s : State) (t : TileId) (u : UEntry) (row : QElem) : Acc3 State :=
  match matWord u.gc false false with
  | none => .ok s
  | some m =>
    let a := m.base + row.1 * m.stride
    let n := 4 * row.2.length
    (s.tsCheck t u.tag true a n).bind (fun _ =>
      if bitN u.args.imm.toNat 8 then
        let old := (List.range row.2.length).map (fun j => s.tiles[t].tsNat (a + 4 * j) 4)
        let (p, c) := sumPay (bitN u.gb.toNat 24) old row.2
        .ok ((s.count (Cnt.qllCntSat t) c).modTile t (fun tl => tl.tsPuts a (p.flatMap (fun v => toLe v 4))))
      else .ok (s.modTile t (fun tl => tl.tsPuts a (row.2.flatMap (fun v => toLe v 4)))))

/-- The row being summed leaves the root; false where its write raised an exception, which stops the root. -/
def State.qredFlush (s : State) (t : TileId) (u : UEntry) : Bool × State :=
  match s.tiles[t].qll.cur with
  | none => (true, s)
  | some row =>
    match s.qredWrite t u row with
    | .ok s => (true, s.modTile t (fun tl => { tl with qll := { tl.qll with cur := none } }))
    | .fault c a => (false, s.raiseU t ⟨c, a⟩ u)
    | .miss _ _ => (false, s)

/-- The smallest head among the leaves, lowest leaf first. -/
def QllSt.least (q : QllSt) : Option (Nat × QElem) :=
  q.leaves.toList.zipIdx.foldl (fun (b : Option (Nat × QElem)) (x : List QElem × Nat) =>
    match x.1.head?, b with
    | some e, some y => if e.1 < y.2.1 then some (x.2, e) else b
    | some e, none => some (x.2, e)
    | none, b => b) none

/-- Whether every leaf that still expects passes has a row at its head. -/
def QllSt.ready (q : QllSt) : Bool := (q.leaves.toList.zip q.left.toList).all (fun x => x.2 == 0 || !x.1.isEmpty)

/-- Whether the tree has nothing more to take in. -/
def QllSt.finished (q : QllSt) : Bool := q.leaves.toList.all List.isEmpty && q.left.toList.all (· == 0)

/-- The root takes rows while it can. -/
def State.rootRun (s : State) (t : TileId) (u : UEntry) : Nat → State
  | 0 => s
  | k + 1 =>
    let q := s.tiles[t].qll
    if !q.ready then s
    else match q.least with
      | none => if q.finished then (s.qredFlush t u).2 else s
      | some (leaf, e) =>
        let pop := fun (q : QllSt) => { q with leaves := Vector.ofFn (fun i : Fin 16 => if i.val = leaf then q.leaves[i].drop 1 else q.leaves[i]) }
        let s := s.count64 (Reg.qllCntElem t)
        match q.cur with
        | some c =>
          if c.1 = e.1 then
            let (p, n) := sumPay (bitN u.gb.toNat 24) c.2 e.2
            ((s.count (Cnt.qllCntSat t) n).modTile t (fun tl => { tl with qll := { pop tl.qll with cur := some (c.1, p) } })).rootRun t u k
          else
            let (ok, s) := s.qredFlush t u
            if ok then (s.modTile t (fun tl => { tl with qll := { pop tl.qll with cur := some e } })).rootRun t u k else s
        | none => (s.modTile t (fun tl => { tl with qll := { pop tl.qll with cur := some e } })).rootRun t u k

/-- Fuel for the root: every row a leaf can hold, and one step to finish. -/
def rootFuel : Nat := 16 * 64 + 2

/-- The QRED that takes rows of a leaf for a tag now (R282). -/
def State.qredFor (s : State) (t : TileId) (leaf : Nat) (tag : Option Nat) : Option UEntry :=
  match s.tiles[t].first 5 with
  | some u =>
    if u.op = .qred ∧ u.started ∧ u.tag = tag ∧ 0 < s.tiles[t].qll.left.toList.getD leaf 0 then some u else none
  | none => none

/-- A row delivered to a leaf, or refused: none. -/
def State.deliver (s : State) (t : TileId) (p : Pass) (tag : Option Nat) (key : Nat) (ws : List Nat) : Option State :=
  match s.qredFor t p.leaf tag with
  | none => none
  | some q =>
    let tr := s.tiles[t].qll
    if 64 ≤ (tr.leaves.toList.getD p.leaf []).length then none
    else
      let bound := q.ga.toNat
      let prev := (tr.prev.toList.getD p.leaf none).getD 0
      if ws.length ≠ qredW q ∨ (bound ≠ 0 ∧ bound ≤ key) then some (s.quillCount t tag (Cnt.qllCntRange t) 1)
      else if key < prev then some (s.quillCount t tag (Cnt.qllCntOrder t) 1)
      else
        some ((s.modTile t (fun tl => { tl with qll := { tl.qll with
          leaves := Vector.ofFn (fun i : Fin 16 => if i.val = p.leaf then tl.qll.leaves[i] ++ [(key, ws)] else tl.qll.leaves[i])
          prev := Vector.ofFn (fun i : Fin 16 => if i.val = p.leaf then some key else tl.qll.prev[i]) } })).rootRun t q rootFuel)

/-- A pass that drains to Quill has retired: one fewer to come for the QRED that names it, now or later (R283, R411). -/
def State.passDelivered (s : State) (t : TileId) (p : Pass) (tag : Option Nat) : State :=
  match s.qredFor t p.leaf tag with
  | none => s.modTile t (fun tl => { tl with qll := { tl.qll with early := tl.qll.early ++ [(p.leaf, tag)] } })
  | some q =>
    (s.modTile t (fun tl => { tl with qll := { tl.qll with
      left := Vector.ofFn (fun i : Fin 16 => if i.val = p.leaf then tl.qll.left[i] - 1 else tl.qll.left[i]) } })).rootRun t q rootFuel

/-! ### The rows of a pass -/

/-- Rows of the drain buffer handed to the leaf while it takes them (R263, R282), with fuel. -/
def State.drainOut (s : State) (t : TileId) (seq : Nat) (p : Pass) : Nat → State
  | 0 => s
  | k + 1 =>
    match s.entry t seq with
    | none => s
    | some e =>
      match e.drain with
      | [] => s
      | (key, ws) :: rest =>
        match s.deliver t p e.tag key ws with
        | some s => (s.modEntry t seq (fun e => { e with drain := rest })).drainOut t seq p k
        | none => s

/-- Rows in an instruction's drain buffer. -/
def State.drainLen (s : State) (t : TileId) (seq : Nat) : Nat := ((s.entry t seq).map (fun e => e.drain.length)).getD 0

/-- A frozen cycle of a pass, counted on each member (R262 to R264). -/
def State.freeze (s : State) (t : TileId) (p : Pass) (c : Nat → Nat) : State :=
  (p.mem.foldl (fun (s : State) a => s.count64 (c a)) s).setFrozen t p true

/-- Row `i` of a pass: frozen while its drain buffer is full or its feeder dry; else its activation enters, its result is summed into
the accumulator and goes to the tile store or, through the drain buffer, to the merge tree. -/
def State.passOne (s : State) (t : TileId) (u : UEntry) (p : Pass) (i : Nat) : Prog :=
  let toQuill := p.imm.quill && p.imm.drain != 0 && p.sh.n != 0
  let s := s.drainOut t u.seq p 17
  if (s.entry t u.seq).isNone then .stay s
  else if toQuill && decide (16 ≤ s.drainLen t u.seq) then .stay (s.freeze t p (Reg.tileArrFrzDrain t))
  else match s.feed t u p i with
  | .fault c a => .fault c a s
  | .dry => .stay (s.freeze t p (Reg.tileArrFrzFeed t))
  | .row xs out gs =>
    let s := (s.takeSwaps t u.seq p).setFrozen t p false
    let s := gs.foldl (fun (s : State) g => s.groupCount t u.tag g.1 g.2) s
    let (ws, s) := s.passRow t u p i xs
    let s := (p.mem.foldl (fun (s : State) a => s.count64 (Reg.tileArrCntBusy t a)) s).consumeRing t p
    if p.sh.n = 0 then .fin 0 s
    else if toQuill then .fin 0 ((s.modEntry t u.seq (fun e => { e with drain := e.drain ++ [(out, ws)] })).drainOut t u.seq p 17)
    else .fin 0 (s.modTile t (fun tl => tl.tsPuts (p.dst.base + i * p.dst.stride) (s.drainRow t p ws)))

/-- A pass takes its rows from `done` on, and is complete once its last row has left the drain (R236, R238, R262 to R264); a leaf
that still refuses a row is counted. -/
def State.passStep (s : State) (t : TileId) (u : UEntry) : Prog :=
  match u.pass with
  | none => .fin 0 s
  | some p =>
    let fin := fun (s : State) =>
      let s := (p.mem.foldl (fun (s : State) a => s.count64 (Reg.tileArrCntPass t a)) s).setFrozen t p false
      Prog.fin 0 (if p.imm.quill && p.imm.drain != 0 then s.passDelivered t p u.tag else s)
    if p.sh.m = 0 then fin s
    else
      let refused := fun (s : State) => if 0 < s.drainLen t u.seq then s.count64 (Reg.qllCntMstall t) else s
      match State.steps (fun s i => s.passOne t u p i) t u.seq (p.sh.m - u.done) u.done s with
      | .fin _ s =>
        let s := s.drainOut t u.seq p 17
        if (s.entry t u.seq).isNone ∨ 0 < s.drainLen t u.seq then .stay (refused s) else fin s
      | .stay s => .stay (refused s)
      | x => x

/-! ### The other operations -/

/-- The effect of a Quill operation up to its retirement. -/
def State.quillStep (s : State) (t : TileId) (u : UEntry) : Prog :=
  let tl := s.tiles[t]
  let ad := fun (w : W64) => bitsN w.toNat 21 0
  match u.op with
  | .qexp =>
    match tl.spDesc (ad u.ga), matWord u.gc false false with
    | some d, some m =>
      .fin 0 ((s.spRows t d).zipIdx.foldl (fun (s : State) (x : (Group × Bool) × Nat) =>
        (s.modTile t (fun tl => tl.tsPuts (m.base + x.2 * m.stride) (denseBytes d.fmt d.l x.1.1.elems))).groupCount t u.tag x.1.1 x.1.2) s)
    | _, _ => .fin 0 s
  | .qcmp =>
    match tl.spDesc (ad u.ga), matWord u.gc false false with
    | some d, some m =>
      let mask := tl.maskDesc u
      let gs := groupOffsets ((s.cmpRows t d m mask).map (fun es => writeGroup es d.fmt))
      let s := match mask with
        | some k => (List.range (min k.rows d.rows)).foldl (fun (s : State) r => let x := tl.spRow k r; s.groupCount t u.tag x.1 x.2) s
        | none => s
      .fin 0 (s.modTile t (fun tl => gs.zipIdx.foldl (fun (tl : Tile) (x : (Nat × List Byte) × Nat) =>
        (tl.tsPuts (d.offs + 4 * x.2) (toLe x.1.1 4)).tsPuts (d.base + x.1.1) x.1.2) tl))
    | _, _ => .fin 0 s
  | .qmrgU =>
    match tl.inStreams (ad u.ga) (bitsN u.args.imm.toNat 4 0), tl.stream (ad u.gc) false with
    | some ins, some o =>
      let ks := ins.map (fun d => checkKeys u.gb.toNat true (tl.elems d))
      let (out, sat) := mergeAll o.fp (ks.map (·.1))
      let s := s.quillCount t u.tag (Cnt.qllCntRange t) ((ks.map (·.2.1)).foldl (· + ·) 0)
      let s := s.quillCount t u.tag (Cnt.qllCntOrder t) ((ks.map (·.2.2)).foldl (· + ·) 0)
      let s := (s.count (Cnt.qllCntSat t) sat).count64 (Reg.qllCntElem t) ((ks.map (·.1.length)).foldl (· + ·) 0)
      .fin out.length (s.writeStream t u.tag o out)
    | _, _ => .fin 0 s
  | .qmrgI =>
    match tl.stream (ad u.ga) false, tl.stream (ad u.gb) false, tl.stream (ad u.gc) false with
    | some a, some b, some o =>
      let pos := fun (d : Stream) => checkKeys 0 true ((List.range d.len).map (fun i => (tl.tsNat (d.keys + 4 * i) 4, [i])))
      let ka := pos a; let kb := pos b
      let ia := ka.1.map (fun e => (e.1, e.2.headD 0)); let ib := kb.1.map (fun e => (e.1, e.2.headD 0))
      let out := (ia.foldl (fun (x : List (Nat × Nat) × List (Nat × Nat)) (e : Nat × Nat) =>
        match x.2.dropWhile (fun y => decide (y.1 < e.1)) with
        | y :: r => if y.1 = e.1 then ((e.2, y.2) :: x.1, r) else (x.1, y :: r)
        | [] => (x.1, [])) ([], ib)).1.reverse
      let s := s.quillCount t u.tag (Cnt.qllCntOrder t) (ka.2.2 + kb.2.2)
      let s := s.count64 (Reg.qllCntElem t) (ia.length + ib.length)
      let s := s.modTile t (fun tl => (out.take o.len).zipIdx.foldl (fun (tl : Tile) (x : (Nat × Nat) × Nat) =>
        tl.tsPuts (o.keys + 8 * x.2) (toLe x.1.1 4 ++ toLe x.1.2 4)) tl)
      .fin out.length (s.quillCount t u.tag (Cnt.qllCntRange t) (out.length - o.len))
    | _, _, _ => .fin 0 s
  | .qsort =>
    match tl.stream (ad u.ga) false, tl.stream (ad u.gc) true with
    | some d, some o =>
      let ks := checkKeys u.gb.toNat false (tl.elems d)
      let (out, sat, used, p) := sortAll o.fp ks.1
      let s := s.quillCount t u.tag (Cnt.qllCntRange t) ks.2.1
      let s := (s.count (Cnt.qllCntSat t) sat).count64 (Reg.qllCntElem t) used
      let size := d.len * (4 + 4 * d.w)
      let s := if 2 ≤ p then s.scramble t o.area1 size else s
      let s := if 3 ≤ p then s.scramble t o.area2 size else s
      .fin out.length (s.writeStream t u.tag o out)
    | _, _ => .fin 0 s
  | _ =>
    let s := s.rootRun t u rootFuel
    let q := s.tiles[t].qll
    if (s.entry t u.seq).isSome && q.finished && q.cur.isNone then .fin 0 s else .stay s

end Sys2Proof.Machine
end

