-- ==== Sys2Proof/Machine/Trees.lean ====
section
/-! DEFINITION. The tree unit (10_trees.md, R415, R416): image loads, ladder scoring and node walks. -/

namespace Sys2Proof.Machine

/-- Whether an operation is the tree unit's. -/
def UOp.isTree : UOp → Bool
  | .treLdl | .treLdn | .treLadder | .treWalk => true
  | _ => false

/-- The decode check of class 0x20. -/
def treeDecode (op : UOp) (a : UArgs) : Bool :=
  let n := a.imm.toNat
  a.rd == 0 && (match op with
    | .treLdl => n == 0 && a.gb == 0 && a.gc == 0
    | .treLdn => n == 0 && a.gc == 0
    | _ => bitsN n 7 0 == 0 && bitsN n 12 9 == 0)

/-- A little-endian number in a byte store. -/
def storeNat (m : List Host.Cell) (a k : Nat) : Nat := leNat ((List.range k).map (fun i => spGet (fun _ => (0 : Byte)) m (a + i)))

/-- Bytes put in a byte store. -/
def storePuts (m : List Host.Cell) (a : Nat) : List Byte → List Host.Cell
  | [] => m
  | b :: r => storePuts (spSet (fun _ => (0 : Byte)) m a b) (a + 1) r

/-- The header of a ladder image: trees, depth, BF16, features (Table 10-2). -/
structure Ladder where
  t : Nat
  d : Nat
  bf : Bool
  fcount : Nat
  deriving DecidableEq, Repr

/-- A ladder header word. -/
def ladderHead (w : Nat) : Ladder := ⟨bitsN w 3 0, bitsN w 7 4, bitN w 8, bitsN w 15 9 + 1⟩

/-- Bytes of a ladder image. -/
def Ladder.size (l : Ladder) : Nat := 16 + 4 * l.t * (2 ^ l.d - 1) + 2 * l.t * 2 ^ l.d

/-- Bytes between feature rows. -/
def featStride (fcount : Nat) : Nat := (2 * fcount + 63) / 64 * 64

/-- An ensemble descriptor (Table 10-5). -/
structure Ensemble where
  nt : Nat
  bf : Bool
  fcount : Nat
  nodes : Nat
  deriving DecidableEq, Repr

/-- An ensemble descriptor from its first two words. -/
def ensembleOf (w nodes : Nat) : Ensemble := ⟨bitsN w 12 0, bitN w 13, bitsN w 23 14 + 1, nodes⟩

/-- The ensemble descriptor at an address. -/
def Tile.ensemble (tl : Tile) (a : Nat) : Ensemble := ensembleOf (tl.tsNat a 4) (tl.tsNat (a + 4) 4)

/-- The descriptor address of a TRE.WALK. -/
def walkDesc (u : UEntry) : Nat := bitsN u.ga.toNat 53 32

/-- Entities that can lie in a tile store, one past its end. -/
def entCap (e : Nat) : Nat := min e (tileStoreBytes / 32 + 1)

/-- What the start of a tree instruction comes to (R355, R358, R359, R416). -/
def State.treeCheck (s : State) (t : TileId) (u : UEntry) : Acc3 Unit :=
  let tl := s.tiles[t]
  let base := bitsN u.ga.toNat 21 0
  let e := entCap u.gb.toNat
  let rows := fun (fc : Nat) =>
    (s.tsRows t u.tag false base (featStride fc) (2 * fc) e).bind (fun _ => s.tsRows t u.tag true u.gc.toNat 32 32 e)
  match u.op with
  | .treLdl =>
    (s.tsCheck t u.tag false base 16).bind (fun _ =>
      let l := ladderHead (tl.tsNat base 4)
      if 8 < l.t ∨ 8 < l.d ∨ l.d = 0 then .fault .load 0 else s.tsCheck t u.tag false base l.size)
  | .treLdn =>
    let n := bitsN u.gb.toNat 16 0
    let o := bitsN u.gb.toNat 47 32
    if 65536 < o + n ∨ s.fld (Reg.treNodes t) 16 0 < o then .fault .load 0 else s.tsCheck t u.tag false base (8 * n)
  | .treLadder =>
    if u.gb = 0 then .ok ()
    else if ¬ s.bit (Reg.treStat t) 3 then .fault .load 0
    else rows (ladderHead (storeNat tl.ladder 0 4)).fcount
  | _ =>
    if u.gb = 0 then .ok ()
    else (s.tsCheck t u.tag false (walkDesc u) 64).bind (fun _ =>
      let d := tl.ensemble (walkDesc u)
      if 4096 < d.nt then .fault .illegal 0
      else if ¬ s.bit (Reg.treStat t) 4 ∨ d.nodes ≠ s.fld (Reg.treNodes t) 16 0 then .fault .load 0
      else (s.tsCheck t u.tag false (walkDesc u + 64) (4 * d.nt)).bind (fun _ => rows d.fcount))

/-- A BF16 number's place in the order of numbers, both zeros at 0 (R343). -/
def bfKey (v : Nat) : Int := if 32768 ≤ v then -((v % 32768 : Nat) : Int) else (v : Int)

/-- Whether a feature is below a threshold (R343): BF16 numbers as they stand, subnormal ones too, and a NaN below nothing. -/
def featLt (bf : Bool) (f th : Nat) : Bool :=
  if bf then !(isNan32 (bfTo32 f)) && !(isNan32 (bfTo32 th)) && decide (bfKey f < bfKey th) else decide (sint 16 f < sint 16 th)

/-- Whether a feature is missing (R342). -/
def featMissing (bf : Bool) (f : Nat) : Bool := if bf then isNan32 (bfTo32 f) else f == 0x8000

/-- The leaf a ladder tree reaches: `k` levels to go from heap node `i` (R345). -/
def ladderLeaf (cmp : Nat → Bool) (d : Nat) : Nat → Nat → Nat
  | 0, i => i + 1 - 2 ^ d
  | k + 1, i => ladderLeaf cmp d k (if cmp i then 2 * i + 1 else 2 * i + 2)

/-- Counts a walk makes: visits, bad links, features out of range, walks ended by depth. -/
structure WalkCnt where
  visit : Nat
  link : Nat
  feat : Nat
  depth : Nat
  deriving DecidableEq, Repr

/-- A walk from node `i` with `n` internal nodes behind it (R347 to R350): the leaf value and the counts. -/
def walkTree (nodes : List Host.Cell) (count fcount : Nat) (bf : Bool) (feat : Nat → Nat) : Nat → Nat → Nat → WalkCnt → Nat × WalkCnt
  | 0, _, _, c => (0, c)
  | k + 1, i, n, c =>
    if count ≤ i then (0, { c with link := c.link + 1 })
    else
      let r := storeNat nodes (8 * i) 8
      let c := { c with visit := c.visit + 1 }
      if bitN r 27 then (bitsN r 15 0, c)
      else
        let right := bitsN r 43 28
        let f := bitsN r 9 0
        if count ≤ right ∨ count ≤ i + 1 ∨ right ≤ i then (0, { c with link := c.link + 1 })
        else if f < fcount ∧ 64 ≤ n + 1 then (0, { c with depth := c.depth + 1 })
        else
          let c := if fcount ≤ f then { c with feat := c.feat + 1 } else c
          let goRight : Bool :=
            if fcount ≤ f then bitN r 26
            else if featMissing bf (feat f) then bitN r 26
            else !(featLt bf (feat f) (bitsN r 25 10))
          walkTree nodes count fcount bf feat k (if goRight then right else i + 1) (n + 1) c

/-- Leaf values added to a row of eight scores in order, with the number of saturations (R354). -/
def addLeaves (bf : Bool) (row : List Nat) (ls : List (Nat × Nat)) : List Nat × Nat :=
  ls.foldl (fun (x : List Nat × Nat) (l : Nat × Nat) =>
    let old := x.1.getD l.1 0
    let (v, sat) := if bf then (fadd old (bfTo32 l.2), false) else satAdd old (unsint 32 (sint 16 l.2))
    (x.1.set l.1 v, if sat then x.2 + 1 else x.2)) (row, 0)

/-- One entity scored: its leaves added to the base or to the row that stands, and the row written (R353). -/
def State.scoreRow (s : State) (t : TileId) (u : UEntry) (bf : Bool) (base : List Nat) (e : Nat) (ls : List (Nat × Nat)) : State :=
  let a := u.gc.toNat + 32 * e
  let row := if bitN u.args.imm.toNat 8 then (List.range 8).map (fun c => s.tiles[t].tsNat (a + 4 * c) 4) else base
  let (out, sat) := addLeaves bf row ls
  ((s.count (Cnt.treCntSat t) sat).count64 (Reg.treCntEnt t)).modTile t (fun tl => tl.tsPuts a (out.flatMap (fun v => toLe v 4)))

/-- One entity through the ladder (R344, R345), from its row in the feature buffer. -/
def State.ladderOne (s : State) (t : TileId) (u : UEntry) (e : Nat) (row : List Byte) : State :=
  let tl := s.tiles[t]
  let l := ladderHead (storeNat tl.ladder 0 4)
  let (fr, s) := s.fresh 128
  let f := fun (k : Nat) => if k < l.fcount then leAt row (2 * k) 2 else Config.freeNat (fr + k) % 2 ^ 16
  let per := 2 ^ l.d - 1
  let word := fun (tr i : Nat) => storeNat tl.ladder (0x10 + 4 * (tr * per + i)) 4
  let cmp := fun (tr i : Nat) =>
    let w := word tr i
    bitN w 7 || featLt l.bf (f (bitsN w 6 0)) (bitsN w 31 16)
  let nans := if l.bf then ((List.range (l.t * per)).filter (fun j =>
    let w := word 0 j
    !(bitN w 7) && isNan32 (bfTo32 (f (bitsN w 6 0))))).length else 0
  let cls := storeNat tl.ladder 4 4
  let leaves := (List.range l.t).map (fun tr =>
    (bitsN cls (3 * tr + 2) (3 * tr),
      storeNat tl.ladder (0x10 + 4 * l.t * per + 2 * (tr * 2 ^ l.d + ladderLeaf (cmp tr) l.d l.d 0)) 2))
  let s := if nans = 0 then s else (s.count (Cnt.treCntNan t) nans).unitErr (Reg.treStat t) u.tag
  s.scoreRow t u l.bf (List.replicate 8 0) e leaves

/-- The ensemble a TRE.WALK checked when it started (R359). -/
def UEntry.ensemble (u : UEntry) : Ensemble := ensembleOf (u.ret % 2 ^ 32) (u.ret / 2 ^ 32)

/-- One entity through the node store (R348 to R352), from its row in the feature buffer. -/
def State.walkOne (s : State) (t : TileId) (u : UEntry) (e : Nat) (row : List Byte) : State :=
  let tl := s.tiles[t]
  let da := walkDesc u
  let d := u.ensemble
  let f := fun (k : Nat) => leAt row (2 * k) 2
  let (ls, c) := (List.range d.nt).foldl (fun (x : List (Nat × Nat) × WalkCnt) k =>
    let w := tl.tsNat (da + 0x40 + 4 * k) 4
    let (v, c) := walkTree tl.nodes d.nodes d.fcount d.bf f 65537 (bitsN w 15 0) 0 x.2
    ((bitsN w 18 16, v) :: x.1, c)) ([], (⟨0, 0, 0, 0⟩ : WalkCnt))
  let s := (((s.count64 (Reg.treCntVisit t) c.visit).count (Cnt.treCntLink t) c.link).count (Cnt.treCntFeat t) c.feat).count (Cnt.treCntDepth t) c.depth
  let s := if c.link + c.feat + c.depth = 0 then s else s.unitErr (Reg.treStat t) u.tag
  s.scoreRow t u d.bf ((List.range 8).map (fun k => tl.tsNat (da + 0x20 + 4 * k) 4)) e ls.reverse

/-- The feature loader fills a half of the buffer with the rows of entities `8 h` on, of `n` (R341). -/
def State.loadHalf (s : State) (t : TileId) (u : UEntry) (fcount n h : Nat) : State :=
  s.modTile t (fun tl =>
    let row := fun (e : Nat) => tl.ts (bitsN u.ga.toNat 21 0 + e * featStride fcount) (2 * fcount)
    { tl with feat := (List.range 16).map (fun i =>
        let e := 8 * h + i % 8
        if i / 8 = h % 2 ∧ e < n then row e else tl.feat.getD i []) })

/-- The entities of a half scored, in entity order (R352), with the loader at the half after it meanwhile (R341, log 120); `k` halves
are left. -/
def State.scoreHalves (score : State → Nat → List Byte → State) (t : TileId) (u : UEntry) (fcount n : Nat) : Nat → Nat → State → State
  | 0, _, s => s
  | k + 1, h, s =>
    let s := s.loadHalf t u fcount n (h + 1)
    let s := (List.range (min 8 (n - 8 * h))).foldl (fun (s : State) i =>
      score s (8 * h + i) (s.tiles[t].feat.getD (8 * (h % 2) + i) [])) s
    State.scoreHalves score t u fcount n k (h + 1) s

/-- Every entity scored through the feature buffer. -/
def State.scoreAll (s : State) (score : State → Nat → List Byte → State) (t : TileId) (u : UEntry) (fcount : Nat) : State :=
  let n := entCap u.gb.toNat
  State.scoreHalves score t u fcount n ((n + 7) / 8) 0 (s.loadHalf t u fcount n 0)

/-- The start of a tree instruction: TRE_STAT says which kind runs, and what a load or a walk has checked in the tile store is what
it uses (R358, R359). -/
def State.treeStart (s : State) (t : TileId) (u : UEntry) : State :=
  let tl := s.tiles[t]
  let head := match u.op with
    | .treLdl => tl.tsNat (bitsN u.ga.toNat 21 0) 4
    | .treWalk => tl.tsNat (walkDesc u) 8
    | _ => 0
  (s.putB (Reg.treStat t) 5 (u.op == .treWalk)).modEntry t u.seq (fun e => { e with ret := head })

/-- The effect of a tree instruction up to its retirement. -/
def State.treeStep (s : State) (t : TileId) (u : UEntry) : State :=
  let tl := s.tiles[t]
  let base := bitsN u.ga.toNat 21 0
  match u.op with
  | .treLdl =>
    let image := toLe u.ret 4 ++ (tl.ts base (ladderHead u.ret).size).drop 4
    (s.modTile t (fun tl => { tl with ladder := storePuts [] 0 image })).putB (Reg.treStat t) 3 true
  | .treLdn =>
    let n := bitsN u.gb.toNat 16 0
    let o := bitsN u.gb.toNat 47 32
    let s := s.modTile t (fun tl => { tl with nodes := storePuts tl.nodes (8 * o) (tl.ts base (8 * n)) })
    (s.put (Reg.treNodes t) (o + n)).putB (Reg.treStat t) 4 true
  | .treLadder =>
    if u.gb = 0 then s
    else
      let l := ladderHead (storeNat tl.ladder 0 4)
      (s.scoreAll (fun s e row => s.ladderOne t u e row) t u l.fcount).count64 (Reg.treCntPass t)
  | _ => s.scoreAll (fun s e row => s.walkOne t u e row) t u u.ensemble.fcount

end Sys2Proof.Machine
end

