-- ==== Sys2Proof/Machine/Hoard.lean ====
section
/-! DEFINITION. The Hoard unit (09_hoard.md, R412 to R414): tables and shards, gathers and gather rings, lookups, scatters, prefetch and
row updates. -/

namespace Sys2Proof.Machine

/-! ### Tables (R301 to R305, R330) -/

/-- A table descriptor's fields (Tables 09-1, 09-7). -/
structure TableInfo where
  fmt : Nat
  elems : Nat
  stride : Nat
  rows : Nat
  log : Nat
  nshard : Nat
  deriving DecidableEq, Repr

/-- The descriptor of table `k` in a register file; the row slot of a quantized table is Table 09-2's. -/
def tableInfo (conf : List (Nat × W32)) (k : Nat) : TableInfo :=
  let c := regN conf (Reg.hrdTblCfg k)
  let fmt := bitsN c 1 0
  let el := 16 * 2 ^ bitsN c 3 2
  ⟨fmt, el, if fmt = 1 then 2 * el else if fmt = 2 then el else 16 * (bitsN c 9 4 + 1),
    bitsN (regN conf (Reg.hrdTblRows k)) 26 0, bitsN c 14 10, if fmt = 3 then 1 else bitsN c 20 15 + 1⟩

/-- The table a Hoard instruction names. -/
def UEntry.table (u : UEntry) : Nat := bitsN u.args.imm.toNat 12 9

/-- The descriptor an instruction uses: the one in force when its epoch opened (R302, R336). -/
def State.tableOf (s : State) (u : UEntry) : TableInfo := tableInfo (s.tagConf u.tag).1 u.table

/-- Where row `r` of a table lies: its shard and the home of that shard; none where the row lies outside the table or its shard
has no home (R301, R307). -/
def rowHome (conf : List (Nat × W32)) (k : Nat) (ti : TableInfo) (r : Nat) : Option (Nat × Nat) :=
  let sh := r / 2 ^ ti.log
  let home := regN64 conf (Reg.hrdShdHome k sh) / 64 * 64
  if ti.rows ≤ r ∨ ti.nshard ≤ sh ∨ home = 0 then none
  else some (sh, home)

/-- The address of row `r` in a shard at `home` (R301). -/
def rowAddr (ti : TableInfo) (home r : Nat) : Nat := home + ti.stride * (r % 2 ^ ti.log)

/-- A shard's record besides its registers. -/
def State.shardAt (s : State) (k sh : Nat) : ShardSt := spGet (fun _ => (⟨none, false, [], 0⟩ : ShardSt)) s.shards (64 * k + sh)

/-- A shard's record changed. -/
def State.modShard (s : State) (k sh : Nat) (f : ShardSt → ShardSt) : State :=
  { s with shards := spSet (fun _ => (⟨none, false, [], 0⟩ : ShardSt)) s.shards (64 * k + sh) (f (s.shardAt k sh)) }

/-- One row request counted for its shard (R330, R331). -/
def State.shardReq (s : State) (k sh : Nat) : State :=
  let n := (s.shardAt k sh).windowCount + 1
  if n < 2 ^ s.fld Reg.hrdShdScale 3 0 then s.modShard k sh (fun x => { x with windowCount := n })
  else
    let c := s.fld (Reg.hrdShdLoad k sh) 31 16
    (s.modShard k sh (fun x => { x with windowCount := 0 })).putF (Reg.hrdShdLoad k sh) 31 16 (min 65535 (c + 1))

/-- VERSION of a table increments (R317, R329, R333); in a hitch the home tells the other members (R513), but one known to have left
the ownership class out (R504). -/
def State.bumpVersion (s : State) (k : Nat) : State :=
  let s := s.putF (Reg.hrdTblVer k) 15 0 ((s.fld (Reg.hrdTblVer k) 15 0 + 1) % 2 ^ 16)
  let own := s.ownPkg
  let msg := fun (m : Nat) => (⟨0x22, { dst := BitVec.ofNat 2 m, src := BitVec.ofNat 2 own, ackReq := false, size := 3
                                        tag := 0, status := 0, operand := BitVec.ofNat 64 k }, []⟩ : SciMsg)
  let others := (List.range 4).filter (fun m => m != own && s.bit Reg.sciHitchStat (4 + m)
    && !(s.hitch.members.any (fun x => x.num == m && !(bitN x.classes 2))))
  { s with hitch := { s.hitch with outbox := s.hitch.outbox ++ others.map msg } }

/-! ### Indices (R307) -/

/-- Index `i` of an index list: the row, none for a null index, and the output row. -/
def Tile.index (tl : Tile) (base : Nat) (pair : Bool) (i : Nat) : Option Nat × Nat :=
  if pair then
    let w := tl.tsNat (base + 8 * i) 8
    (if bitsN w 20 0 = noRow then none else some (bitsN w 20 0), bitsN w 52 32)
  else
    let w := tl.tsNat (base + 4 * i) 4
    (if w = 0xFFFFFFFF then none else some w, i)

/-- Bytes of an index list. -/
def idxBytes (pair : Bool) (n : Nat) : Nat := if pair then 8 * n else 4 * n

/-- Whether a Hoard instruction's indices are pair words. -/
def UEntry.pairs (u : UEntry) : Bool := bitN u.args.imm.toNat 8

/-- The array whose ring a GATH.R or a ring form of GATH.PF fills. -/
def UEntry.ringOf (u : UEntry) : Nat := bitsN u.args.imm.toNat 7 6

/-- Whether an instruction fills a ring. -/
def UEntry.toRing (u : UEntry) : Bool := u.op == .gathR || (u.op == .gathPf && bitN u.args.imm.toNat 5)

/-- Whether an operation is Hoard's. -/
def UOp.isHoard : UOp → Bool
  | .gath | .gathR | .gathQ8 | .gathQ4 | .gathPf | .hlook | .scat | .hpref | .hupdQ8 | .hupdQ4 => true
  | _ => false

/-- The decode check of class 0x1C. -/
def hoardDecode (op : UOp) (a : UArgs) : Bool :=
  let n := a.imm.toNat
  match op with
  | .gathR => bitsN n 5 0 == 0 && a.gb == 0 && a.rd == 0
  | .gathPf => bitsN n 4 0 == 0 && a.rd == 0
  | .hlook => n == 0 && a.gb == 0 && a.rd == 0
  | .hpref => bitsN n 7 0 == 0 && a.gc == 0 && a.rd == 0
  | .hupdQ8 | .hupdQ4 => bitsN n 8 0 == 0
  | _ => bitsN n 7 0 == 0 && a.gb == 0 && a.rd == 0

/-- Whether a table's format matches a mnemonic (R310). -/
def formatOk (op : UOp) (fmt : Nat) : Bool :=
  match op with
  | .gath => fmt == 0
  | .gathR => fmt == 0 || fmt == 3
  | .gathQ8 | .hupdQ8 => fmt == 1
  | .gathQ4 | .hupdQ4 => fmt == 2
  | .gathPf | .scat | .hpref => fmt != 3
  | _ => true

/-- Bytes one element of a gather takes in its destination (R413). -/
def rowOut (op : UOp) (ti : TableInfo) : Nat :=
  match op with
  | .gathQ8 | .gathQ4 => 2 * ti.elems
  | .hlook => 4
  | _ => ti.stride

/-- Bytes of the ready bitmap of a prefetch area (R318). -/
def pfBitmap (slots : Nat) : Nat := ((slots + 7) / 8 + 63) / 64 * 64

/-- The pieces a row of `n` bytes at `va` moves in: cut at 256-byte boundaries, with fuel (R305). -/
def pieces : Nat → Nat → Nat → Nat → List (Nat × Nat)
  | 0, _, _, _ => []
  | k + 1, va, off, n =>
    if n = 0 then []
    else
      let m := min n (256 - (va + off) % 256)
      (off, m) :: pieces k va (off + m) (n - m)

/-! ### The start of a Hoard instruction -/

/-- Lists the prefetch engine has not finished (R414). -/
def Tile.openLists (tl : Tile) : Nat := (tl.prefetch.filter (fun p => decide (p.landed.length < p.rows.length))).length

/-- Whether the values an instruction captured suit it (R311, R318, R323, R389, R413). -/
def State.hoardValues (s : State) (u : UEntry) : Bool :=
  let ti := s.tableOf u
  let ring := match areaWord u.gc with
    | some (_, sl, sz) => decide (16 ≤ sl ∧ sl ≤ 1024 ∧ 2 ^ sl.log2 = sl ∧ (ti.fmt = 3 ∨ ti.stride ≤ sz))
    | none => false
  let mat := (matWord u.gc false false).isSome
  let area := fun (n : Nat) => match areaWord u.gb with | some (_, sl, _) => decide (n ≤ sl) | none => false
  match u.op, idxWord u.ga with
  | .hupdQ8, _ | .hupdQ4, _ => (areaWord u.gc).isSome
  | .gathR, some _ => ring
  | .hpref, some (_, n) => area n
  | .gathPf, some (_, n) => area n && (if u.toRing then ring else mat)
  | _, some _ => mat
  | _, none => false

/-- What the start of a Hoard instruction comes to (R311, R318, R389, R413). -/
def State.hoardCheck (s : State) (t : TileId) (u : UEntry) : Acc3 Unit :=
  let ti := s.tableOf u
  let lst := idxWord u.ga
  let idx := fun (b n : Nat) => s.tsCheck t u.tag false b (idxBytes u.pairs n)
  let ring := fun (k : Acc3 Unit) => match areaWord u.gc with
    | some (_, sl, sz) =>
      if sl < 16 ∨ 1024 < sl ∨ ¬ (2 ^ sl.log2 = sl) ∨ (ti.fmt ≠ 3 ∧ sz < ti.stride) then .fault .illegal 0
      else match areaWord u.gc with
        | some (b, _, _) => (s.tsCheck t u.tag true b (sl * sz)).bind (fun _ => k)
        | none => k
    | none => .fault .illegal 0
  match u.op with
  | .hupdQ8 | .hupdQ4 =>
    (s.tsCheck t u.tag false (bitsN u.ga.toNat 21 0) 16).bind (fun _ =>
      match s.tiles[t].stream (bitsN u.ga.toNat 21 0) false, areaWord u.gc with
      | some d, some (b, cap, _) =>
        if d.w ≠ ti.elems ∨ ¬ d.fp then .fault .illegal 0
        else (s.streamCheck t u.tag false d d.len).bind (fun _ => s.tsCheck t u.tag true b (4 * min cap d.len))
      | _, _ => .fault .illegal 0)
  | op =>
    match lst with
    | none => .fault .illegal 0
    | some (b, n) =>
      match op with
      | .gathR => ring (idx b n)
      | .hlook => match matWord u.gc false false with
        | some m => (s.tsCheck t u.tag false b (8 * n)).bind (fun _ => s.tsRows t u.tag true m.base m.stride 4 n)
        | none => .fault .illegal 0
      | .scat => match matWord u.gc false false with
        | some m => (idx b n).bind (fun _ => s.tsRows t u.tag false m.base m.stride ti.stride n)
        | none => .fault .illegal 0
      | .hpref => match areaWord u.gb with
        | some (pb, sl, _) =>
          if sl < n then .fault .illegal 0
          else (idx b n).bind (fun _ => s.tsCheck t u.tag true pb (pfBitmap sl + n * ti.stride))
        | none => .fault .illegal 0
      | .gathPf => match areaWord u.gb with
        | some (pb, sl, _) =>
          if sl < n then .fault .illegal 0
          else (idx b n).bind (fun _ => (s.tsCheck t u.tag false pb (pfBitmap sl + n * ti.stride)).bind (fun _ =>
            if u.toRing then ring (.ok ())
            else match matWord u.gc false false with
              | some m => s.tsRows t u.tag true m.base m.stride ti.stride n
              | none => .fault .illegal 0))
        | none => .fault .illegal 0
      | _ => match matWord u.gc false false with
        | some m => (idx b n).bind (fun _ => s.tsRows t u.tag true m.base m.stride (rowOut op ti) n)
        | none => .fault .illegal 0

/-- The counts of a null or out-of-range index (R307). -/
def State.badIndex (s : State) (t : TileId) (tag : Option Nat) (null : Bool) : State :=
  if null then s.count (Cnt.hrdCntNull t) else (s.count (Cnt.hrdCntRange t)).unitErr (Reg.hrdStat t) tag

/-- Rows delivered (HRD_CNT_ROWS). -/
def State.rowDone (s : State) (t : TileId) : State := s.count64 (Reg.hrdCntRows t)

/-- A gather request, waiting for an outstanding slot. -/
def mkReq (u : UEntry) (i row off len dst : Nat) (ring : Option Nat) (form : Nat) : GatherReq :=
  { seq := u.seq, elem := i, table := u.table, row := row, off := off, len := len, dst := dst, ring := ring, form := form
    tag := u.tag, drop := false, look := none, remote := none, home := none, got := [], lost := none, hold := false }

/-- The request of one row from its table: of a bitmap table its offset first, with those of its neighbours (R304). -/
def tableReq (u : UEntry) (ti : TableInfo) (i row dst : Nat) (ring : Option Nat) : GatherReq :=
  if ti.fmt = 3 then mkReq u i row (4 * (row - 1)) (4 * (min (row + 1) (ti.rows - 1) + 1 - (row - 1))) dst ring 3
  else mkReq u i row 0 ti.stride dst ring (if u.op = .gathQ8 then 1 else if u.op = .gathQ4 then 2 else 0)

/-- One element of a gather starts: its ring row, its zeros, or its requests. -/
def State.gatherOne (s : State) (t : TileId) (u : UEntry) (base : Nat) (fromArea : Nat → Option Nat) (i : Nat) : State :=
  let conf := (s.tagConf u.tag).1
  let ti := s.tableOf u
  let (row, out) := s.tiles[t].index base u.pairs i
  let out := if u.pairs then out else i
  let (dst, size) := if u.toRing
    then (match areaWord u.gc with | some (b, sl, sz) => (b + (i % max 1 sl) * sz, sz) | none => (0, 0))
    else (match matWord u.gc false false with | some m => (m.base + i * m.stride, 0) | none => (0, 0))
  let ring : Option Nat := if u.toRing then some u.ringOf else none
  let s := if u.toRing then s.modTile t (fun tl => tl.modArr u.ringOf (fun r => { r with
      ring := r.ring ++ [{ seq := u.seq, idx := i, addr := dst, size := size, ready := false, out := out, bitmap := ti.fmt == 3, tag := u.tag }] }))
    else s
  let add := fun (s : State) (q : GatherReq) => s.modTile t (fun tl => { tl with gathers := tl.gathers ++ [q] })
  let zero := fun (s : State) =>
    if u.toRing then add s { mkReq u i 0 0 (if ti.fmt = 3 then 8 else ti.stride) dst ring 4 with home := some 0 }
    else (s.modTile t (fun tl => tl.tsPuts dst (List.replicate (rowOut u.op ti) 0))).rowDone t
  match fromArea i with
  | some a =>
    if u.toRing then add s { mkReq u i 0 a ti.stride dst ring 5 with home := some 0 }
    else (s.modTile t (fun tl => tl.tsPuts dst (tl.ts a ti.stride))).rowDone t
  | none =>
    match row with
    | none => zero (s.badIndex t u.tag true)
    | some r =>
      match rowHome conf u.table ti r with
      | none => zero (s.badIndex t u.tag false)
      | some _ => add s (tableReq u ti i r dst ring)

/-- The area slot GATH.PF may read for element `i` (R320), with whether the whole area is stale; an area no HPREF of the table
opened holds no row (log 38). -/
def State.pfSource (s : State) (t : TileId) (u : UEntry) (area slots stride : Nat) : Bool × (Nat → Option Nat) :=
  let tl := s.tiles[t]
  let stale := match tl.prefetch.find? (fun p => p.area == area && p.table == u.table) with
    | some p => p.version != s.fld (Reg.hrdTblVer u.table) 15 0
    | none => false
  let known := tl.prefetch.any (fun p => p.area == area && p.table == u.table)
  let bit := fun (i : Nat) => bitN (tl.tsByte (area + i / 8)).toNat (i % 8)
  (stale, fun i => if known && !stale && bit i then some (area + pfBitmap slots + i * stride) else none)

/-- The start of a Hoard instruction. -/
def State.hoardStart (s : State) (t : TileId) (u : UEntry) : State :=
  let ti := s.tableOf u
  match u.op, idxWord u.ga with
  | .hupdQ8, _ => s
  | .hupdQ4, _ => s
  | .scat, _ => s
  | .hlook, some (b, n) =>
    match matWord u.gc false false with
    | some m =>
      let tl := s.tiles[t]
      let q := (List.range n).map (fun i => { mkReq u i 0 0 4 (m.base + i * m.stride) none 0 with look := some (BitVec.ofNat 64 (tl.tsNat (b + 8 * i) 8)) })
      s.modTile t (fun tl => { tl with gathers := tl.gathers ++ q })
    | none => s
  | .hpref, some (b, n) =>
    match areaWord u.gb with
    | some (pb, sl, _) =>
      let rows := (List.range n).map (fun i => match (s.tiles[t].index b u.pairs i).1 with | some r => r | none => 0xFFFFFFFF)
      let p : Prefetch := { table := u.table, area := pb, rows := rows, landed := [], version := u.ver, tag := u.tag, slots := sl, out := [] }
      s.modTile t (fun tl => { tl with
        prefetch := tl.prefetch.filter (fun q => !(q.area == pb && q.table == u.table)) ++ [p]
        gathers := tl.gathers.map (fun q => if q.form = 7 ∧ q.row = pb ∧ q.table = u.table then { q with drop := true } else q) })
    | none => s
  | .gathPf, some (b, n) =>
    match areaWord u.gb with
    | some (pb, sl, _) =>
      let (stale, src) := s.pfSource t u pb sl ti.stride
      let late := if stale then 0 else ((List.range n).filter (fun i => (src i).isNone)).length
      let s := if stale ∧ 0 < n then s.count (Cnt.hrdCntPfstale t) else s
      let s := s.count64 (Reg.hrdCntPflate t) late
      (List.range n).foldl (fun (s : State) i => s.gatherOne t u b src i) s
    | none => s
  | _, some (b, n) => (List.range n).foldl (fun (s : State) i => s.gatherOne t u b (fun _ => none) i) s
  | _, none => s

/-! ### Landing rows -/

/-- A request gone from the list. -/
def State.dropReq (s : State) (t : TileId) (q : GatherReq) : State := s.modTile t (fun tl => { tl with gathers := tl.gathers.erase q })

/-- A quantized row as BF16 (R310): the bytes, and whether SCALE or OFFSET was bad. -/
def dequant (q4 : Bool) (elems : Nat) (row : List Byte) : List Byte × Bool :=
  let sc := leAt row 0 2; let of := leAt row 2 2
  let code := fun (j : Nat) => if q4 then (leAt row (4 + j / 2) 1) / (if j % 2 = 0 then 1 else 16) % 16 else leAt row (4 + j) 1
  if !(fv16 sc).isFin || !(fv16 of).isFin then (List.replicate (2 * elems) 0, true)
  else ((List.range elems).flatMap (fun j => toLe (f32ToBf (fadd (f16To32 of) (fmul (f16To32 sc) (intTo32 (code j))))) 2), false)

/-- Ready bits: the ring row of an element is ready once none of its requests is outstanding (R311); a bitmap group is checked
against its slot then (R312). -/
def State.ringLanded (s : State) (t : TileId) (q : GatherReq) : State :=
  match q.ring with
  | none => s
  | some a =>
    if s.tiles[t].gathers.any (fun x => x.of q.seq && x.elem == q.elem) then s
    else
      let tl := s.tiles[t]
      match ((tl.arrAt a).ring.find? (fun r => r.seq == q.seq && r.idx == q.elem)) with
      | none => s
      | some r =>
        let g := readGroup (fun o => (tl.tsByte (r.addr + o)).toNat) 4096 0
        let bad := r.bitmap && decide (r.size < 8 + 8 * (maskBits (tl.tsNat r.addr 8)).length ∨ r.size < g.len)
        let s := if bad then (s.modTile t (fun tl => tl.tsPuts r.addr (List.replicate 8 0))).groupCount t q.tag Group.zero true else s
        (s.modTile t (fun tl => tl.modArr a (fun x => { x with
          ring := x.ring.map (fun y => if y.seq = q.seq ∧ y.idx = q.elem then { y with ready := true } else y) }))).rowDone t

/-- A prefetch record changed. -/
def State.modPf (s : State) (t : TileId) (table area : Nat) (f : Prefetch → Prefetch) : State :=
  s.modTile t (fun tl => { tl with prefetch := tl.prefetch.map (fun x => if x.area = area ∧ x.table = table then f x else x) })

/-- Row `i` of a prefetch area has landed, once no piece of it is awaited: its ready bit is set (R318). -/
def State.pfReady (s : State) (t : TileId) (table area i : Nat) : State :=
  if s.tiles[t].gathers.any (fun x => x.form == 7 && x.table == table && x.row == area && x.elem == i && !x.drop) then s
  else
    (s.modTile t (fun tl => tl.tsPut (area + i / 8) (BitVec.ofNat 8 ((tl.tsByte (area + i / 8)).toNat ||| 2 ^ (i % 8))))).modPf t table area
      (fun x => { x with landed := i :: x.landed, out := x.out.filter (fun y => y.1 != i) })

/-- The bytes of a gather put where they go (R307, R310, R425): `bad` says that an uncorrectable word was met or the home did
not answer. -/
def State.landReq (s : State) (t : TileId) (q : GatherReq) (bs : List Byte) (bad : Bool) : State :=
  let s := s.dropReq t q
  let s := if bad then s.unitErr (Reg.hrdStat t) q.tag else s
  if q.form = 3 then
    -- the row's offsets have come: the group's own bytes are asked for
    let k := if q.row = 0 then 0 else 4
    let prev := if q.row = 0 then 0 else leAt bs 0 4
    let off := leAt bs k 4
    let conf := (s.tagConf q.tag).1
    let ti := tableInfo conf q.table
    let slot := match q.ring with
      | some a => match ((s.tiles[t].arrAt a).ring.find? (fun r => r.seq == q.seq && r.idx == q.elem)) with | some r => r.size | none => 0
      | none => 0
    let lim := if q.row + 1 < ti.rows then (if leAt bs (k + 4) 4 < off then 0 else leAt bs (k + 4) 4 - off) else slot
    let lim := min lim slot
    let base := (4 * ti.rows + 63) / 64 * 64 + off
    if bad ∨ off < prev ∨ lim < 8 then
      let s := s.modTile t (fun tl => tl.tsPuts q.dst (List.replicate 8 0))
      let s := if bad then s else s.groupCount t q.tag Group.zero true
      s.ringLanded t q
    else
      let s := match q.ring with
        | some a => s.modTile t (fun tl => tl.modArr a (fun (r : ArrSt) => { r with
            ring := r.ring.map (fun (y : RingRow) => if y.seq = q.seq ∧ y.idx = q.elem then { y with size := lim } else y) }))
        | none => s
      let qs := (pieces 8 (q.home.getD 0 + base) 0 lim).map (fun p =>
        { q with form := 6, off := base + p.1, len := p.2, dst := q.dst + p.1, remote := none, got := [] })
      s.modTile t (fun tl => { tl with gathers := tl.gathers ++ qs })
  else if q.form = 1 ∨ q.form = 2 then
    let ti := tableInfo (s.tagConf q.tag).1 q.table
    let (out, qbad) := if bad then (List.replicate (2 * ti.elems) 0, false) else dequant (q.form == 2) ti.elems bs
    let s := if qbad then (s.count (Cnt.hrdCntQbad t)).unitErr (Reg.hrdStat t) q.tag else s
    (s.modTile t (fun tl => tl.tsPuts q.dst out)).rowDone t
  else if q.form = 7 then (s.modTile t (fun tl => tl.tsPuts q.dst bs)).pfReady t q.table q.row q.elem
  else if q.form = 8 then s.modEntry t q.seq (fun e => { e with rows := e.rows ++ [(q.elem, bs)] })
  else
    let s := s.modTile t (fun tl => tl.tsPuts q.dst bs)
    if q.ring.isSome then s.ringLanded t q
    else if s.tiles[t].gathers.any (fun x => x.of q.seq && x.elem == q.elem) then s
    else s.rowDone t

/-- The device address of a request's first byte. -/
def State.reqAddr (s : State) (q : GatherReq) : Nat :=
  let home := q.home.getD 0
  if q.form = 7 then q.off
  else if q.form = 3 ∨ q.form = 6 then home + q.off
  else rowAddr (tableInfo (s.tagConf q.tag).1 q.table) home q.row + q.off

/-- The bytes one access moves of `n` at `a`: within a page here; of another member the access of a power of two of bytes, or the
8-byte unit, that holds the first of them. -/
def accessLen (member : Bool) (a n : Nat) : Nat :=
  if !member then min n (4096 - a % 4096)
  else if a % 8 ≠ 0 ∨ n < 8 then min n (8 - a % 8)
  else 2 ^ (min n 256).log2

/-- A response classified by its tag (R202): whether it may land. -/
def State.respOk (s : State) (t : TileId) (tag : Option Nat) : TagClass :=
  match tag with
  | none => .older
  | some g => s.classify t g

/-- A Hoard instruction faults: its requests still out are dropped on arrival and its ring rows go. -/
def State.hoardFault (s : State) (t : TileId) (seq : Nat) (c : Cause) (a : Nat) : State :=
  match s.entry t seq with
  | some u =>
    let s := s.modTile t (fun tl => { tl with
      gathers := tl.gathers.filter (fun q => !(q.of seq) || q.remote.isSome)
      arr := tl.arr.map (fun r => { r with ring := r.ring.filter (fun y => y.seq != seq) }) })
    let s := s.modTile t (fun tl => { tl with gathers := tl.gathers.map (fun q => if q.of seq then { q with drop := true } else q) })
    s.raiseU t ⟨c, a⟩ u
  | none => s

/-- A row of a prefetch list left out: its ready bit stays clear, and GATH.PF reads the row from the table (log 38); a translation
fault is counted, and an invalid tag is an exception of the unit (R202, R459). -/
def State.pfFault (s : State) (t : TileId) (table area i : Nat) (c : Cause) : State :=
  let s := s.modTile t (fun tl => { tl with
    gathers := tl.gathers.filterMap (fun q =>
      if q.form = 7 ∧ q.table = table ∧ q.row = area ∧ q.elem = i then (if q.remote.isSome then some { q with drop := true } else none) else some q) })
  let s := s.modPf t table area (fun x => { x with landed := i :: x.landed, out := x.out.filter (fun y => y.1 != i) })
  match c with
  | .translation => s.count (Cnt.tileCntTfault t)
  | .epoch => (s.raise t ⟨.epoch, 0⟩ none (some 6)).containWindow t
  | _ => s

/-- The same for the row a piece belongs to. -/
def State.pfLost (s : State) (t : TileId) (q : GatherReq) (c : Cause) : State := (s.dropReq t q).pfFault t q.table q.row q.elem c

/-- A request changed in the list. -/
def State.modReq (s : State) (t : TileId) (q q' : GatherReq) : State :=
  s.modTile t (fun tl => { tl with gathers := tl.gathers.map (fun x => if x = q then q' else x) })

/-- Bytes come for a request: it lands once it has all of them, or at the first that are bad (R425). -/
def State.gotReq (s : State) (t : TileId) (q : GatherReq) (bs : List Byte) (bad : Bool) : State :=
  let q' := { q with got := q.got ++ bs, remote := none }
  let s := s.modReq t q q'
  if bad then s.landReq t q' (List.replicate q.len 0) true
  else if q'.got.length < q.len then s
  else s.landReq t q' q'.got false

/-- A write of an HUPD's row performed (R329). -/
def State.wroteReq (s : State) (t : TileId) (q : GatherReq) : State :=
  (s.dropReq t q).modEntry t q.seq (fun e => { e with wrote := true })

/-- One access of a request at a device address: sent to another package, or made here. -/
def State.access (s : State) (t : TileId) (q : GatherReq) (pa : Nat) : State :=
  let rest := q.len - q.got.length
  match s.whereIs pa with
  | .here l =>
    if q.form = 9 then
      let s := if s.area l = .pcie then s.pcieWrite l (q.got.zipIdx.map (fun x => (x.2, x.1))) else s.memWrite l q.got
      s.wroteReq t q
    else
      let (bs, bad, s) := s.tileRead l (accessLen false l rest)
      s.gotReq t q bs bad
  | .member n l =>
    if q.form = 9 then
      let (tag, s) := s.sciWrite n l (sciSize q.len) q.got
      s.modReq t q { q with remote := some tag }
    else
      let m := accessLen true l rest
      let (tag, s) := s.sciRead n (if m < 8 then l / 8 * 8 else l) (if m < 8 then 3 else m.log2)
      s.modReq t q { q with remote := some tag }
  | .nowhere => s

/-- Whether the ring slot a request fills still holds a row the feeder has not consumed (R311). -/
def Tile.slotBusy (tl : Tile) (q : GatherReq) : Bool :=
  match q.ring with
  | none => false
  | some a =>
    let ring := (tl.arrAt a).ring
    let mine := fun (r : RingRow) => r.seq == q.seq && r.idx == q.elem
    match ring.find? mine with
    | some y => (ring.takeWhile (fun r => !(mine r))).any (fun r => r.addr == y.addr)
    | none => false

/-- One outstanding request served (R306, R311): dropped, sent to another package, or made here; an HUPD's row must be one that may
be written. -/
def State.serveReq (s : State) (t : TileId) (q : GatherReq) : State :=
  if q.drop then s.dropReq t q
  else match s.respOk t q.tag with
  | .stale => (if q.form = 7 then s.pfLost t q .address else s.dropReq t q).count (Cnt.tileCntStale t)
  | .invalid => if q.form = 7 then s.pfLost t q .epoch else (s.dropReq t q).hoardFault t q.seq .epoch 0
  | _ =>
    if s.tiles[t].slotBusy q then s
    else if q.form = 4 then s.landReq t q (List.replicate q.len 0) false
    else if q.form = 5 then s.landReq t q (s.tiles[t].ts q.off q.len) false
    else
      let va := s.reqAddr q + q.got.length
      let va := if q.form = 9 then s.reqAddr q else va
      match s.devAddr t va (if q.form = 9 then q.len else accessLen false va (q.len - q.got.length)) (q.form == 8 || q.form == 9) with
      | .miss v st => if q.form = 7 then s.addWalk t v st none true q.tag else s.addWalk t v st (some q.seq)
      | .fault c a => if q.form = 7 then s.pfLost t q c else s.hoardFault t q.seq c a
      | .ok pa => s.access t q pa

/-- The answer of another package to a request's read: its bytes, and the next access where more are to come. -/
def State.answerReq (s : State) (t : TileId) (q : GatherReq) (bad : Bool) (data : List Byte) : State :=
  if q.drop then s.dropReq t q
  else match s.respOk t q.tag with
  | .stale => (s.dropReq t q).count (Cnt.tileCntStale t)
  | .invalid => if q.form = 7 then s.pfLost t q .epoch else (s.dropReq t q).hoardFault t q.seq .epoch 0
  | _ =>
    let va := s.reqAddr q + q.got.length
    let n := accessLen true va (q.len - q.got.length)
    let bs := ((data ++ List.replicate 256 0).drop (if n < 8 then va % 8 else 0)).take n
    let q' := { q with got := q.got ++ bs, remote := none }
    if bad ∨ q.len ≤ q'.got.length then s.gotReq t q bs bad
    else (s.modReq t q q').serveReq t q'

/-- A lookup served by Drey (R182, R314). -/
def State.serveLook (s : State) (t : TileId) (q : GatherReq) : State :=
  if q.drop then s.dropReq t q
  else match s.respOk t q.tag with
  | .stale => (s.dropReq t q).count (Cnt.tileCntStale t)
  | .invalid => (s.dropReq t q).hoardFault t q.seq .epoch 0
  | _ =>
    match q.look with
    | none => s
    | some k =>
      let (row, s) := s.dreyLook k.toNat
      s.landReq t q (toLe row 4) false

/-! ### Prefetch (R318, R319, R414) -/

/-- A row of a prefetch list that has landed in its slot. -/
def State.pfLanded (s : State) (t : TileId) (p : Prefetch) (i : Nat) (bs : List Byte) : State :=
  (s.modTile t (fun tl => tl.tsPuts (p.area + pfBitmap p.slots + i * bs.length) bs)).pfReady t p.table p.area i

/-- Whether a request is a piece of row `i` of a prefetch list. -/
def GatherReq.ofRow (q : GatherReq) (p : Prefetch) (i : Nat) : Bool :=
  q.form == 7 && q.table == p.table && q.row == p.area && q.elem == i && !q.drop

/-- The pieces of row `i` of a list, issued to `home` (R305). -/
def pfReqs (ti : TableInfo) (p : Prefetch) (i home : Nat) : List GatherReq :=
  let va := rowAddr ti home ((p.rows[i]?).getD 0)
  (pieces 8 va 0 ti.stride).map (fun pc =>
    { seq := 0, elem := i, table := p.table, row := p.area, off := va + pc.1, len := pc.2
      dst := p.area + pfBitmap p.slots + i * ti.stride + pc.1, ring := none, form := 7, tag := p.tag, drop := false, look := none
      remote := none, home := some home, got := [], lost := none, hold := false })

/-- Row `i` of a list served, piece by piece; a fault leaves its bit clear (log 38). -/
def State.pfServe (s : State) (t : TileId) (p : Prefetch) (i : Nat) : State :=
  (s.tiles[t].gathers.filter (fun q => q.ofRow p i && q.remote.isNone && q.lost.isNone)).foldl (fun (s : State) q =>
    if s.tiles[t].gathers.contains q then s.serveReq t q else s) s

/-! ### Outstanding slots (R306, R319) -/

/-- A waiting request issued (R305, R306, R330): addressed to the home its shard has now; a row that has none by now reads as
zeros (R307). -/
def State.issueReq (s : State) (t : TileId) (q : GatherReq) : State :=
  let ti := tableInfo (s.tagConf q.tag).1 q.table
  let put := fun (s : State) (qs : List GatherReq) =>
    s.modTile t (fun tl => { tl with gathers := tl.gathers.flatMap (fun x => if x = q then qs else [x]) })
  if q.look.isSome then put s [{ q with home := some 0 }]
  else match rowHome (s.tagConf q.tag).1 q.table ti q.row with
    | none =>
      let n := if q.form = 3 then 8 else if q.form = 0 then q.len else 2 * ti.elems
      let s := s.badIndex t q.tag false
      if q.form = 8 ∨ q.form = 9 then put s [] else put s [{ q with form := 4, len := n, home := some 0 }]
    | some (sh, home) =>
      let s := if q.form = 9 then s else s.shardReq q.table sh
      let q' := { q with home := some home }
      put s (if q.form = 0 then (pieces 8 (rowAddr ti home q.row) 0 q.len).map (fun p => { q' with off := p.1, len := p.2, dst := q.dst + p.1 }) else [q'])

/-- Waiting requests take slots in order, `k` at most; one dropped before it was issued goes. -/
def State.fillDemand (s : State) (t : TileId) : Nat → State
  | 0 => s
  | k + 1 =>
    match s.tiles[t].gathers.find? (fun q => q.home.isNone) with
    | none => s
    | some q =>
      if q.drop then (s.dropReq t q).fillDemand t k
      else if 128 ≤ s.tiles[t].slotsUsed then s
      else (s.issueReq t q).fillDemand t k

/-- Prefetched rows take slots where no gather waits for one, at most HRD_PF_MAX at once (R319); a null or out-of-range row lands as
zeros (R307). -/
def State.fillPrefetch (s : State) (t : TileId) : Nat → State
  | 0 => s
  | k + 1 =>
    if s.tiles[t].gathers.any (fun q => q.home.isNone) then s
    else match s.tiles[t].pfWaiting.head? with
      | none => s
      | some (p, i) =>
        let ti := tableInfo (s.tagConf p.tag).1 p.table
        let r := (p.rows[i]?).getD 0xFFFFFFFF
        let zero := List.replicate ti.stride 0
        if r = 0xFFFFFFFF then ((s.badIndex t p.tag true).pfLanded t p i zero).fillPrefetch t k
        else match rowHome (s.tagConf p.tag).1 p.table ti r with
          | none => ((s.badIndex t p.tag false).pfLanded t p i zero).fillPrefetch t k
          | some (sh, home) =>
            if 128 ≤ s.tiles[t].slotsUsed ∨ s.rd (Reg.hrdPfMax t) ≤ s.tiles[t].pfOut.length then s
            else
              let s := (s.shardReq p.table sh).modPf t p.table p.area (fun x => { x with out := x.out ++ [(i, home)] })
              (s.modTile t (fun tl => { tl with gathers := tl.gathers ++ pfReqs ti p i home })).fillPrefetch t k

/-- The outstanding slots of a tile filled: demand first, then prefetch (R306, R319); none while its bond traffic is held (R477). -/
def State.fillSlots (s : State) (t : TileId) : State :=
  if s.bondHeld t then s else
  let s := s.fillDemand t s.tiles[t].gathers.length
  s.fillPrefetch t s.tiles[t].pfWaiting.length

/-! ### Scatters (R315 to R317) -/

/-- One row of a SCAT staged in an entry of the scatter stage (R315, R316). -/
def State.scatOne (s : State) (t : TileId) (u : UEntry) (base : Nat) (m : MatWord) (i : Nat) : Prog :=
  let ti := s.tableOf u
  match (s.tiles[t].index base u.pairs i).1 with
  | none => .fin 0 (s.badIndex t u.tag true)
  | some r =>
    match rowHome (s.tagConf u.tag).1 u.table ti r with
    | none => .fin 0 (s.badIndex t u.tag false)
    | some (sh, home) =>
      let va := rowAddr ti home r
      let ps := pieces 8 va 0 ti.stride
      let go := ps.foldl (fun (x : Acc3 (List Nat)) pc =>
        x.bind (fun l => (s.storeAddr t u.tag (va + pc.1) pc.2).bind (fun pa => .ok (l ++ [pa])))) (.ok [])
      match go with
      | .miss v st => .stay (s.addWalk t v st (some u.seq))
      | .fault c a => .fault c a s
      | .ok pas =>
        if 64 ≤ s.tiles[t].scat.length then .stay s
        else
          let row := s.tiles[t].ts (m.base + i * m.stride) ti.stride
          let e : ScatEntry := { table := u.table, row := r, home := home, parts := (pas.zip ps).map (fun x => (x.1, (row.drop x.2.1).take x.2.2))
                                 tag := u.tag, accepted := false, seq := u.seq, gen := s.tiles[t].scatGen, tags := [] }
          let s := s.shardReq u.table sh
          .fin 0 ((s.modTile t (fun tl => { tl with scat := tl.scat ++ [e] })).modEntry t u.seq (fun e => { e with wrote := true }))

/-! ### Row updates (R323 to R332) -/

/-- One step of the LFSR (R324). -/
def lfsrStep (x : Nat) : Nat := if x % 2 = 1 then (x / 2) ^^^ 0x80200003 else x / 2

/-- `n` steps of the LFSR. -/
def lfsrRun : Nat → Nat → Nat
  | 0, x => x
  | n + 1, x => lfsrRun n (lfsrStep x)

/-- An updated row (R323, R326): none where a gradient, the new SCALE or the new OFFSET is not finite; the row's bytes, the
LFSR after, and the codes clamped. -/
def updateRow (q4 : Bool) (elems slot eta : Nat) (row : List Byte) (g : List Nat) (lfsr : Nat) : Option (List Byte × Nat × Nat) :=
  let b := if q4 then 15 else 255
  let sc := f16To32 (leAt row 0 2); let of := f16To32 (leAt row 2 2)
  let code := fun (j : Nat) => if q4 then (leAt row (4 + j / 2) 1) / (if j % 2 = 0 then 1 else 16) % 16 else leAt row (4 + j) 1
  let xs := (List.range elems).map (fun j =>
    let x := bfTo32 (f32ToBf (fadd of (fmul sc (intTo32 (code j)))))
    bfTo32 (f32ToBf (fsub x (fmul eta (g.getD j 0)))))
  if g.any (fun v => !(fv32 v).isFin) || xs.any (fun v => !(fv32 v).isFin) then none
  else
    let lo := xs.foldl (fun m v => if (fv32 v).lt (fv32 m) then v else m) (xs.headD 0)
    let hi := xs.foldl (fun m v => if (fv32 m).lt (fv32 v) then v else m) (xs.headD 0)
    let nsc := to16 true (fv32 (fdiv (fsub hi lo) (intTo32 b)))
    let nof := to16 false (fv32 lo)
    if !(fv16 nsc).isFin || !(fv16 nof).isFin then none
    else
      let r := xs.foldl (fun (x : List Nat × Nat × Nat) v =>
        let l := lfsrRun 16 x.2.1
        let u := fdiv (intTo32 (l % 2 ^ 16 : Nat)) (intTo32 65536)
        if nsc % 2 ^ 15 = 0 then (0 :: x.1, l, x.2.2)
        else
          let y := (fv32 (fadd (fdiv (fsub v (f16To32 nof)) (f16To32 nsc)) u)).rat.floor
          let q := clampI 0 b y
          (q.toNat :: x.1, l, if q = y then x.2.2 else x.2.2 + 1)) ([], lfsr, 0)
      let cs := r.1.reverse
      let packed := if q4 then (List.range (elems / 2)).map (fun k => BitVec.ofNat 8 (cs.getD (2 * k) 0 + 16 * cs.getD (2 * k + 1) 0))
        else cs.map (fun c => BitVec.ofNat 8 c)
      let bytes := toLe nsc 2 ++ toLe nof 2 ++ packed
      some (bytes ++ List.replicate (slot - bytes.length) 0, r.2.1, r.2.2)

/-- A key deferred while its shard migrates (R332). -/
def State.deferKey (s : State) (t : TileId) (u : UEntry) (key : Nat) : State :=
  let ret := match s.entry t u.seq with | some e => e.ret | none => 0
  let s := s.count (Cnt.hrdCntDefer t)
  match areaWord u.gc with
  | some (b, cap, _) =>
    if ret < cap then
      (s.modTile t (fun tl => tl.tsPuts (b + 4 * ret) (toLe key 4))).modEntry t u.seq (fun e => { e with ret := e.ret + 1 })
    else s.count (Cnt.hrdCntDeflost t)
  | none => s

/-- The rows an HUPD has read and not yet updated. -/
def Tile.rowsRead (tl : Tile) (seq : Nat) : List (Nat × List Byte) :=
  match tl.window.find? (fun u => u.seq == seq) with | some e => e.rows | none => []

/-- Rows of an HUPD in flight (R329). -/
def Tile.updFlight (tl : Tile) (seq : Nat) : Nat := (tl.gathers.filter (fun q => q.of seq)).length + (tl.rowsRead seq).length

/-- The row an HUPD updates next: the first in key order, once it has been read. -/
def Tile.nextUpd (tl : Tile) (seq : Nat) : Option (Nat × List Byte) :=
  let reading := (tl.gathers.filter (fun q => q.of seq && q.form == 8)).map (·.elem)
  let rows := tl.rowsRead seq
  rows.find? (fun r => reading.all (fun i => decide (r.1 < i)) && rows.all (fun x => decide (r.1 ≤ x.1)))

/-- Key `i` of an HUPD taken (R323, R325, R332): its row's read asked for, up to 32 rows in flight. -/
def State.hupdTake (s : State) (t : TileId) (u : UEntry) (es : List QElem) (i : Nat) : Prog :=
  let ti := s.tableOf u
  let key := (es.getD i (0, [])).1
  let prev := (es.take i).foldl (fun (p : Option Nat) e => match p with
    | some x => if e.1 ≤ x then p else some e.1
    | none => some e.1) none
  let desc := match prev with | some p => decide (key ≤ p) | none => false
  if 32 ≤ s.tiles[t].updFlight u.seq then .stay s
  else if desc then .fin 0 (s.count (Cnt.hrdCntUpdord t))
  else match rowHome (s.tagConf u.tag).1 u.table ti key with
    | none => .fin 0 (s.badIndex t u.tag (key == 0xFFFFFFFF))
    | some (sh, _) =>
      if s.bit (Reg.hrdShdState u.table sh) 0 then .fin 0 (s.deferKey t u key)
      else .fin 0 (s.modTile t (fun tl => { tl with gathers := tl.gathers ++ [mkReq u i key 0 ti.stride 0 none 8] }))

/-- The next row of an HUPD, in key order, updated once it has been read: its write is asked for (R323 to R326); a shard that has
come to migrate meanwhile defers it (R332). -/
def State.hupdApply (s : State) (t : TileId) (u : UEntry) (es : List QElem) : Nat → State
  | 0 => s
  | k + 1 =>
    let ti := s.tableOf u
    match s.tiles[t].nextUpd u.seq with
    | none => s
    | some (i, row) =>
      let key := (es.getD i (0, [])).1
      let s := s.modEntry t u.seq (fun e => { e with rows := e.rows.filter (fun x => x.1 != i) })
      let migr := match rowHome (s.tagConf u.tag).1 u.table ti key with
        | some (sh, _) => s.bit (Reg.hrdShdState u.table sh) 0
        | none => false
      if migr then (s.deferKey t u key).hupdApply t u es k
      else match updateRow (u.op == .hupdQ4) ti.elems ti.stride (u.gb.toNat % 2 ^ 32) row (es.getD i (0, [])).2 (s.rd (Reg.hrdLfsr t)) with
        | none => (s.count (Cnt.hrdCntUpdbad t)).hupdApply t u es k
        | some (bs, lf, cl) =>
          let s := (s.put (Reg.hrdLfsr t) lf).count64 (Reg.hrdCntQclamp t) cl
          let q := { mkReq u i key 0 ti.stride 0 none 9 with got := bs }
          (s.modTile t (fun tl => { tl with gathers := tl.gathers ++ [q] })).hupdApply t u es k

/-! ### Progress -/

/-- The effect of a Hoard instruction up to its retirement. -/
def State.hoardStep (s : State) (t : TileId) (u : UEntry) : Prog :=
  let bump := fun (s : State) (ret : Nat) => match s.entry t u.seq with
    | some e => Prog.fin ret (if e.wrote then s.bumpVersion u.table else s)
    | none => .fin ret s
  match u.op with
  | .hpref => .fin 0 s
  | .scat =>
    match idxWord u.ga, matWord u.gc false false with
    | some (b, n), some m =>
      match State.steps (fun s i => s.scatOne t u b m i) t u.seq (n - u.done) u.done s with
      | .fin _ s => if s.tiles[t].scat.any (fun e => e.seq == u.seq && !e.accepted) then .stay s else bump s 0
      | x => x
    | _, _ => .fin 0 s
  | .hupdQ8 | .hupdQ4 =>
    match s.tiles[t].stream (bitsN u.ga.toNat 21 0) false with
    | some d =>
      let es := s.tiles[t].elems d
      match State.steps (fun s i => s.hupdTake t u es i) t u.seq (es.length - u.done) u.done (s.hupdApply t u es 32) with
      | .fin _ s =>
        let s := s.hupdApply t u es 32
        if s.tiles[t].updFlight u.seq = 0 then bump s (match s.entry t u.seq with | some e => e.ret | none => 0) else .stay s
      | x => x
    | none => .fin 0 s
  | _ => if s.tiles[t].gathers.any (fun q => q.of u.seq && !q.drop) then .stay s else .fin 0 s

end Sys2Proof.Machine
end

