-- ==== Sys2Proof/Machine/Units.lean ====
section
/-! DEFINITION. The unit instructions of Berbo (12_berbo_reference.md R401 to R416): each issues into its queues; and the events by
which a tile's units work on them: start, retirement, swaps, responses, page walks, accepted entries, handler entry. -/

namespace Sys2Proof.Machine

open Host

/-! ### Issue -/

/-- The G registers GA, GB and GC name. -/
def uGs (a : UArgs) : List Nat := [a.ga.toNat, a.gb.toNat, a.gc.toNat]

/-- The queues of the arrays that bits [12:9] of IMM name. -/
def arrQueues (a : UArgs) : List Nat := maskQueues (bitsN a.imm.toNat 12 9)

/-- Issue of an array pass. -/
def State.passIssue (s : State) (t : TileId) (op : UOp) (a : UArgs) : Outcome State Fault Refusal :=
  s.uIssue t op a (passDecode op a) (arrQueues a) (uGs a)

/-- Issue of a weight load. -/
def State.wldIssue (s : State) (t : TileId) (op : UOp) (a : UArgs) : Outcome State Fault Refusal :=
  s.uIssue t op a (wldDecode op a) (arrQueues a) (uGs a)

/-- Issue of a vector instruction. -/
def State.vecIssue (s : State) (t : TileId) (op : UOp) (a : UArgs) : Outcome State Fault Refusal :=
  s.uIssue t op a (vecDecode op a) [4] (vecGs op a)

/-- Issue of a Quill operation. -/
def State.quillIssue (s : State) (t : TileId) (op : UOp) (a : UArgs) : Outcome State Fault Refusal :=
  s.uIssue t op a (quillDecode op a) [5] (uGs a)

/-- Issue of a Hoard instruction: its table's format must suit it (R310), and HUPD carries no tag (R327). -/
def State.hoardIssue (s : State) (t : TileId) (op : UOp) (a : UArgs) : Outcome State Fault Refusal :=
  let fmt := (tableInfo (s.tagConf s.tiles[t].ctx).1 (bitsN a.imm.toNat 12 9)).fmt
  s.uIssue t op a (hoardDecode op a && formatOk op fmt) [6] (uGs a) (!((op == .hupdQ8 || op == .hupdQ4) && s.tiles[t].ctx.isSome))

/-- Issue of a tree instruction. -/
def State.treeIssue (s : State) (t : TileId) (op : UOp) (a : UArgs) : Outcome State Fault Refusal :=
  s.uIssue t op a (treeDecode op a) [7] (uGs a)

/-- MMA.P: a pass of one array (R402). -/
def execMmaP (t : TileId) (a : UArgs) (s : State) : Outcome State Fault Refusal := s.passIssue t .mmaP a
/-- MMA.D: a pass of a deep pair. -/
def execMmaD (t : TileId) (a : UArgs) (s : State) : Outcome State Fault Refusal := s.passIssue t .mmaD a
/-- MMA.S: a pass of all four arrays in the wide-square form. -/
def execMmaS (t : TileId) (a : UArgs) (s : State) : Outcome State Fault Refusal := s.passIssue t .mmaS a
/-- MMA.W: a pass of the wide form. -/
def execMmaW (t : TileId) (a : UArgs) (s : State) : Outcome State Fault Refusal := s.passIssue t .mmaW a
/-- MMA.P.Z: MMA.P with the skip flag (R287). -/
def execMmaPZ (t : TileId) (a : UArgs) (s : State) : Outcome State Fault Refusal := s.passIssue t .mmaPZ a
/-- MMA.D.Z: MMA.D with the skip flag. -/
def execMmaDZ (t : TileId) (a : UArgs) (s : State) : Outcome State Fault Refusal := s.passIssue t .mmaDZ a
/-- MMA.S.Z: MMA.S with the skip flag. -/
def execMmaSZ (t : TileId) (a : UArgs) (s : State) : Outcome State Fault Refusal := s.passIssue t .mmaSZ a
/-- WLD: dense weights to the shadow banks (R248, R404). -/
def execWld (t : TileId) (a : UArgs) (s : State) : Outcome State Fault Refusal := s.wldIssue t .wld a
/-- WLD.SP: a sparse block (R290, R404). -/
def execWldSp (t : TileId) (a : UArgs) (s : State) : Outcome State Fault Refusal := s.wldIssue t .wldSp a
/-- WLD.SPT: a sparse block under the transposable mask (R294, R404). -/
def execWldSpt (t : TileId) (a : UArgs) (s : State) : Outcome State Fault Refusal := s.wldIssue t .wldSpt a
/-- SWAP: it enters the queue of every array it names (R251, R405). -/
def execSwap (t : TileId) (a : UArgs) (s : State) : Outcome State Fault Refusal :=
  s.uIssue t .swap a (swapDecode a) (arrQueues a) (uGs a)

/-- VADD (R406). -/
def execVadd (t : TileId) (a : UArgs) (s : State) : Outcome State Fault Refusal := s.vecIssue t .vadd a
/-- VSUB (R406). -/
def execVsub (t : TileId) (a : UArgs) (s : State) : Outcome State Fault Refusal := s.vecIssue t .vsub a
/-- VMUL (R406). -/
def execVmul (t : TileId) (a : UArgs) (s : State) : Outcome State Fault Refusal := s.vecIssue t .vmul a
/-- VMAX (R406). -/
def execVmax (t : TileId) (a : UArgs) (s : State) : Outcome State Fault Refusal := s.vecIssue t .vmax a
/-- VMIN (R406). -/
def execVmin (t : TileId) (a : UArgs) (s : State) : Outcome State Fault Refusal := s.vecIssue t .vmin a
/-- VAND (R406). -/
def execVand (t : TileId) (a : UArgs) (s : State) : Outcome State Fault Refusal := s.vecIssue t .vand a
/-- VOR (R406). -/
def execVor (t : TileId) (a : UArgs) (s : State) : Outcome State Fault Refusal := s.vecIssue t .vor a
/-- VXOR (R406). -/
def execVxor (t : TileId) (a : UArgs) (s : State) : Outcome State Fault Refusal := s.vecIssue t .vxor a
/-- VSHL (R406). -/
def execVshl (t : TileId) (a : UArgs) (s : State) : Outcome State Fault Refusal := s.vecIssue t .vshl a
/-- VSHR (R406). -/
def execVshr (t : TileId) (a : UArgs) (s : State) : Outcome State Fault Refusal := s.vecIssue t .vshr a
/-- VCVT (R406). -/
def execVcvt (t : TileId) (a : UArgs) (s : State) : Outcome State Fault Refusal := s.vecIssue t .vcvt a
/-- VLD (R407). -/
def execVld (t : TileId) (a : UArgs) (s : State) : Outcome State Fault Refusal := s.vecIssue t .vld a
/-- VST (R407). -/
def execVst (t : TileId) (a : UArgs) (s : State) : Outcome State Fault Refusal := s.vecIssue t .vst a
/-- VBCAST (R407). -/
def execVbcast (t : TileId) (a : UArgs) (s : State) : Outcome State Fault Refusal := s.vecIssue t .vbcast a
/-- VLANE (R407). -/
def execVlane (t : TileId) (a : UArgs) (s : State) : Outcome State Fault Refusal := s.vecIssue t .vlane a
/-- VRSUM (R407). -/
def execVrsum (t : TileId) (a : UArgs) (s : State) : Outcome State Fault Refusal := s.vecIssue t .vrsum a
/-- LBL.ST: the label store (R221, R408). -/
def execLblSt (t : TileId) (a : UArgs) (s : State) : Outcome State Fault Refusal := s.vecIssue t .lblSt a

/-- QEXP: bitmap rows expanded to dense (R409). -/
def execQexp (t : TileId) (a : UArgs) (s : State) : Outcome State Fault Refusal := s.quillIssue t .qexp a
/-- QCMP: dense rows compressed to bitmap form (R409). -/
def execQcmp (t : TileId) (a : UArgs) (s : State) : Outcome State Fault Refusal := s.quillIssue t .qcmp a
/-- QMRG.U: union merge of streams (R409, R410). -/
def execQmrgU (t : TileId) (a : UArgs) (s : State) : Outcome State Fault Refusal := s.quillIssue t .qmrgU a
/-- QMRG.I: intersection merge of two streams (R409, R410). -/
def execQmrgI (t : TileId) (a : UArgs) (s : State) : Outcome State Fault Refusal := s.quillIssue t .qmrgI a
/-- QSORT (R285, R409). -/
def execQsort (t : TileId) (a : UArgs) (s : State) : Outcome State Fault Refusal := s.quillIssue t .qsort a
/-- QRED: merge of the arrays' rows in the tree (R281, R409, R411). -/
def execQred (t : TileId) (a : UArgs) (s : State) : Outcome State Fault Refusal := s.quillIssue t .qred a

/-- GATH (R311, R412). -/
def execGath (t : TileId) (a : UArgs) (s : State) : Outcome State Fault Refusal := s.hoardIssue t .gath a
/-- GATH.R: rows to a gather ring (R311, R413). -/
def execGathR (t : TileId) (a : UArgs) (s : State) : Outcome State Fault Refusal := s.hoardIssue t .gathR a
/-- GATH.Q8 (R310, R413). -/
def execGathQ8 (t : TileId) (a : UArgs) (s : State) : Outcome State Fault Refusal := s.hoardIssue t .gathQ8 a
/-- GATH.Q4 (R310, R413). -/
def execGathQ4 (t : TileId) (a : UArgs) (s : State) : Outcome State Fault Refusal := s.hoardIssue t .gathQ4 a
/-- GATH.PF: rows from a prefetch area (R319, R413). -/
def execGathPf (t : TileId) (a : UArgs) (s : State) : Outcome State Fault Refusal := s.hoardIssue t .gathPf a
/-- HLOOK: lookups in Drey (R314, R412). -/
def execHlook (t : TileId) (a : UArgs) (s : State) : Outcome State Fault Refusal := s.hoardIssue t .hlook a
/-- SCAT (R315, R412). -/
def execScat (t : TileId) (a : UArgs) (s : State) : Outcome State Fault Refusal := s.hoardIssue t .scat a
/-- HPREF: a list to the prefetch engine (R318, R412, R414). -/
def execHpref (t : TileId) (a : UArgs) (s : State) : Outcome State Fault Refusal := s.hoardIssue t .hpref a
/-- HUPD.Q8: row updates of a Q8 table (R323, R412). -/
def execHupdQ8 (t : TileId) (a : UArgs) (s : State) : Outcome State Fault Refusal := s.hoardIssue t .hupdQ8 a
/-- HUPD.Q4: row updates of a Q4 table (R323, R412). -/
def execHupdQ4 (t : TileId) (a : UArgs) (s : State) : Outcome State Fault Refusal := s.hoardIssue t .hupdQ4 a

/-- TRE.LDL: a ladder image loaded (R339, R415). -/
def execTreLdl (t : TileId) (a : UArgs) (s : State) : Outcome State Fault Refusal := s.treeIssue t .treLdl a
/-- TRE.LDN: a node image loaded (R345, R415, R416). -/
def execTreLdn (t : TileId) (a : UArgs) (s : State) : Outcome State Fault Refusal := s.treeIssue t .treLdn a
/-- TRE.LADDER: entries scored by the ladder (R341, R415). -/
def execTreLadder (t : TileId) (a : UArgs) (s : State) : Outcome State Fault Refusal := s.treeIssue t .treLadder a
/-- TRE.WALK: entries scored by walking an ensemble (R350, R415). -/
def execTreWalk (t : TileId) (a : UArgs) (s : State) : Outcome State Fault Refusal := s.treeIssue t .treWalk a

/-! ### Start (R192, R194, R254) -/

/-- Whether a started pass of queue `q` has yet to take the armed swap with its first activation (R252). -/
def Tile.swapDue (tl : Tile) (q : Nat) : Bool := tl.window.any (fun v => v.inQ q && v.started && v.takes)

/-- The instruction that can start from a queue: at the head of every queue it stands in, other than SWAP. The Quill and tree units run
one at a time; a pass follows the pass before it, and a weight load the weight load before it and the swap that a started pass
is to take (log 119). -/
def Tile.startable (tl : Tile) (q : Nat) : Option UEntry :=
  match tl.head q with
  | none => none
  | some u =>
    let share := fun (v : UEntry) => v.started && v.queues.any u.queues.contains
    let alone :=
      if q == 5 || q == 7 then !(tl.window.any (fun v => v.started && v.inQ q))
      else if u.op.isPass then !(tl.window.any (fun v => v.op.isPass && share v))
      else if u.op.isWld then !(u.queues.any tl.swapDue) && !(tl.window.any (fun v => v.op.isWld && share v && v.done == 0))
      else true
    if u.op != .swap && alone && !(tl.blocked u) && u.queues.all (fun k => (tl.head k).map (·.seq) == some u.seq) then some u else none

/-- Whether the values an instruction captured suit it when it reaches the head of its queue (R253, R389). -/
def State.valuesOk (s : State) (t : TileId) (u : UEntry) : Bool :=
  let mat := (matWord u.gc false false).isSome
  if u.op.isPass then u.pass.isSome
  else if u.op.isWld then !(u.queues.any (fun a => (s.tiles[t].arrAt a).armed))
  else if u.op.isHoard then s.hoardValues u
  else match u.op with
    | .qexp | .qcmp => mat
    | .qmrgU => decide (1 ≤ bitsN u.args.imm.toNat 4 0 ∧ bitsN u.args.imm.toNat 4 0 ≤ 16)
    | .qred => decide (qredW u ≤ 128) && mat
    | _ => true

/-- What the start of an instruction comes to, with the banks a pass captures. -/
def State.checkU (s : State) (t : TileId) (u : UEntry) : Acc3 (List (Nat × Bank)) :=
  let no := fun (x : Acc3 Unit) => x.bind (fun _ => Acc3.ok ([] : List (Nat × Bank)))
  if u.op.isPass then s.passCheck t u
  else if u.op.isWld then no (s.wldCheck t u)
  else if u.op.isVec then no (s.vecCheck t u)
  else if u.op.isQuill then no (s.quillCheck t u)
  else if u.op.isHoard then no (s.hoardCheck t u)
  else no (s.treeCheck t u)

/-- What starting does before anything retires. -/
def State.startU (s : State) (t : TileId) (u : UEntry) (banks : List (Nat × Bank)) : State :=
  if u.op.isPass then s.passStart t u banks
  else if u.op.isWld then (if u.done = 0 then s.wldStart t u else s)
  else if u.op.isVec then s.vecStart t u
  else if u.op.isQuill then s.quillStart t u
  else if u.op.isHoard then s.hoardStart t u
  else s.treeStart t u

/-- A fault at the start of an instruction, with the load faults counted where they belong (R258, R295, R345). -/
def State.startFault (s : State) (t : TileId) (u : UEntry) (c : Cause) (a : Nat) : State :=
  let s :=
    if c ≠ .load then s
    else if u.op.isTree then s.count (Cnt.treCntLdflt t)
    else
      let s := s.countLdflt t (arrQueues u.args)
      if s.sptBroken t u then s.count (Cnt.qllCntMask t) else s
  s.raiseU t ⟨c, a⟩ u

/-- The wait of an instruction at the head of queue `q` taken, once: none where its counter does not hold enough beside what the
eligible heads of lower queues take first (R195). -/
def State.takeWait (s : State) (t : TileId) (u : UEntry) (q : Nat) : Option State :=
  let k := u.args.wt.toNat
  let c := u.args.wc.toNat
  if u.consumed ∨ c = 0 then some s
  else if s.tokLeft t (fun v => !(s.tiles[t].blocked v) && v.seq != u.seq) k q < c then none
  else some ((s.put (Reg.tileToken t k) (s.tok t k - c)).modEntry t u.seq (fun e => { e with consumed := true }))

/-- The start of an instruction whose values stand: its wait, its checks, its start. -/
def State.startNow (s : State) (t : TileId) (u : UEntry) : State :=
  match s.takeWait t u ((u.queues.find? u.inQ).getD 0) with
  | none => s.count64 (Reg.tileCntTokwait t)
  | some s =>
    let u := (s.entry t u.seq).getD u
    if u.op = .hpref ∧ 4 ≤ s.tiles[t].openLists then s.count64 (Reg.hrdCntOutfull t)
    else if u.op = .vld ∧ bitN u.args.imm.toNat 2 ∧ s.bondHeld t then s
    else match s.checkU t u with
      | .ok banks => ((s.startU t u banks).modEntry t u.seq (fun e => { e with started := true })).fillSlots t
      | .miss va st => s.addWalk t va st (some u.seq)
      | .fault c a => s.startFault t u c a

/-- UNIT_INSTRUCTION_START (R194, R389): the instruction at the head of queue `q` has its values checked, takes its wait and starts. -/
def execUnitInstructionStart (t : TileId) (q : Fin 8) (s : State) : Outcome State Fault Refusal :=
  if ¬ s.alive then .next s else
  match s.tiles[t].startable q.val with
  | none => .next s
  | some u => .next (if s.valuesOk t u then s.startNow t u else s.startFault t u .illegal 0)

/-! ### Retirement (R192, R194) -/

/-- The effect of a started instruction brought as far as it goes. -/
def State.stepU (s : State) (t : TileId) (u : UEntry) : Prog :=
  if u.op.isPass then s.passStep t u
  else if u.op.isWld then .fin 0 (if u.done = 0 then s.wldEnd t u else s)
  else if u.op.isVec then s.vecStep t u
  else if u.op.isQuill then s.quillStep t u
  else if u.op.isHoard then s.hoardStep t u
  else .fin 0 (s.treeStep t u)

/-- The signal of an instruction (R194). -/
def State.signalU (s : State) (t : TileId) (u : UEntry) : State :=
  if u.args.se then s.signal t u.args.st.toNat 1 (some u) else s

/-- An instruction retires: it leaves the window, its scalar result is written, and it signals; a weight load has signalled when its
banks were complete (Table 12-3). -/
def State.retireU (s : State) (t : TileId) (u : UEntry) (ret : Nat) : State :=
  let s := s.modTile t (fun tl =>
    let tl := tl.leave u.seq true
    if u.op.scalar then tl.setG u.args.rd.toNat (BitVec.ofNat 64 ret) else tl)
  let s := ((s.count64 (Reg.tileCntRetire t)).retiredAt t).settleFences t
  if u.op.isWld && u.done != 0 then s else s.signalU t u

/-- A weight load completes behind a pass that goes on or is frozen (R248): its shadow banks are complete, and it signals
(Table 12-3, log 119). -/
def State.wldDone (s : State) (t : TileId) (u : UEntry) : State :=
  ((s.wldEnd t u).modEntry t u.seq (fun e => { e with done := 1 })).signalU t u

/-- The started weight load of a queue whose banks are not complete. -/
def Tile.wldOf (tl : Tile) (q : Nat) : Option UEntry := tl.window.find? (fun u => u.op.isWld && u.started && u.done == 0 && u.inQ q)

/-- What a queue does where its oldest instruction cannot retire: a weight load behind it completes. -/
def State.behind (s : State) (t : TileId) (q : Nat) : State :=
  match s.tiles[t].wldOf q with
  | some w => s.wldDone t w
  | none => s

/-- UNIT_INSTRUCTION_RETIRE (R192, R194): the oldest instruction of queue `q`, once it is the oldest of all its queues and has
started, goes as far as it can and retires when its effect is complete. -/
def execUnitInstructionRetire (t : TileId) (q : Fin 8) (s : State) : Outcome State Fault Refusal :=
  if ¬ s.alive then .next s else
  match s.tiles[t].first q.val with
  | none => .next s
  | some u =>
    if !u.started || !(u.queues.all (fun k => (s.tiles[t].first k).map (·.seq) == some u.seq)) then .next (s.behind t q.val)
    else if u.op = .lblSt ∧ s.bondHeld t then .next s
    else match s.stepU t u with
      | .fin ret s => .next ((s.retireU t u ret).fillSlots t)
      | .stay s => .next ((s.behind t q.val).fillSlots t)
      | .fault c a s => .next (s.hoardFault t u.seq c a)

/-! ### SWAP (R251, R253, R405) -/

/-- SWAP_ARM: the SWAP at the head of array `a`'s queue arms there once the shadow bank is complete; it retires when every
array it names has armed. While an armed swap stands it is an illegal instruction, once the pass that is to take that swap has
done so (R252, R253, log 119). -/
def execSwapArm (t : TileId) (a : Fin 4) (s : State) : Outcome State Fault Refusal :=
  if ¬ s.alive then .next s else
  match s.tiles[t].head a.val with
  | none => .next s
  | some u =>
    if u.op ≠ .swap ∨ s.tiles[t].blocked u ∨ s.tiles[t].swapDue a.val then .next s
    else if s.tiles[t].arr[a].armed then .next (s.raiseU t ⟨.illegal, 0⟩ u)
    else match s.takeWait t u a.val with
      | none => .next (s.count64 (Reg.tileCntTokwait t))
      | some s =>
        let u := (s.entry t u.seq).getD u
        let tl := s.tiles[t]
        if tl.arr[a].shadow.full then
          let s := s.modTile t (fun tl => (tl.modArr a.val (fun r => { r with armed := true })).modU u.seq
            (fun e => { e with armed := a.val :: e.armed }))
          let u := (s.entry t u.seq).getD u
          .next (if u.queues.all (fun k => u.armed.contains k) then s.retireU t u 0 else s)
        else if tl.loading a.val then .next (s.count64 (Reg.tileArrCntSwapwait t a))
        else .next (s.startFault t u .load 0)

/-! ### Handler entry -/

/-- HANDLER_ENTRY (R211, R381). -/
def execHandlerEntry (t : TileId) (s : State) : Outcome State Fault Refusal :=
  if ¬ s.alive then .next s else .next (s.enterHandler t)

/-! ### Responses (R202, R306, R314, R318, R450) -/

/-- GATHER_RESPONSE: request `i` of the tile's Hoard unit comes to its end, or to its next access. One that waits for an outstanding
slot is counted (R306). -/
def execGatherResponse (t : TileId) (i : Nat) (s : State) : Outcome State Fault Refusal :=
  if ¬ s.alive then .next s else
  let s := s.fillSlots t
  match s.tiles[t].gathers[i]? with
  | some q =>
    if q.home.isNone then .next (s.count64 (Reg.hrdCntOutfull t))
    else if q.look.isSome ∨ q.lost.isSome ∨ (q.remote.isSome ∧ ¬ q.drop) then .next s
    else .next ((s.serveReq t q).fillSlots t)
  | none => .next s

/-- DREY_LOOKUP: the oldest lookup of the tile is served (R182, R314). One that waits for an outstanding slot is counted (R306). -/
def execDreyLookup (t : TileId) (s : State) : Outcome State Fault Refusal :=
  if ¬ s.alive then .next s else
  let s := s.fillSlots t
  match s.tiles[t].gathers.find? (fun q => q.look.isSome && q.lost.isNone) with
  | some q => .next (if q.home.isNone then s.count64 (Reg.hrdCntOutfull t) else (s.serveLook t q).fillSlots t)
  | none => .next s

/-- PREFETCH_ROW_LAND: row `i` of those the prefetch engine has asked for lands (R318, R319). One that waits for an outstanding slot is
counted (R306). -/
def execPrefetchRowLand (t : TileId) (i : Nat) (s : State) : Outcome State Fault Refusal :=
  if ¬ s.alive then .next s else
  let s := s.fillSlots t
  match s.tiles[t].pfOut[i]? with
  | some x => .next ((s.pfServe t x.1 x.2.1).fillSlots t)
  | none =>
    .next (if i < s.tiles[t].pfOut.length + s.tiles[t].pfWaiting.length ∧ 128 ≤ s.tiles[t].slotsUsed then s.count64 (Reg.hrdCntOutfull t) else s)

/-- The data of a device load arrive: dropped where the tag is stale, an exception where it is invalid (R202), else merged
with the bytes forwarded at issue (R200) and written. -/
def State.loadLand (s : State) (t : TileId) (q : LoadReq) (bs : List Byte) (bad : Bool) : State :=
  let s := s.modTile t (fun tl => { tl with loads := tl.loads.erase q })
  let s := if bad then s.degradeTag q.tag else s
  let bs := mergeFwd bs q.fwd
  match s.respOk t q.tag with
  | .stale => s.count (Cnt.tileCntStale t)
  | .invalid =>
    (match q.vec with
     | some x => s.hoardFault t x.1 .epoch 0
     | none => s.raiseC t .epoch 0)
  | _ =>
    match q.vec with
    | none => s.modTile t (fun tl => tl.setG q.dst (BitVec.ofNat 64 (leNat bs)))
    | some x => s.modEntry t x.1 (fun e => { e with
        buf := bs.zipIdx.foldl (fun m y => spSet (fun _ => (0 : Byte)) m (x.2 + y.2) y.1) e.buf })

/-- DEVICE_LOAD_RETURN: load `i` of the tile is performed (R450); one from another package returns by RDR. -/
def execDeviceLoadReturn (t : TileId) (i : Nat) (s : State) : Outcome State Fault Refusal :=
  if ¬ s.alive then .next s else
  match s.tiles[t].loads[i]? with
  | some q =>
    if q.remote.isSome ∨ q.lost.isSome then .next s
    else
      let (bs, bad, s) := s.tileRead q.addr q.len
      .next (s.loadLand t q bs bad)
  | none => .next s

/-! ### Page walks (R436, R437, R440) -/

/-- The prefetched rows that wait for a page left out (log 38). -/
def State.pfSkip (s : State) (t : TileId) (va : Nat) : State :=
  s.tiles[t].pfOut.foldl (fun (s : State) (x : Prefetch × Nat × Nat) =>
    let ti := tableInfo (s.tagConf x.1.tag).1 x.1.table
    let a := rowAddr ti x.2.2 ((x.1.rows[x.2.1]?).getD 0)
    if a / 4096 ≤ va / 4096 ∧ va / 4096 ≤ (a + ti.stride - 1) / 4096 then s.pfFault t x.1.table x.1.area x.2.1 .address else s) s

/-- The walk of tile `t` that ends next: its oldest in a walker slot, else, while a slot is free, its oldest (R436). -/
def State.nextWalk (s : State) (t : TileId) : Option Walk :=
  match s.tiles[t].walks.find? (·.slot) with
  | some w => some w
  | none => if s.walkSlots < 16 then s.tiles[t].walks.head? else none

/-- The tag of the work a walk serves. -/
def Tile.walkTag (tl : Tile) (w : Walk) : Option Nat :=
  match w.seq with
  | some q => (tl.window.find? (fun u => u.seq == q)).bind (·.tag)
  | none => if w.pf then w.tag else tl.ctx

/-- PAGE_WALK_END: a walk of the tile ends with an entry for the TLB or a translation fault; where its walks all wait for one of the
sixteen slots, the wait is counted. -/
def execPageWalkEnd (t : TileId) (s : State) : Outcome State Fault Refusal :=
  if ¬ s.alive then .next s else
  match s.nextWalk t with
  | none => .next (if s.tiles[t].walks.isEmpty then s else s.count64 (Reg.tileCntWalkwait t))
  | some w =>
    let tag := s.tiles[t].walkTag w
    let s := s.modTile t (fun tl => { tl with walks := tl.walks.erase w })
    match s.walkFor s.tiles[t] w.vaddr w.store with
    | (.entry e, s) => .next (s.modTile t (fun tl => tl.tlbPut e))
    | (.fault lost, s) =>
      let s := if lost then s.degradeTag tag else s
      match w.seq with
      | some q => .next (s.hoardFault t q .translation w.vaddr)
      | none =>
        if w.pf then .next ((s.count (Cnt.tileCntTfault t)).pfSkip t w.vaddr)
        else if s.coreRuns t then .next (s.raiseC t .translation w.vaddr)
        else .next s

/-! ### Accepted entries (R201, R315, R317, R446, R448, R514, R515) -/

/-- Bytes of one 64-byte line written under ECC (R424, R429): a unit written in part that is uncorrectable keeps its bytes. -/
def State.lineWrite (s : State) (line : Nat) (cells : List Host.Cell) : State :=
  let size := eccSize line
  (List.range (64 / size)).foldl (fun (s : State) k =>
    let mine := cells.filter (fun c => decide (k * size ≤ c.1 ∧ c.1 < k * size + size))
    let ws := s.mem.badIn (line + k * size) size
    let put : State := { s with mem := mine.foldl (fun (m : Mem) c => m.setByte (line + c.1) c.2) s.mem }
    if mine.isEmpty then s
    else if mine.length = size then
      let w := line + k * size
      { put with mem := { put.mem with bad := put.mem.bad.filter (fun x => !(ws.contains x)), soft := put.mem.soft.filter (· ≠ w) } }
    else if ws.isEmpty then put.countSoft (line + k * size) size
    else s.countBad ws) s

/-- The writes that carry bytes of one line to another member: the whole line in one, else one for each 8-byte unit touched,
whose bytes the entry does not hold are free values (log 39). -/
def State.sendLine (s : State) (n a : Nat) (cells : List Host.Cell) : List Nat × State :=
  let byte := fun (i : Nat) => cells.find? (fun c => c.1 == i)
  if cells.length = 64 then
    let (tag, s) := s.sciWrite n a 6 ((List.range 64).map (fun i => match byte i with | some c => c.2 | none => 0))
    ([tag], s)
  else
    let units := (List.range 8).filter (fun k => cells.any (fun c => c.1 / 8 == k))
    units.foldl (fun (x : List Nat × State) k =>
      let (f, s) := x.2.fresh 8
      let bs := (List.range 8).map (fun j => match byte (8 * k + j) with
        | some c => c.2
        | none => BitVec.ofNat 8 (Config.freeNat (f + j)))
      let (tag, s) := s.sciWrite n (a + 8 * k) 3 bs
      (x.1 ++ [tag], s)) ([], s)

/-- STORE_BUFFER_ACCEPT: entry `i` is sent and credited, and performed (R201). An older entry of its line goes before it, and
so does a load of the line still on its way. -/
def execStoreBufferAccept (t : TileId) (i : Nat) (s : State) : Outcome State Fault Refusal :=
  if ¬ s.alive then .next s else
  let tl := s.tiles[t]
  match tl.sb[i]? with
  | none => .next s
  | some e =>
    if e.accepted || s.bondHeld t || (tl.sb.take i).any (fun x => x.line == e.line) || tl.loads.any (fun l => l.addr % 2 ^ 42 / 64 * 64 == e.line % 2 ^ 42) then .next s
    else
      let gone := s.modTile t (fun tl => { tl with sb := tl.sb.eraseIdx i })
      match s.whereIs e.line with
      | .here a => .next ((if s.area a = .pcie then gone.pcieWrite a e.bytes else gone.lineWrite a e.bytes).settleFences t)
      | .member n a =>
        let (tags, s) := s.sendLine n a e.bytes
        .next (s.modTile t (fun tl => { tl with sb := tl.sb.set i { e with accepted := true, tags := tags } }))
      | .nowhere => .next ((gone.count (Cnt.sciCntLost 0)).settleFences t)

/-- One piece of a scattered row performed or sent: the TAGs of writes to another package (R305, R315). -/
def State.scatPiece (s : State) (pa : Nat) (bs : List Byte) : List Nat × State :=
  match s.whereIs pa with
  | .here a =>
    ([], if s.area a = Area.pcie then s.pcieWrite a (bs.zipIdx.map (fun (x : Byte × Nat) => (x.2, x.1))) else s.memWrite a bs)
  | .member n a => s.sendMember n a (bs.map (fun b => (b, false)))
  | .nowhere => ([], s.count (Cnt.sciCntLost 0))

/-- SCATTER_ENTRY_ACCEPT: scatter-stage entry `i`, a whole row, is credited and performed (R315); entries of one table row keep issue
order (R317). -/
def execScatterEntryAccept (t : TileId) (i : Nat) (s : State) : Outcome State Fault Refusal :=
  if ¬ s.alive then .next s else
  let tl := s.tiles[t]
  match tl.scat[i]? with
  | none => .next s
  | some e =>
    if e.accepted || s.bondHeld t || (tl.scat.take i).any (fun x => x.table == e.table && x.row == e.row) then .next s
    else
      let r := e.parts.foldl (fun (x : List Nat × State) p =>
        let (tags, s) := x.2.scatPiece p.1 p.2
        (x.1 ++ tags, s)) ([], s)
      .next ((r.2.modTile t (fun tl => { tl with
        scat := if r.1.isEmpty then tl.scat.eraseIdx i else tl.scat.set i { e with accepted := true, tags := r.1 } })).settleFences t)

end Sys2Proof.Machine
end

