-- ==== Sys2Proof/Machine/TileCmds.lean ====
section
/-! DEFINITION. What the tile scheduler does to a tile (06_tiles.md R216 to R234, 17_gaits.md R552 to R554), the failure of memories and
tiles (18_faults.md R584 to R592), Hoard's shards (09_hoard.md R330 to R335), and the end of a TLB invalidation. -/

namespace Sys2Proof.Machine

open Host

/-! ### Dispatch and completion -/

/-- ITEM_DISPATCH (R218, R229, R231, R552, R553): the next item whose conditions hold, a tagged one first, goes to its tile. -/
def execItemDispatch (s : State) : Outcome State Fault Refusal :=
  if s.gaitN < 2 ∨ s.gait.trans ≠ .none ∨ ¬ s.alive then .next s
  else
  let s := s.frm.live.foldl (fun (s : State) e => s.loseUnreadable e.frame) s
  match s.nextTagged with
    | some (e, p, i, t, d) =>
      let (ok, s) := s.wakeTile t
      if ¬ ok then .next s
      else
        let w : Work := { frame := some e.frame, idx := i, buf := e.buf, pc := bitsN d.pc 21 0
                          g1 := BitVec.ofNat 64 (p.itemBase + 64 * i), g2 := BitVec.ofNat 64 d.g2, closing := bitN d.flags 1, slot := 0 }
        .next ((s.modEpoch e.frame (fun e => e.setItem i (.held t))).sendItem t w)
    | none =>
      match s.nextUntagged with
      | some (kick, b, i, t, d, p) =>
        let (ok, s) := s.wakeTile t
        if ¬ ok then .next s
        else
          let w : Work := { frame := none, idx := i, buf := b, pc := bitsN d.pc 21 0
                            g1 := BitVec.ofNat 64 (p.itemBase + 64 * i), g2 := BitVec.ofNat 64 d.g2, closing := bitN d.flags 1, slot := 0 }
          let s : State := match kick with
            | some k => { s with sched := { s.sched with kicks := s.sched.kicks.eraseIdx k } }
            | none => { s with sched := { s.sched with untagBusy := true } }
          .next (s.sendItem t w)
      | none => .next s.skipUnserved

/-- The scheduler counts an item finished (R377): the next untagged item of trigger 0 may follow it (R231). -/
def State.finishItem (s : State) (t : TileId) (w : Work) : State :=
  let s := s.modTile t (fun tl => { tl with ended := tl.ended.erase w, idleSince := s.time })
  match w.frame with
  | some f => s.modEpoch f (fun e => if e.item w.idx = .held t then e.setItem w.idx .finished else e)
  | none => if s.sched.untagBusy then s.untagNext w.buf w.idx else s

/-- ITEM_COMPLETE (R377): the oldest ended item whose unit instructions have all retired; one that faulted or waits in the replay
record has not. -/
def execItemComplete (t : TileId) (s : State) : Outcome State Fault Refusal :=
  if ¬ s.alive then .next s else
  match s.tiles[t].ended.find? (fun w => !(s.tiles[t].openU.any (fun u => u.work == some w))) with
  | some w => .next (s.finishItem t w)
  | none => .next s

/-- TILE_WAKE_COMPLETE (R552, R553): the tile is clocked, and the package is in Canter. -/
def execTileWakeComplete (t : TileId) (s : State) : Outcome State Fault Refusal :=
  if ¬ s.alive then .next s else
  if ¬ s.tiles[t].waking then .next s
  else
    let s := s.modTile t (fun tl => { tl with waking := false, clocked := true, cycFrom := s.time, idleSince := s.time, lastRetire := s.time })
    let s := if s.gaitN = 2 then s.setGait 3 true else s
    .next (s.startItem t)

/-- TILE_CLOCK_GATE (R33, R554): a tile idle for GAIT_TILE_IDLE clock-gates; once all are gated the package drains and enters
Trot. -/
def execTileClockGate (t : TileId) (s : State) : Outcome State Fault Refusal :=
  if ¬ s.alive then .next s else
  let tl := s.tiles[t]
  if ¬ tl.clocked ∨ ¬ tl.isIdle ∨ ¬ tl.ended.isEmpty ∨ s.inHandler t ∨ tl.exc.isSome then .next s
  else
    let s := s.at_ (max tl.idleSince tl.lastRetire + 1000 * s.rd Reg.gaitTileIdle)
    .next ((s.countCycles t).modTile t (fun tl => { tl with clocked := false })).leaveCanter

/-- Whether an untagged item is the one the sequence of trigger 0 now runs (R231). -/
def State.isSequence (s : State) (w : Work) : Bool :=
  s.sched.untagBusy && (match s.sched.untag with | (b, i, _) :: _ => decide (b = w.buf ∧ i = w.idx) | [] => false)

/-- Items a tile holds go back to the scheduler: tagged ones wait again; of the untagged ones the sequence's is its next again, and
kicked ones are dispatched again. -/
def State.takeBack (s : State) (t : TileId) : State :=
  let ws := s.tiles[t].items.filter (fun w => w.frame.isNone)
  let kicks := (ws.filter (fun w => !(s.isSequence w))).map (fun w => (w.buf, w.idx, s.places))
  let s := s.mapLive (fun e => { e with items := e.items.filter (fun x => x.2 != .held t) })
  { s with sched := { s.sched with
    kicks := kicks ++ s.sched.kicks, untagBusy := s.sched.untagBusy && !(ws.any s.isSequence) } }

/-- A tile reset by a write of TILE_RESET or by a management request (R216): its items go back to the scheduler, and STATE
passes through 3 where the tile was in service. A powered-down tile is left as it is. -/
def State.tileResetNow (s : State) (t : TileId) : State :=
  let st := s.tileState t
  if st = 0 then s
  else
    let serving := decide (st = 1 ∨ st = 2)
    let s := if serving then s.setTileState t 3 else s
    let s := (s.takeBack t).resetTile t
    let s := s.mapLive (fun e => { e with rein := e.rein.dropTile t })
    let s := s.modTile t (fun tl => { tl with idleSince := s.time, lastRetire := s.time })
    if serving then s.setTileState t 1 else s

/-! ### Failures (R585 to R592) -/

/-- TILE_WATCHDOG_EXPIRY (R217, R586): no instruction has retired for TILE_WDOG µs in a tile that holds work. -/
def execTileWatchdogExpiry (t : TileId) (s : State) : Outcome State Fault Refusal :=
  if ¬ s.alive then .next s else
  let tl := s.tiles[t]
  if ¬ tl.clocked ∨ ¬ tl.hasWork ∨ s.tileState t = 4 then .next s
  else
    let s := s.at_ (tl.lastRetire + 1000 * s.rd (Reg.tileWdog t))
    .next ((s.count (Cnt.tileCntWdog t)).failTile t 1)

/-- An uncorrectable word of Drey's directory (R171): its key is unresolved for the rest of the epoch's pass, and with it the points
whose cell it is; nothing is refused. -/
def State.dreyBad (s : State) (parity : Nat) (key : Nat) : State :=
  let s := s.count Cnt.dreyCntEcc
  match s.epochOfParity parity with
  | some e => (s.modEpoch e.frame (fun e => { e with
      eccLost := key :: e.eccLost, dir := e.dir.filter (fun x => x.1 != key), degraded := true })).unresolve e.frame (fun p => p.keys.contains key)
  | none => s

/-- SRAM_UNCORRECTABLE_ERROR (Table 18-1). A word of the Halter bank, the event log, or memory stays bad; the reads that meet
it count. -/
def execSramUncorrectableError (c : SramClass) (s : State) : Outcome State Fault Refusal :=
  if ¬ s.alive then .next s else
  match c with
  | .tile t => .next (s.failTile t 0)
  | .dreyDir par _ key => .next (s.dreyBad (b2n par) key.toNat)
  | .baseBuffer par =>
    let s := s.count Cnt.evtCntBaseUe
    match par with
    | some p => match s.epochOfParity (b2n p) with
      | some e => .next (s.degrade e.frame)
      | none => .next s
    | none => .next s
  | .halterBank => .next { s with halter := { s.halter with bankBad := true } }
  | .eventLog k => .next { s with log := { s.log with bad := if k.val ∈ s.log.bad then s.log.bad else k.val :: s.log.bad } }
  | .memory a =>
    let u := eccUnit a
    let ecc := decide (a < 0x8000000) || s.install.inlineEcc
    if s.isMem a && ecc && !(s.mem.bad.any (fun w => w.1 == u)) then .next { s with mem := { s.mem with bad := (u, false) :: s.mem.bad } }
    else .next s

/-- TILE_SELF_TEST_END (R591): its patterns have overwritten the tile's stores. -/
def execTileSelfTestEnd (t : TileId) (pass : Bool) (s : State) : Outcome State Fault Refusal :=
  if ¬ s.alive then .next s else
  if ¬ s.tiles[t].selfTest then .next s
  else
    let (b, s) := s.fresh (tileStoreBytes + 65536)
    let s := s.modTile t (fun tl => { tl with
      selfTest := false, store := [], storeFill := some b, voids := [], acc := [], accFill := some (b + tileStoreBytes)
      nodes := [], ladder := [], arr := tl.arr.map (fun a => { a with active := Bank.empty, shadow := Bank.empty, armed := false }) })
    let s := (s.putB (Reg.treStat t) 3 false).putB (Reg.treStat t) 4 false
    if pass then
      let s := (s.setTileState t 1).putB Reg.evtQuarStat t.val false
      .next (s.logEvent 0x22 t.val 0 0)
    else .next (s.logEvent 0x22 t.val 0 1)

/-! ### Programs (R226, R227, R231) -/

/-- The start of a program check, by a write of TILE_SCHED_PROGb. -/
def State.schedProg (s : State) (b : Fin 2) : State :=
  ({ s with sched := { s.sched with checking := s.sched.checking.set b true } }).putB Reg.tileSchedStat 5 true

/-- PROGRAM_CHECK_END (R227): the buffer's valid bit, and the failing step, 0 for a pass. -/
def execProgramCheckEnd (b : Bool) (s : State) : Outcome State Fault Refusal :=
  if ¬ s.alive then .next s else
  let k : Fin 2 := if b then 1 else 0
  if ¬ s.sched.checking[k] then .next s
  else
    let (step, info, s) := s.checkProgram k.val
    let ok := decide (step = 0)
    let s := { s with sched := { s.sched with
      checking := s.sched.checking.set k false, progs := s.sched.progs.set k (if ok then info else none) } }
    let s := (s.putB Reg.tileSchedStat (2 + k.val) ok).putF Reg.tileSchedStat 10 8 step
    .next (s.putB Reg.tileSchedStat 5 (s.sched.checking[(0 : Fin 2)] || s.sched.checking[(1 : Fin 2)]))

/-- A write of TILE_SCHED_KICK: an untagged item of the selected buffer with trigger 1 is to be dispatched (R231). -/
def State.schedKick (s : State) (k : Nat) : State :=
  let b : Fin 2 := if bitN (s.force Reg.tileSchedSel) 0 then 1 else 0
  match s.sched.progs[b] with
  | some p =>
    let i := p.t + k
    match s.itemDesc p i with
    | some d =>
      if k < p.u ∧ bitN d.flags 2 then
        { s with sched := { s.sched with kicks := s.sched.kicks ++ [(b, i, s.places)] } }
      else s
    | none => s
  | none => s

/-! ### Shards (R330 to R335) -/

/-- Bits [1:0] of a shard's state set; a change increments its GEN and is a change for a waiting request (R598). -/
def State.setShard (s : State) (k sh v : Nat) : State :=
  let old := s.rd (Reg.hrdShdState k sh)
  if bitsN old 1 0 = v then s
  else
    (s.put (Reg.hrdShdState k sh) (putBits (putBits old 1 0 v) 31 16 (bitsN old 31 16 + 1))).modShard k sh
      (fun x => { x with req := x.req.map (fun m => { m with changed := true }) })

/-- Whether a request a tile issued to one of the homes has not returned: gathers, rows of an HUPD, prefetched rows, and the rows
its scatter stage holds, which were addressed when they were staged (log 36). -/
def Tile.asksHome (tl : Tile) (k : Nat) (homes : List Nat) : Bool :=
  tl.gathers.any (fun q => q.table == k && (match q.home with | some h => homes.contains h && q.memory | none => false))
    || tl.prefetch.any (fun p => p.table == k && p.out.any (fun x => homes.contains x.2))
    || tl.scat.any (fun e => e.table == k && homes.contains e.home)

/-- SHARD_SWITCH_APPLIED (R333, R336): every request issued to the old home has returned. -/
def execShardSwitchApplied (tbl : Fin 16) (sh : Fin 64) (s : State) : Outcome State Fault Refusal :=
  if ¬ s.alive then .next s else
  let r := s.shardAt tbl.val sh.val
  if ¬ r.switching ∨ s.tiles.toList.any (fun tl => tl.asksHome tbl.val r.old) then .next s
  else
    let s := s.modShard tbl.val sh.val (fun x => { x with switching := false, old := [] })
    .next ((s.setShard tbl.val sh.val (s.fld (Reg.hrdShdState tbl.val sh.val) 0 0 + 2)).bumpVersion tbl.val)

/-- The window of one shard ends (R331). -/
def State.shardWindow (s : State) (k sh : Nat) : State :=
  let c := s.fld (Reg.hrdShdLoad k sh) 31 16
  (s.put (Reg.hrdShdLoad k sh) c).putB (Reg.hrdShdState k sh) 2 (c == 65535)

/-- SHARD_LOAD_WINDOW (R331): the 1 s window on the time base ends for every shard. -/
def execShardLoadWindow (s : State) : Outcome State Fault Refusal :=
  if ¬ s.alive then .next s else
  let s := s.at_ ((s.rd Reg.hrdWinNum + 1) * 1000000000)
  let s := (List.range 1024).foldl (fun (s : State) i => s.shardWindow (i / 64) (i % 64)) s
  .next (s.put Reg.hrdWinNum (s.rd Reg.hrdWinNum + 1))

/-! ### Translation -/

/-- A write of TILE_TLB_INV (R440): bit [0] names every entry, else the entry of the address above it. -/
def State.tlbInvWrite (s : State) (t : TileId) (v : Nat) : State :=
  let va := bitsN v 47 12 * 4096
  (s.tlbInvalidate t (bitN v 0) (if bitN va 47 then va + 2 ^ 64 - 2 ^ 48 else va)).putB (Reg.tileTlbStat t) 0 true

/-- TLB_INV_PEND_CLEAR (R440). -/
def execTlbInvPendClear (t : TileId) (s : State) : Outcome State Fault Refusal :=
  if ¬ s.alive then .next s else
  if s.tiles[t].inFlight then .next s else .next (s.putB (Reg.tileTlbStat t) 0 false)

end Sys2Proof.Machine
end

