-- ==== Sys2Proof/Machine/Stack.lean ====
section
/-! DEFINITION. The die stack (14_stack.md): bring-up, absent dies, bond errors, the error window, the field wire test, and test access. -/

namespace Sys2Proof.Machine

open Host

/-! ### Presence -/

/-- TILE_DIE_STAT of a die set, with its GEN. -/
def State.setDieStat (s : State) (d v : Nat) : State :=
  let old := s.rd (Reg.tileDieStat d)
  s.put (Reg.tileDieStat d) (v % 2 ^ 16 + 2 ^ 16 * ((bitsN old 31 16 + 1) % 2 ^ 16))

/-- The tiles of a die. -/
def dieTileIds (d : Nat) : List TileId := (List.finRange 32).filter (fun t => decide (t.val / 16 = d))

/-- A port that leaves service, logged (R477): reason 0 training, 1 parity, 2 field wire test. -/
def State.portGone (s : State) (d p reason : Nat) : State := s.logEvent 0x24 d 0 (p + 2 ^ 8 * reason)

/-- The tiles of an absent die are out of service (R472). -/
def State.dieTilesOut (s : State) (d : Nat) : State :=
  (dieTileIds d).foldl (fun (s : State) (t : TileId) =>
    if s.tileState t = 4 then s else (s.setTileState t 5).putB Reg.evtOosStat t.val true) s

/-- A die declared absent (R472, R478), with its causes. -/
def State.declareAbsent (s : State) (d cause : Nat) : State :=
  let v := putBits (putBits (putBits (s.fld (Reg.tileDieStat d) 15 0) 0 0 0) 1 1 1) 15 8 0
  ((s.setDieStat d v).dieTilesOut d).logEvent 0x23 d 0 cause

/-- Both dies settled: the package enters Trot (Table 14-3). -/
def State.bringUpEnd (s : State) : State :=
  if s.stack.bring.toList.any (· == 0) then s
  else ((s.setGait 2 s.gait.ownMove).setTrans .none false).runWake

/-- COMPUTE_DIE_BRING_UP (R470, R471): a die completes the events of Table 14-3 with the logical ports of `trained` trained.
A port that parity or a field test removed stays out. -/
def execComputeDieBringUp (d : DieId) (trained : BitVec 8) (s : State) : Outcome State Fault Refusal :=
  if ¬ s.alive then .next s else
  let ok := fun (p : Nat) => bitN trained.toNat p && !(bitN (s.rd (Reg.tileBondPstat d p)) 2) && !(bitN (s.rd (Reg.tileBondPstat d p)) 3)
  let mask := (List.range 8).foldl (fun m p => if ok p then m + 2 ^ p else m) 0
  if s.gait.trans ≠ .walkToTrot ∨ s.stack.bring[d] ≠ 0 ∨ mask = 0 then .next s
  else
    let was := s.bit (Reg.tileDieStat d) 1
    let s := s.setDieStat d (1 + 4 + 2 ^ 8 * mask)
    let s := (List.range 8).foldl (fun (s : State) p =>
      let t := bitN trained.toNat p
      let s := (s.putB (Reg.tileBondPstat d p) 0 (ok p)).putB (Reg.tileBondPstat d p) 1 t
      if t then s else s.portGone d p 0) s
    let s := (dieTileIds d).foldl (fun (s : State) (t : TileId) =>
      if s.tileState t = 0 ∨ (s.tileState t = 5 ∧ was) then (s.setTileState t 1).putB Reg.evtOosStat t.val false else s) s
    .next ({ s with stack := { s.stack with bring := s.stack.bring.set d 1 } }).bringUpEnd

/-- DIE_ABSENT (R472): at the 42 µs mark of the request a die that failed is declared absent; the package enters Trot without
it. -/
def execDieAbsent (d : DieId) (cause : BitVec 5) (s : State) : Outcome State Fault Refusal :=
  if ¬ s.alive then .next s else
  if s.gait.trans ≠ .walkToTrot ∨ s.stack.bring[d] ≠ 0 ∨ cause = 0 then .next s
  else
    let s := s.at_ (s.stack.startT + 42000)
    let s := if bitN cause.toNat 3 then (List.range 8).foldl (fun (s : State) p =>
        (s.putB (Reg.tileBondPstat d p) 0 false).putB (Reg.tileBondPstat d p) 1 false) s else s
    let s := s.putB (Reg.tileDieStat d) 2 (!(bitN cause.toNat 2))
    let s := s.declareAbsent d cause.toNat
    .next ({ s with stack := { s.stack with bring := s.stack.bring.set d 2 } }).bringUpEnd

/-! ### Parity (R474 to R478) -/

/-- What a flit of a tile with a parity error belonged to: a load, a request of the Hoard unit, a store-buffer entry or a row
scattered. -/
inductive BondHit where
  | load (q : LoadReq)
  | gather (q : GatherReq)
  | store (e : SbEntry)
  | scat (e : ScatEntry)
  deriving DecidableEq, Repr

/-- The port by which a request of the Hoard unit crosses the bond (R466). -/
def State.reqPort (s : State) (d : Nat) (q : GatherReq) : Nat :=
  if q.look.isSome then s.controlPort d else s.bondPort d (s.reqAddr q + q.got.length)

/-- Whether a request of the Hoard unit is out over the bond. -/
def GatherReq.outNow (q : GatherReq) : Bool := q.home.isSome && !q.drop && q.lost.isNone && q.form != 4 && q.form != 5

/-- The access of a tile under a tag that crosses port `p` of its die, the oldest first of loads, of Hoard's requests, of stores, of
scattered rows (R466, log 122). -/
def State.bondFind (s : State) (t : TileId) (p : Nat) (tag : Option Nat) : Option BondHit :=
  let tl := s.tiles[t]
  let d := t.val / 16
  match tl.loads.find? (fun q => q.tag == tag && q.lost.isNone && s.bondPort d q.addr == p) with
  | some q => some (.load q)
  | none =>
    match tl.gathers.find? (fun q => q.tag == tag && q.outNow && s.reqPort d q == p) with
    | some q => some (.gather q)
    | none =>
      match tl.sb.find? (fun e => e.tag == tag && !e.accepted && s.bondPort d e.line == p) with
      | some e => some (.store e)
      | none => (tl.scat.find? (fun e => e.tag == tag && !e.accepted && e.parts.any (fun x => s.bondPort d x.1 == p))).map .scat

/-- A write that is dropped: its entry goes, and it does not happen (R474). -/
def State.bondDrop (s : State) (t : TileId) : BondHit → State
  | .store e => (s.modTile t (fun tl => { tl with sb := tl.sb.erase e })).settleFences t
  | .scat e => (s.modTile t (fun tl => { tl with scat := tl.scat.erase e })).settleFences t
  | .gather q => (s.dropReq t q).fillSlots t
  | .load _ => s

/-- An access that ends as with an uncorrectable word (R425, R474): a read delivered as zeros, a write dropped. -/
def State.bondPoison (s : State) (t : TileId) : BondHit → State
  | .load q => s.loadLand t q (List.replicate q.len 0) true
  | .gather q => if q.form = 9 then s.bondDrop t (.gather q) else (s.landReq t q (List.replicate q.len 0) true).fillSlots t
  | h => s.bondDrop t h

/-- An access whose flit was discarded (R474): a read waits for the bond timeout, a write is lost. -/
def State.bondLose (s : State) (t : TileId) : BondHit → State
  | .load q => s.modTile t (fun tl => { tl with loads := tl.loads.map (fun x => if x = q then { x with lost := some s.time } else x) })
  | .gather q => if q.form = 9 then s.bondDrop t (.gather q) else s.modReq t q { q with lost := some s.time }
  | h => s.bondDrop t h

/-- Whether the epoch of a tag is being reined back: its flits are discarded under R209 (R486). -/
def State.tagReined (s : State) (tag : Option Nat) : Bool :=
  match tag with
  | some g => s.frm.live.any (fun e => e.frame % 256 == g && (match e.rein with | .run _ _ _ => true | _ => false))
  | none => false

/-- BOND_FLIT_RECEIVE (R474, R475): a parity error is counted and attributed to the tile; one in the data alone poisons the access, one
in the control discards its flit. -/
def execBondFlitReceive (d : DieId) (p : Fin 8) (t : TileId) (dataErr ctlErr : Bool) (tag : Option (BitVec 8)) (s : State) :
    Outcome State Fault Refusal :=
  if ¬ s.alive then .next s else
  if ¬ s.bit (Reg.tileDieStat d) 0 ∨ ¬ s.bit (Reg.tileBondPstat d p) 0 ∨ !(dataErr || ctlErr) ∨ t.val / 16 ≠ d.val then .next s
  else
    let s := s.count (Cnt.tileBondCntPar d p)
    let s := { s with stack := { s.stack with winErrs := (d.val, p.val, t.val) :: s.stack.winErrs } }
    let tg := tag.map (·.toNat)
    if s.tagReined tg then .next s
    else match s.bondFind t p tg with
      | none => .next s
      | some h => .next (if ctlErr then (s.bondLose t h) else (s.degradeTag tg).bondPoison t h)

/-- The oldest lost access of a tile under a tag, with the instant its flit was lost. -/
def Tile.lostAccess (tl : Tile) (tag : Option Nat) : Option (BondHit × Nat) :=
  match tl.loads.findSome? (fun q => if q.tag = tag then q.lost.map (fun x => (BondHit.load q, x)) else none) with
  | some x => some x
  | none => tl.gathers.findSome? (fun q => if q.tag = tag then q.lost.map (fun x => (BondHit.gather q, x)) else none)

/-- BOND_TIMEOUT (R474, R475): 2 µs after its flit was discarded, a request completes as poisoned. -/
def execBondTimeout (d : DieId) (tag : Option (BitVec 8)) (s : State) : Outcome State Fault Refusal :=
  if ¬ s.alive then .next s else
  let tg := tag.map (·.toNat)
  match (dieTileIds d).findSome? (fun t => (s.tiles[t].lostAccess tg).map (fun x => (t, x.1, x.2))) with
  | none => .next s
  | some (t, h, at0) =>
    let s := (s.at_ (at0 + 2000)).count (Cnt.tileBondCntTmo d)
    match h with
    | .gather q => if q.drop then .next (s.dropReq t q) else .next ((s.degradeTag tg).bondPoison t h)
    | _ => .next ((s.degradeTag tg).bondPoison t h)

/-- Errors a window attributes to a port, by tile. -/
def State.portErrs (s : State) (d p : Nat) : List Nat :=
  (s.stack.winErrs.filter (fun e => e.1 == d && e.2.1 == p)).map (fun e => e.2.2)

/-- BOND_ERROR_WINDOW (R476): the tests at the end of the 1 s window on the time base. Errors on a port that the first test takes out are not
counted against tiles. -/
def execBondErrorWindow (s : State) : Outcome State Fault Refusal :=
  if ¬ s.alive then .next s else
  let s := s.at_ ((s.stack.windows + 1) * 1000000000)
  let thr := max 1 (s.fld Reg.tileBondCfg 7 0)
  let ports := (List.range 16).filter (fun i =>
    let es := s.portErrs (i / 8) (i % 8)
    s.bit (Reg.tileBondPstat (i / 8) (i % 8)) 0 && decide (thr ≤ es.length ∧ 3 ≤ es.eraseDups.length))
  let rest := s.stack.winErrs.filter (fun e => !(ports.contains (8 * e.1 + e.2.1)))
  let bad := (List.finRange 32).filter (fun t => decide (thr ≤ (rest.filter (fun e => e.2.2 == t.val)).length))
  let s := ports.foldl (fun (s : State) i =>
    let s := (s.putB (Reg.tileBondPstat (i / 8) (i % 8)) 3 true).portGone (i / 8) (i % 8) 1
    { s with stack := { s.stack with leaving := s.stack.leaving ++ [(i / 8, i % 8)] } }) s
  let s := { s with stack := { s.stack with winErrs := [], windows := s.stack.windows + 1 } }
  .next (bad.foldl (fun (s : State) (t : TileId) => s.failTile t 2) s)

/-- Requests of a die out over the bond by a port: their traffic holds new traffic back (R477). -/
def State.holdPort (s : State) (d p : Nat) : State :=
  (dieTileIds d).foldl (fun (s : State) t =>
    let s0 := s
    s.modTile t (fun tl => { tl with
      loads := tl.loads.map (fun q => if s0.bondPort d q.addr = p then { q with hold := true } else q)
      gathers := tl.gathers.map (fun q => if q.outNow ∧ s0.reqPort d q = p then { q with hold := true } else q) })) s

/-- The ports taken out of service stop carrying traffic at a frame boundary, and their share passes to the next port once what
crossed by them has returned (R477); a die left with none becomes absent (R478). -/
def State.dropPorts (s : State) : State :=
  let gone := s.stack.leaving
  let s := { s with stack := { s.stack with leaving := [] } }
  let s := gone.foldl (fun (s : State) x =>
    let s := s.putB (Reg.tileBondPstat x.1 x.2) 0 false
    if bitN (s.diePorts x.1) x.2 then
      let s := s.holdPort x.1 x.2
      let s := { s with stack := { s.stack with holdT := Vector.ofFn (fun i : Fin 2 => if i.val = x.1 then s.time + 2000 else s.stack.holdT[i]) } }
      s.setDieStat x.1 (putBits (s.fld (Reg.tileDieStat x.1) 15 0) (8 + x.2) (8 + x.2) 0)
    else s) s
  (List.range 2).foldl (fun (s : State) d =>
    if s.bit (Reg.tileDieStat d) 0 ∧ s.diePorts d = 0 then
      let ts := dieTileIds d
      let held := ts.map (fun t => (t, s.tiles[t].items))
      let s := s.declareAbsent d 32
      let s := ts.foldl (fun (s : State) (t : TileId) => ((s.resetTile t).modTile t (fun tl => { tl with clocked := false })).stopTile t) s
      held.foldl (fun (s : State) (x : TileId × List Work) => s.withdrawTile x.1 x.2) s
    else s) s

/-! ### The field wire test (R485) -/

/-- A write of TILE_BOND_TEST: START on dies in Trot with no work item dispatched, else refused; while a test runs only DIE is
written. -/
def State.bondTestWrite (s : State) (v : Nat) : State :=
  let old := s.rd Reg.tileBondTest
  let dies := v % 4
  if bitN old 2 ∨ ¬ bitN v 2 then s.put Reg.tileBondTest (putBits old 1 0 dies)
  else
    let ok := decide (s.gaitN = 2 ∧ dies ≠ 0 ∧ s.gait.trans = .none) && (List.range 2).all (fun d =>
      !(bitN dies d) || (s.bit (Reg.tileDieStat d) 0 && (dieTileIds d).all (fun t => !(s.tiles[t].hasWork))))
    if ok then
      { s.put Reg.tileBondTest (dies + 4) with stack := { s.stack with testing := dies } }
    else s.put Reg.tileBondTest (dies + 8 * b2n (bitN old 3) + 16)

/-- BOND_TEST_DONE (R485): `fail` has a bit per logical port of both dies, `groups` the first failing wire group of each failing
port in order. -/
def execBondTestDone (fail : BitVec 16) (groups : List (BitVec 7)) (s : State) : Outcome State Fault Refusal :=
  if ¬ s.alive then .next s else
  let dies := s.stack.testing
  if dies = 0 then .next s
  else
    let ps := (List.range 16).filter (fun i => bitN fail.toNat i && bitN dies (i / 8) && s.bit (Reg.tileBondPstat (i / 8) (i % 8)) 0)
    let s := ps.zipIdx.foldl (fun (s : State) x =>
      let i := x.1
      let g := match groups[x.2]? with | some g => g.toNat | none => 0
      let s := (s.putB (Reg.tileBondPstat (i / 8) (i % 8)) 2 true).putF (Reg.tileBondPstat (i / 8) (i % 8)) 10 4 g
      let s := s.portGone (i / 8) (i % 8) 2
      { s with stack := { s.stack with leaving := s.stack.leaving ++ [(i / 8, i % 8)] } }) s
    let s := { s with stack := { s.stack with testing := 0 } }
    .next ((s.putB Reg.tileBondTest 2 false).putB Reg.tileBondTest 3 true)

/-! ### JTAG (R479 to R482)

The base die has the primary test access port and a serial secondary port for each compute die; an instruction reaches the dies in
the chain. The manual gives the boundary-scan register over the balls and the dies' wrapper registers neither a length nor an
order of cells: what they capture is a free value (log 123). -/

/-- Whether a die is present and powered (R480). -/
def State.dieOn (s : State) (d : Nat) : Bool := s.bit (Reg.tileDieStat d) 0

/-- The stack register as it reads back: a bit that names an absent or unpowered die is 0 (R480). -/
def State.selNow (s : State) : Nat :=
  (List.range 2).foldl (fun m d => if bitN s.stack.sel.toNat d && s.dieOn d then m + 2 ^ d else m) 0

/-- The compute dies in the chain, in its order (R480). -/
def State.stackChain (s : State) : List Nat := (List.range 2).filter (bitN s.selNow)

/-- An instruction at the base die's test access port and, through the secondary ports, at the dies in the chain: 0 BYPASS, 1 IDCODE,
2 SAMPLE/PRELOAD, 3 EXTEST, 4 INTEST, 5 STACK_SEL. -/
def State.jtag (s : State) (ir : Nat) : State :=
  { s with stack := { s.stack with
    jtagIr := ir
    dieIr := Vector.ofFn (fun d : Fin 2 => if s.stackChain.contains d.val then ir else s.stack.dieIr[d]) } }

/-- The words captured along the chain. -/
def State.captured (s : State) (ws : List W32) : State := { s with stack := { s.stack with dr := ws } }

/-- BYPASS: one bit, 0, of each die in the chain. -/
def State.bypass (s : State) : State := (s.jtag 0).captured (List.replicate (1 + s.stackChain.length) 0)

/-- The boundary-scan register over the balls captured (R479). -/
def State.scanBalls (s : State) : State :=
  let (b, s) := s.fresh 1
  { s with stack := { s.stack with bscan := Config.freeNat b } }

/-- The wrapper registers of the base die and of the dies in the chain captured over their bond faces (R479). -/
def State.scanWrap (s : State) : State :=
  let (b, s) := s.fresh 3
  { s with stack := { s.stack with
    wrap := Vector.ofFn (fun i : Fin 3 => if i.val = 0 ∨ s.stackChain.contains (i.val - 1) then Config.freeNat (b + i.val) else s.stack.wrap[i]) } }

/-- A test instruction: BYPASS, and counted, unless TESTMODE_N was low at power-on reset (R482). -/
def State.testIr (s : State) (ir : Nat) (act : State → State) : State :=
  if s.gait.testmodeN then s.bypass.count Cnt.tileBondCntRefuse else act (s.jtag ir)

/-- The identification code of a die (R481): revision, part, manufacturer, 1. -/
def idcode (rev part : Nat) : W32 :=
  BitVec.ofNat 32 (2 ^ 28 * (rev % 16) + 2 ^ 12 * part + 2 * Config.jtagMfr.toNat + 1)

/-- JTAG_BYPASS (R479). -/
def execJtagBypass (s : State) : Outcome State Fault Refusal := .next s.bypass

/-- JTAG_IDCODE (R480, R481): the base die, then the selected compute dies. -/
def execJtagIdcode (s : State) : Outcome State Fault Refusal :=
  .next ((s.jtag 1).captured
    (idcode s.install.baseRev.toNat 0x3296 :: s.stackChain.map (fun _ => idcode s.install.cmpRev.toNat 0x32C0)))

/-- JTAG_SAMPLE_PRELOAD (R479): the boundary-scan register captures the balls and the dies' wrapper registers their bond faces, with no
effect on the functional machine. -/
def execJtagSamplePreload (s : State) : Outcome State Fault Refusal := .next (s.jtag 2).scanBalls.scanWrap

/-- JTAG_EXTEST (R482): over the package balls. -/
def execJtagExtest (s : State) : Outcome State Fault Refusal := .next (s.testIr 3 State.scanBalls)

/-- JTAG_INTEST (R482): over the dies' wrapper registers. -/
def execJtagIntest (s : State) : Outcome State Fault Refusal := .next (s.testIr 4 State.scanWrap)

/-- STACK_SEL (R480): the register as it read back is captured and the new value loaded; a bit that names an absent or unpowered die
stays 0. -/
def execStackSel (v : BitVec 2) (s : State) : Outcome State Fault Refusal :=
  let keep := (List.range 2).foldl (fun m d => if bitN v.toNat d && s.dieOn d then m + 2 ^ d else m) 0
  let s := (s.jtag 5).captured [BitVec.ofNat 32 s.selNow]
  .next { s with stack := { s.stack with sel := BitVec.ofNat 2 keep } }

end Sys2Proof.Machine
end

