-- ==== Sys2Proof/Machine/Sci.lean ====
section
/-! DEFINITION. The Cascade Interface below its messages (15_hitch.md R492 to R503, R518): link states, flits, retry, credits and
arbitration, routing, the completion of requests, negotiation records, and the loss of a link. -/

namespace Sys2Proof.Machine

open Host

/-! ### Ports -/

/-- A port's record changed. -/
def State.modSci (s : State) (p : Fin 2) (f : SciPort → SciPort) : State :=
  { s with hitch := { s.hitch with ports := s.hitch.ports.set p (f s.hitch.ports[p]) } }

/-- The link state of a port, Table 15-1. -/
def State.sciSt (s : State) (p : Fin 2) : Nat := s.fld (Reg.sciState p) 3 0

/-- A link state entered, with its GEN. -/
def State.setSciSt (s : State) (p : Fin 2) (v : Nat) : State :=
  if s.sciSt p = v then s
  else
    let w := s.rd (Reg.sciState p)
    (s.put (Reg.sciState p) (putBits (putBits w 3 0 v) 31 16 (bitsN w 31 16 + 1))).modSci p (fun q => { q with entered := s.time })

/-- Buffer of a receiver per VC, in units of 8 bytes (Table 15-5). -/
def vcUnits : Vector Nat 6 := #v[1024, 2048, 1024, 128, 128, 128]

/-- A field of SCI_HITCH_STAT changed, with its GEN. -/
def State.setHitchStat (s : State) (v : Nat) : State :=
  let old := s.rd Reg.sciHitchStat
  if bitsN old 15 0 = v % 2 ^ 16 then s
  else s.put Reg.sciHitchStat (v % 2 ^ 16 + 2 ^ 16 * ((bitsN old 31 16 + 1) % 2 ^ 16))

/-- The member mask changed by `f`. -/
def State.setMembers (s : State) (mask : Nat) : State := s.setHitchStat (putBits (s.fld Reg.sciHitchStat 15 0) 7 4 mask)

/-- The member mask. -/
def State.memberMask (s : State) : Nat := s.fld Reg.sciHitchStat 7 4

/-! ### Message and record layout (Tables 15-4, 15-6) -/

/-- The virtual channel of a message. -/
def SciMsg.vc (m : SciMsg) : Nat := m.op / 16

/-- A message's length in units of 8 bytes. -/
def SciMsg.units (m : SciMsg) : Nat := 2 + m.data.length / 8

/-- Whether a message is a request that has a response. -/
def SciMsg.asks (m : SciMsg) : Bool := m.op == 0x00 || (m.op == 0x01 && m.hdr.ackReq) || m.op == 0x40 || m.op == 0x41

/-- The opcode of the response to a request. -/
def replyOp (op : Nat) : Nat := if op = 0x00 then 0x10 else if op = 0x01 then 0x11 else if op = 0x40 then 0x50 else 0x51

/-- The bytes of a message. -/
def SciMsg.bytes (m : SciMsg) : List Byte :=
  toLe m.op 1 ++ toLe (m.hdr.dst.toNat + 4 * m.hdr.src.toNat + 16 * b2n m.hdr.ackReq) 1 ++ toLe (m.data.length / 8) 1
    ++ toLe m.hdr.size.toNat 1 ++ toLe m.hdr.tag.toNat 2 ++ toLe m.hdr.status.toNat 1 ++ toLe 0 1 ++ toLe m.hdr.operand.toNat 8 ++ m.data

/-- The first message of a byte stream and what follows it; none while it has not come whole. -/
def parseMsg (bs : List Byte) : Option (SciMsg × List Byte) :=
  let n := 8 * bitsN (leAt bs 2 1) 5 0
  if bs.length < 16 + n then none
  else
    let b1 := leAt bs 1 1
    let h : SciHdr := { dst := BitVec.ofNat 2 (bitsN b1 1 0), src := BitVec.ofNat 2 (bitsN b1 3 2), ackReq := bitN b1 4
                        size := BitVec.ofNat 4 (leAt bs 3 1), tag := BitVec.ofNat 16 (leAt bs 4 2)
                        status := BitVec.ofNat 2 (leAt bs 6 1), operand := BitVec.ofNat 64 (leAt bs 8 8) }
    some (⟨bitsN (leAt bs 0 1) 6 0, h, (bs.drop 16).take n⟩, bs.drop (16 + n))

/-- The 64 bytes of a link-control record of a type. -/
def recBytes (ty : Nat) (l : LinkRec) : List Byte :=
  toLe 0x4353 2 ++ toLe l.rev.toNat 1 ++ toLe ty 1 ++ toLe l.vendor.toNat 2 ++ toLe l.device.toNat 2 ++ toLe l.serial.toNat 8
    ++ toLe l.classes.toNat 4 ++ toLe l.maxRead.toNat 1 ++ toLe l.hops.toNat 1 ++ toLe l.outstanding.toNat 2 ++ toLe l.mem.toNat 8
    ++ toLe l.minPeriod.toNat 2 ++ toLe l.maxPeriod.toNat 2 ++ toLe l.number.toNat 1 ++ toLe l.reason.toNat 1 ++ toLe 0 2
    ++ toLe l.agreed.toNat 4 ++ toLe l.agreedRead.toNat 1 ++ toLe 0 3 ++ toLe l.leadTime.toNat 8 ++ toLe l.nextBoundary.toNat 8

/-- A record and its type read from a payload; none where its MAGIC is wrong. -/
def parseRec (bs : List Byte) : Option (Nat × LinkRec) :=
  let f := fun (w o k : Nat) => BitVec.ofNat w (leAt bs o k)
  if leAt bs 0 2 ≠ 0x4353 then none
  else some (leAt bs 3 1,
    { rev := f 8 2 1, vendor := f 16 4 2, device := f 16 6 2, serial := f 64 8 8, classes := f 32 0x10 4, maxRead := f 8 0x14 1
      hops := f 8 0x15 1, outstanding := f 16 0x16 2, mem := f 64 0x18 8, minPeriod := f 16 0x20 2, maxPeriod := f 16 0x22 2
      number := f 8 0x24 1, reason := f 8 0x25 1, agreed := f 32 0x28 4, agreedRead := f 8 0x2C 1, leadTime := f 64 0x30 8
      nextBoundary := f 64 0x38 8 })

/-- This package's own capabilities (Table 15-6): every class, reads of 256 bytes, periods of R31. -/
def State.ownRec (s : State) : LinkRec :=
  { rev := 0x12, vendor := 0x0AED, device := 0x3296, serial := s.install.serial, classes := 0x7F, maxRead := 8, hops := 0
    outstanding := 1024, mem := BitVec.ofNat 64 s.install.ddrBytes, minPeriod := 25, maxPeriod := 200, number := 0, reason := 0
    agreed := 0, agreedRead := 0, leadTime := 0, nextBoundary := 0 }

/-- A link-control record queued at a port. -/
def State.sendRec (s : State) (p : Fin 2) (ty : Nat) (l : LinkRec) : State :=
  s.modSci p (fun q => { q with ctl := q.ctl ++ [recBytes ty l] })

/-! ### Flits (R493 to R496) -/

/-- A flit, Table 15-3. -/
def mkFlit (seq ty ack : Nat) (ackV nak : Bool) (credA credB : Nat) (payload : List Byte) : List Byte :=
  let body := toLe (seq % 4096 + 4096 * ty) 2 ++ toLe (ack % 4096 + 4096 * b2n ackV + 8192 * b2n nak) 2 ++ toLe credA 2
    ++ toLe credB 2 ++ (payload ++ List.replicate 240 0).take 240 ++ toLe 0 4
  body ++ toLe (crc32c body) 4

/-- A credit-return word of a VC. -/
def credWord (v n : Nat) : Nat := if n = 0 then 0 else v + 8 + 16 * min 4095 n

/-- A flit sent: it carries the acknowledgement due and up to two credit returns; a flit that takes a SEQ is kept (R494). -/
def State.putFlit (s : State) (p : Fin 2) (seq ty : Nat) (payload : List Byte) : State :=
  let q := s.hitch.ports[p]
  let due := (List.range 6).filter (fun v => q.owed.toList.getD v 0 ≠ 0)
  let word := fun (o : Option Nat) => match o with | some v => credWord v (q.owed.toList.getD v 0) | none => 0
  let a := due.head?
  let b := (due.drop 1).head?
  let flit := mkFlit seq ty (q.rxNext + 4095) true q.nakDue (word a) (word b) payload
  let pay := fun (v : Nat) => decide (a = some v ∨ b = some v)
  let s := s.modSci p (fun q => { q with
    sent := q.sent ++ [flit], ackDue := false, nakDue := false
    owed := Vector.ofFn (fun i : Fin 6 => if pay i.val then q.owed[i] - min 4095 q.owed[i] else q.owed[i]) })
  s.count64 (Reg.sciCntTxflit p)

/-- A new flit that takes the next SEQ. -/
def State.newFlit (s : State) (p : Fin 2) (ty : Nat) (payload : List Byte) : State :=
  let seq := s.hitch.ports[p].txNext
  let s := s.putFlit p seq ty payload
  let now := s.time
  s.modSci p (fun q => { q with
    txNext := (seq + 1) % 4096, unacked := q.unacked ++ [(seq, ty, payload)]
    since := if q.unacked.isEmpty then now else q.since })

/-- Every flit of the retry buffer sent again (R495). -/
def State.replay (s : State) (p : Fin 2) : State :=
  let s := s.count (Cnt.sciCntReplay p)
  let now := s.time
  let s := s.modSci p (fun q => { q with replays := q.replays + 1, since := now })
  (s.hitch.ports[p].unacked).foldl (fun (s : State) x => s.putFlit p x.1 x.2.1 x.2.2) s

/-! ### Arbitration (R499, R500) -/

/-- The place in the queue of the message a VC would send next, forwarded and local in turn. -/
def SciPort.headOf (q : SciPort) (v : Nat) : Option Nat :=
  let at_ := fun (o : Nat) => q.queue.findIdx? (fun x => x.2.vc == v && x.1 == o)
  let w := q.rr.toList.getD v 0
  match at_ w with
  | some i => some i
  | none => at_ (1 - w)

/-- The same, where credit and the limit of outstanding requests let it go (R499, R501). -/
def SciPort.ready (q : SciPort) (v : Nat) : Option Nat :=
  (q.headOf v).filter (fun i => match q.queue[i]? with
    | some (_, m) => decide (m.units ≤ q.credits.toList.getD v 0) && (!m.asks || decide (q.reqs.length < 1024))
    | none => false)

/-- The VC of a slot of the weighted round-robin 8 : 4 : 1. -/
def wrrVc (k : Nat) : Nat := if k % 13 < 8 then 0 else if k % 13 < 12 then 2 else 4

/-- The VC served next: VC3, then VC1 and VC5 alternating, then VC0, VC2 and VC4; with the arbitration state after. -/
def SciPort.pick (q : SciPort) : Option (Nat × Bool × Nat) :=
  if (q.ready 3).isSome then some (3, q.alt, q.wrr)
  else
    let a := if q.alt then 5 else 1
    if (q.ready a).isSome then some (a, !q.alt, q.wrr)
    else if (q.ready (6 - a)).isSome then some (6 - a, q.alt, q.wrr)
    else ((List.range 13).find? (fun k => (q.ready (wrrVc (q.wrr + k))).isSome)).map (fun k => (wrrVc (q.wrr + k), q.alt, (q.wrr + k + 1) % 13))

/-- Messages taken from the queue at `now` while they fit the retry buffer, as one run of bytes; a request times out 20 µs later
(R501). -/
def SciPort.take (q : SciPort) (now : Nat) : Nat → List Byte → List Byte × SciPort
  | 0, acc => (acc, q)
  | n + 1, acc =>
    match q.pick with
    | none => (acc, q)
    | some (v, alt, wrr) =>
      match q.ready v with
      | none => (acc, q)
      | some i =>
        match q.queue[i]? with
        | none => (acc, q)
        | some (o, m) =>
          if 64 < q.unacked.length + (acc.length + 8 * m.units + 239) / 240 then (acc, q)
          else
            let q := { q with
              queue := q.queue.eraseIdx i, alt := alt, wrr := wrr
              rr := Vector.ofFn (fun k : Fin 6 => if k.val = v then 1 - o else q.rr[k])
              credits := Vector.ofFn (fun k : Fin 6 => if k.val = v then q.credits[k] - m.units else q.credits[k])
              reqs := if m.asks && o == 0 then q.reqs ++ [(⟨m.hdr.tag.toNat, m.op, m.hdr.dst.toNat, now + 20000⟩ : SciReq)] else q.reqs }
            q.take now n (acc ++ m.bytes)

/-- A run of bytes cut into payloads. -/
def payloads : Nat → List Byte → List (List Byte)
  | 0, _ => []
  | n + 1, bs => if bs.isEmpty then [] else bs.take 240 :: payloads n (bs.drop 240)

/-- What a port sends now: link-control flits first, messages while the link is active, else an idle flit where an
acknowledgement or a credit is due. -/
def State.pumpPort (s : State) (p : Fin 2) : State :=
  let st := s.sciSt p
  if st ≠ 6 ∧ st ≠ 7 then s
  else
    let q := s.hitch.ports[p]
    let n := 64 - q.unacked.length
    let s := (q.ctl.take n).foldl (fun (s : State) r => s.newFlit p 2 r) s
    let s := s.modSci p (fun q => { q with ctl := q.ctl.drop n })
    let s := if st = 7 then
        let q := s.hitch.ports[p]
        let (bs, q') := q.take s.time q.queue.length []
        let s := s.modSci p (fun _ => q')
        (payloads (bs.length + 1) bs).foldl (fun (s : State) r => s.newFlit p 0 r) s
      else s
    let q := s.hitch.ports[p]
    let s := if st = 7 && (List.range 6).any (fun v => (q.headOf v).isSome && (q.ready v).isNone) then s.count64 (Reg.sciCntCredwait p) else s
    if q.ackDue || q.nakDue || q.owed.toList.any (· ≠ 0) then s.putFlit p q.txNext 1 [] else s

/-! ### Requests completed (R501, R514, R515, R518) -/

/-- The bytes of a read's response that a load wants, from its place in the 8 bytes asked for. -/
def sliceFor (q : LoadReq) (data : List Byte) : List Byte :=
  if q.len < 8 then ((data ++ List.replicate 8 0).drop (q.addr % 8)).take q.len else (data ++ List.replicate q.len 0).take q.len

/-- A tile's load completed by a response: zeros, with the error bit of its parity, where it is poisoned or was lost (R518); an
address fault where the other member has nothing at the address (R419). -/
def State.loadAnswer (s : State) (t : TileId) (q : LoadReq) (status : Nat) (data : List Byte) : State :=
  if status = 2 then
    let s := s.modTile t (fun tl => { tl with loads := tl.loads.erase q })
    match q.vec with
    | some x => s.hoardFault t x.1 .address q.addr
    | none => s.raiseC t .address q.addr
  else
    let bad := decide (status ≠ 0)
    let s := if bad then s.unitErr (Reg.hrdStat t) q.tag else s
    s.loadLand t q (if bad then List.replicate q.len 0 else sliceFor q data) bad

/-- The same of a request of the Hoard unit. -/
def State.gatherAnswer (s : State) (t : TileId) (q : GatherReq) (status : Nat) (data : List Byte) : State :=
  if status = 2 ∧ ¬ q.drop then
    (if q.form = 7 then s.pfLost t q .address else (s.dropReq t q).hoardFault t q.seq .address (s.reqAddr q + q.got.length))
  else s.answerReq t q (decide (status ≠ 0)) data

/-- The tile that waits for a TAG, with what `f` finds in it. -/
def State.waiterOf {α : Type} (s : State) (f : Tile → Option α) : Option (TileId × α) :=
  (List.finRange 32).findSome? (fun t => (f s.tiles[t]).map (fun x => (t, x)))

/-- A read of this package completed by a response: of a copy channel, a load or a request of a Hoard unit. -/
def State.readDone (s : State) (tag status : Nat) (data : List Byte) : State :=
  let s := { s with copy := s.copy.map (fun (c : CopySt) => c.answer tag status data) }
  match s.waiterOf (fun tl => tl.loads.find? (fun q => q.remote == some tag && q.lost.isNone)) with
  | some (t, q) => s.loadAnswer t q status data
  | none =>
    match s.waiterOf (fun tl => tl.gathers.find? (fun q => q.remote == some tag && q.form != 9 && q.lost.isNone)) with
    | some (t, q) => (s.gatherAnswer t q status data).fillSlots t
    | none => s

/-- The address fault of a write that the other member has no memory for (R419). -/
def State.writeFault (s : State) (tag : Nat) : State :=
  match s.waiterOf (fun tl => tl.sb.find? (fun e => e.tags.contains tag)) with
  | some (t, e) => s.raiseC t .address e.line
  | none =>
    match s.waiterOf (fun tl => tl.scat.find? (fun e => e.tags.contains tag)) with
    | some (t, e) => (s.raise t ⟨.address, (e.parts.headD (0, [])).1⟩ none (some 6)).containWindow t
    | none => s

/-- Entries that wait for an acknowledgement: gone once their last write is acknowledged. -/
def dropTag {α : Type} (tags : α → List Nat) (set : α → List Nat → α) (tag : Nat) (l : List α) : List α :=
  l.filterMap (fun e =>
    if (tags e).contains tag then (if ((tags e).erase tag).isEmpty then none else some (set e ((tags e).erase tag))) else some e)

/-- A remote write completed: the entry that sent it goes once its last write is acknowledged (R514); an HUPD's row is written; a
copy channel's write that failed is a descriptor error (R419). -/
def State.writeDone (s : State) (tag status : Nat) : State :=
  let s := if status = 2 then s.writeFault tag else s
  let s := { s with
    copy := s.copy.map (fun (c : CopySt) =>
      if c.awaits.contains tag then { c with awaits := c.awaits.erase tag, err := if status = 0 then c.err else c.err ||| 1 } else c)
    tiles := s.tiles.map (fun (tl : Tile) => { tl with
      sb := dropTag (·.tags) (fun e l => { e with tags := l }) tag tl.sb
      scat := dropTag (·.tags) (fun e l => { e with tags := l }) tag tl.scat }) }
  let s := match s.waiterOf (fun tl => tl.gathers.find? (fun q => q.remote == some tag && q.form == 9)) with
    | some (t, q) =>
      if q.drop then s.dropReq t q
      else if status = 2 then (s.dropReq t q).hoardFault t q.seq .address (s.reqAddr q)
      else (s.wroteReq t q).fillSlots t
    | none => s
  s.settleAllFences

/-- A broadcast's answer from a member (R516, R517): its value, or none where it did not answer in time. -/
def State.bcastAnswer (s : State) (tag : Nat) (member : Nat) (v : Option Nat) : State :=
  { s with hitch := { s.hitch with bcasts := s.hitch.bcasts.map (fun b =>
    if b.tag = tag ∧ b.waiting.contains member then
      (match v with
       | some x => { b with waiting := b.waiting.erase member, answers := b.answers ++ [(member, x)] }
       | none => b)
    else b) } }

/-- A request of this package completed with a status and data; one that is no longer outstanding is discarded (R501). -/
def State.completeReq (s : State) (p : Fin 2) (tag status src : Nat) (data : List Byte) : State :=
  match s.hitch.ports[p].reqs.find? (fun r => r.tag == tag && r.dst == src) with
  | none => s
  | some r =>
    let s := s.modSci p (fun q => { q with reqs := q.reqs.erase r })
    if r.op = 0x00 then s.readDone tag status data
    else if r.op = 0x01 then (if status = 0 ∨ status = 2 then s else s.count (Cnt.sciCntLost p)).writeDone tag status
    else if status = 0 then s.bcastAnswer tag src (some (leAt data 0 8))
    else s

/-! ### Routing (R500) -/

/-- The port that leads to a package. -/
def State.routeOf (s : State) (n : Nat) : Option (Fin 2) :=
  if bitN (s.rd (Reg.sciRoute 0)) n then some 0 else if bitN (s.rd (Reg.sciRoute 1)) n then some 1 else none

/-- The messages made here handed to their ports; one without a route is dropped and counted, and a request of that kind
completes with STATUS 2 (R500); a write is then lost (R515). -/
def State.routeOutbox (s : State) : State :=
  let ms := s.hitch.outbox
  let s := { s with hitch := { s.hitch with outbox := [] } }
  ms.foldl (fun (s : State) m =>
    let n := m.hdr.dst.toNat
    if n = s.ownPkg then s
    else match s.routeOf n with
      | some p => s.modSci p (fun q => { q with queue := q.queue ++ [(0, m)] })
      | none =>
        let s := s.count (Cnt.sciCntNoroute 0)
        let t := m.hdr.tag.toNat
        if m.op = 0x00 then s.readDone t 2 [] else if m.op = 0x01 then (s.count (Cnt.sciCntLost 0)).writeDone t 2 else s) s

/-- Everything the hitch has to send, sent. -/
def State.sciPump (s : State) : State := (s.routeOutbox.pumpPort 0).pumpPort 1

/-- The answer to a request. -/
def State.replyTo (s : State) (m : SciMsg) (status : Nat) (data : List Byte) : State :=
  let h : SciHdr := { m.hdr with dst := m.hdr.src, src := BitVec.ofNat 2 s.ownPkg, ackReq := false, status := BitVec.ofNat 2 status }
  { s with hitch := { s.hitch with outbox := s.hitch.outbox ++ [⟨replyOp m.op, h, data⟩] } }

/-- A message for another package passed on through the other port; one without a route is dropped and counted, and a request
is answered with STATUS 2. -/
def State.forwardMsg (s : State) (p : Fin 2) (m : SciMsg) : State :=
  let o : Fin 2 := 1 - p
  if bitN (s.rd (Reg.sciRoute o)) m.hdr.dst.toNat then
    (s.modSci o (fun q => { q with queue := q.queue ++ [(1, m)] })).count64 (Reg.sciCntFwd o)
  else
    let s := s.count (Cnt.sciCntNoroute p)
    if m.asks then s.replyTo m 2 [] else s

/-! ### The loss of a link (R518, R519) -/

/-- Members leave the hitch: out of the mask and of every inbox's expected sources; a verdict that waits for one of them counts
its contribution as missing (Table 15-8); the event is logged. -/
def State.detachMask (s : State) (p : Fin 2) (mask serial : Nat) : State :=
  let mask := mask &&& s.memberMask
  if mask = 0 then s
  else
    let s := s.setMembers (s.memberMask - mask)
    let s := (List.range 16).foldl (fun (s : State) t =>
      let w := s.rd (Reg.sciInboxStat t)
      let e := bitsN w 19 16
      s.put (Reg.sciInboxStat t) (putBits w 19 16 (e - (e &&& mask)))) s
    let s := { s with hitch := { s.hitch with members := s.hitch.members.map (fun (m : Member) => if bitN mask m.num then { m with attached := false } else m) } }
    let s := match s.hitch.verdict with
      | none => s
      | some v =>
        let gone := (List.range 4).filter (fun n => bitN mask n && !(s.hitch.contribs.any (fun c => c.member == n && c.frame == v.frame)))
        let s := s.count Cnt.sciCntContribMiss gone.length
        { s with hitch := { s.hitch with contribs := s.hitch.contribs ++ gone.map (fun n => (⟨n, v.frame, 2 ^ 48 - 1, 2 ^ 24 - 1, 1⟩ : Contribution)) } }
    s.logEvent 0x50 pkgUnit 0 (2 + 2 ^ 8 * p.val + 2 ^ 16 * mask + 2 ^ 32 * (serial % 2 ^ 32))

/-- The lead commits a verdict that waits once every member's contribution is there (R509). -/
def State.tryMerge (s : State) : State :=
  match s.hitch.verdict with
  | none => s
  | some v =>
    match s.epoch? v.frame with
    | none => { s with hitch := { s.hitch with verdict := none } }
    | some e =>
      if s.otherMembers.all (fun m => s.hitch.contribs.any (fun c => c.member == m && c.frame == v.frame)) then s.commitMerged e v else s

/-- A wheel that loses members beyond a port tells its lead, one DETACH each (R518). -/
def State.sendDetach (s : State) (p : Fin 2) : State :=
  match s.hitch.up with
  | some u =>
    if u = p then s
    else ((List.range 4).filter (bitN (s.rd (Reg.sciRoute p)))).foldl (fun (s : State) n =>
      s.sendRec u 6 { s.ownRec with serial := 0, number := BitVec.ofNat 8 n }) s
  | none => s

/-- A port goes to DOWN: its requests complete with STATUS 3, and the members beyond it are detached. -/
def State.sciDown (s : State) (p : Fin 2) : State :=
  let s := s.sendDetach p
  let q := s.hitch.ports[p]
  let was := s.sciSt p
  let s := if was = 7 ∨ was = 8 then s.count (Cnt.sciCntDown p) else s
  let s := q.reqs.foldl (fun (s : State) r => s.completeReq p r.tag 3 r.dst []) s
  let s := (q.queue.filter (fun x => x.1 == 0 && x.2.asks)).foldl (fun (s : State) x =>
    if x.2.op = 0x00 then s.readDone x.2.hdr.tag.toNat 3 []
    else if x.2.op = 0x01 then (s.count (Cnt.sciCntLost p)).writeDone x.2.hdr.tag.toNat 3 else s) s
  let serial := match s.hitch.members.find? (fun m => m.port == p && m.attached) with | some m => m.serial | none => 0
  let s := s.detachMask p (s.rd (Reg.sciRoute p)) serial
  let s := if s.hitch.up = some p then
      { (s.setHitchStat (s.fld Reg.sciHitchStat 15 0 - s.fld Reg.sciHitchStat 1 0 - 8 * s.fld Reg.sciHitchStat 3 3 - 16 * s.memberMask)) with
        hitch := { s.hitch with up := none, adopt := none, shifted := false } }
    else s
  let s := ((s.put (Reg.sciRoute p) 0).put (Reg.sciPeerCap p) 0).modSci p (fun x => { SciPort.idle with retrains := x.retrains })
  let s := s.put (Reg.sciState p) (putBits (s.rd (Reg.sciState p)) 15 4 0)
  (s.setSciSt p 0).tryMerge

/-- A port enters RETRAIN; the third entry within 1 s takes it to DOWN (R496). -/
def State.sciRetrain (s : State) (p : Fin 2) : State :=
  let s := s.count (Cnt.sciCntRetrain p)
  let recent := s.hitch.ports[p].retrains.filter (fun t => s.time < t + 1000000000)
  let s := s.modSci p (fun q => { q with retrains := s.time :: recent, replays := 0 })
  if 2 ≤ recent.length then s.sciDown p else s.setSciSt p 8

/-- A write of SCI_CTRL (R492): EN takes the port from DOWN to DETECT, and its clearing takes it to DOWN. -/
def State.sciCtrlWrite (s : State) (p : Fin 2) (v : Nat) : State :=
  let s := s.put (Reg.sciCtrl p) (v % 16)
  if bitN v 0 then (if s.sciSt p = 0 then s.setSciSt p 1 else s)
  else if s.sciSt p = 0 then s else s.sciDown p

end Sys2Proof.Machine
end

