-- ==== Sys2Proof/Machine/Power.lean ====
section
/-! DEFINITION. Supplies and resets (17_gaits.md R556 to R570, R662 to R664): what each reset and each power-down does, and the start of
host core 0. -/

namespace Sys2Proof.Machine

open Host

/-! ### Registers at reset -/

/-- The register words that satisfy `p` back at their reset values. -/
def State.resetRegs (s : State) (p : Nat → Bool) : State :=
  { s with regs := s.regs.filter (fun x => !(p x.1)), written := s.written.filter (fun k => !(p k))
           inForce := s.inForce.filter (fun x => !(p x.1)), forceWritten := s.forceWritten.filter (fun k => !(p k)) }

/-- The register offsets of the base-die units (R664). -/
def isBaseReg (off : Nat) : Bool :=
  (decide (0xC0000 ≤ off) && decide (off < 0x280000)) || (decide (0x1100000 ≤ off) && decide (off < 0x1108000))

/-- The register offsets of a tile slot that its die holds; TILE_STATE, TILE_MGMT_REQ and TILE_MGMT_STAT belong to the tile
scheduler (R222). -/
def isTileReg (t off : Nat) : Bool :=
  decide (off / 0x1000 = 0x1000 + t) && off != Reg.tileState t && off != Reg.tileMgmtReq t && off != Reg.tileMgmtStat t

/-- The registers that a package reset returns to reset in the always-on domain (Table 17-6, R632). -/
def isPkgReg (off : Nat) : Bool :=
  off == Reg.gaitCoreRun || off == Reg.gaitWdog || off == Reg.gaitIdkLock || (decide (0x400 ≤ off) && decide (off < 0x660))

/-- The base-die units after R664: their registers at reset, and everything they hold besides lost. The lit-time accumulators
are in the always-on domain (R106). -/
def State.baseReset (s : State) : State :=
  let s := (s.resetRegs isBaseReg).put Reg.sciHitchStat (4 * b2n s.gait.lead)
  let r := State.reset
  { s with
    ports := s.ports.map (fun (q : PortSt) => { PortSt.reset with litSec := q.litSec, litNow := q.litNow })
    i3c := r.i3c, ingest := r.ingest, drey := r.drey, sched := r.sched, copy := r.copy, shards := [], hitch := HitchSt.reset
    walker := [], frm := { s.frm with nextOpen := none, stopped := false }
    stack := { s.stack with bring := Vector.replicate 2 0, leaving := [], winErrs := [], testing := 0 }
    pcie := { s.pcie with ready := false } }

/-! ### Power-down of the compute dies -/

/-- A tile whose die is reset and powered down: its logic and registers are at reset, the node store and ladder bank are lost,
the tile store stays in retention unless `lost` (R473, Table 13-6). A quarantined or out-of-service tile keeps its
STATE (R592). -/
def State.tileOff (s : State) (t : TileId) (lost : Bool) : State :=
  let s := (s.resetTile t).resetRegs (isTileReg t.val)
  let (b, s) := s.fresh tileStoreBytes
  let s := s.modTile t (fun tl => { tl with
    clocked := false, waking := false, selfTest := false, nodes := [], ladder := [], feat := [], satp := 0, sb := [], scat := [], gathers := []
    store := if lost then [] else tl.store, storeFill := if lost then some b else tl.storeFill
    voids := if lost then [] else tl.voids })
  let st := s.tileState t
  if st = 4 ∨ st = 5 then s else s.setTileState t 0

/-- Both compute dies powered down: no port in service, no die present. -/
def State.diesOff (s : State) (lost : Bool) : State :=
  let s := (List.finRange 32).foldl (fun (s : State) (t : TileId) => s.tileOff t lost) s
  (List.range 2).foldl (fun (s : State) d =>
    let s := (List.range 8).foldl (fun (s : State) p => (s.putB (Reg.tileBondPstat d p) 0 false).putB (Reg.tileBondPstat d p) 1 false) s
    if s.bit (Reg.tileDieStat d) 0 then s.setDieStat d (2 * b2n (s.bit (Reg.tileDieStat d) 1)) else s) s

/-- Burrow memory's contents lost. -/
def State.loseBurrow (s : State) : State :=
  let (b, s) := s.fresh 0x8000000
  { s with mem := { s.mem with cells := s.mem.cells.filter (fun c => decide (0x8000000 ≤ c.1)), burFill := some b
                               bad := s.mem.bad.filter (fun w => decide (0x8000000 ≤ w.1)), soft := s.mem.soft.filter (fun w => decide (0x8000000 ≤ w)) } }

/-- The LPDDR5X contents lost. -/
def State.loseDdr (s : State) : State :=
  let (b, s) := s.fresh (2 ^ 37)
  { s with mem := { s.mem with cells := s.mem.cells.filter (fun c => decide (c.1 < 0x8000000)), ddrFill := some b
                               bad := s.mem.bad.filter (fun w => decide (w.1 < 0x8000000)), soft := s.mem.soft.filter (fun w => decide (w < 0x8000000)) } }

/-- Burrow memory zeroed by the boot ROM (R663). -/
def State.zeroBurrow (s : State) : State :=
  { s with mem := { s.mem with cells := s.mem.cells.filter (fun c => decide (0x8000000 ≤ c.1)), burFill := none
                               bad := s.mem.bad.filter (fun w => decide (0x8000000 ≤ w.1)), soft := s.mem.soft.filter (fun w => decide (0x8000000 ≤ w)) } }

/-- Dirty host-cache lines lost. -/
def State.dropL2 (s : State) : State := { s with mem := { s.mem with l2Dirty := [] } }

/-- Dirty host-cache lines written back (R456). -/
def State.writeBack (s : State) : State :=
  let cs := s.mem.l2Dirty
  { s with mem := cs.foldl (fun (m : Mem) c => m.setByte c.1 c.2) s.mem }

/-! ### Host core 0 (R560, R576, R577, R663) -/

/-- Host core 0 starts: at GAIT_RESUME_VEC, or at the boot ROM, which zeroes burrow memory first where a reset is due it and
opens the fuse window; BOOT_SEL = 1 leaves it in recovery at once. -/
def State.startCore0 (s : State) : State :=
  let v := s.rd64 Reg.gaitResumeVec
  let s : State := if v = 0 && s.gait.zeroDue then (s.zeroBurrow).modGait (fun q => { q with zeroDue := false }) else s
  let s := { s with pcie := { s.pcie with ready := true } }
  s.modGait (fun q => { q with
    core0 := if v ≠ 0 then .at_ v else if q.bootSel = 1 then .recovery else .rom
    bootTried := 0, fuseOpen := q.fuseOpen || v == 0 })

/-! ### The package watchdog's pause (R571) -/

/-- The count left when the watchdog pauses on entry to Stable. -/
def State.wdogPause (s : State) : State :=
  s.modGait (fun q => { q with wdogLeft := q.wdogLeft - (s.time - q.wdogAt), wdogAt := s.time })

/-! ### Resets -/

/-- The live epochs abandoned (R62), as a reset or a supply failure does. -/
def State.abandonAll (s : State) : State := s.frm.live.foldl (fun (s : State) e => s.abandon e) s

/-- The held request of GAIT_REQ dropped. -/
def State.dropHeld (s : State) : State := (s.putB Reg.gaitStat 7 false).modGait (fun q => { q with held := none })

/-- The package reset of Table 17-6. A package in Stable, or on its way up from it, stays there; any other is in Walk. -/
def State.packageReset (s : State) (cause : Nat) : State :=
  let s := s.abandonAll
  let low := s.gaitN = 0
  let s := s.diesOff true
  let s := s.baseReset
  let s := (List.finRange 32).foldl (fun (s : State) (t : TileId) => (s.setTileState t 0).modTile t (fun tl => { tl with mgmt := none })) s
  let s := (s.put Reg.evtQuarStat 0).put Reg.evtOosStat 0
  let s := s.resetRegs (fun off => (List.range 32).any (fun t => off == Reg.tileMgmtReq t || off == Reg.tileMgmtStat t))
  let s := (s.resetRegs isPkgReg).put64 Reg.gaitResumeVec 0
  let s := (s.put Reg.gaitIdkStat 0).put Reg.gaitRstCause cause
  let s : State := if s.gait.idk.isSome then (List.range 16).foldl (fun (s : State) i => s.put (Reg.gaitIdkOut i) 0) s else s
  let s := s.dropHeld
  let s : State := if low then s else (s.setTrans .none false).setGait 1 false
  let s := ((s.loseBurrow).loseDdr).dropL2
  s.modGait (fun q => { q with
    core0 := .reset, inReset := true, fuseOpen := true, wdogOn := false, wdogLeft := 0, idk := none, zeroDue := true })

/-- A failure of the main supply or the reference (R569): Stable, everything in the main and compute domains held
in reset and lost; the next wake is a new one. -/
def State.supplyFail (s : State) : State :=
  let s := s.abandonAll
  let s := s.logEvent 0x61 pkgUnit 0 (1 + 2 * s.gaitN)
  let s := s.diesOff true
  let s := ((s.put64 Reg.gaitResumeVec 0).put Reg.gaitRstCause 4)
  let s := if s.gaitN = 0 then s else s.wdogPause
  let s := (s.setTrans .none false).setGait 0 false
  let s := ((((s.loseBurrow).loseDdr).dropL2).baseReset)
  { s.modGait (fun q => { q with pwrEn := false, refEn := false, pwrRisen := false, refRunning := false, core0 := .reset, mainOff := true, wake := none }) with
    pcie := { s.pcie with ready := false } }

/-- POWER_ON_RESET (R570, R657): everything at reset but what is fused and what memory cannot keep; the package waits for PORST_N
to rise. A die that was at 135 °C at the trip trips again at its first reading. -/
def execPowerOnReset (s : State) : Outcome State Fault Refusal :=
  let (b, s) := s.fresh (2 ^ 38)
  let r := State.reset
  .next { r with
    freeCtr := s.freeCtr, pending := s.pending, rdata := s.rdata, install := s.install
    regs := spSet regReset [] Reg.sciHitchStat (BitVec.ofNat 32 (4 * b2n s.gait.lead))
    inForce := spSet regReset [] Reg.sciHitchStat (BitVec.ofNat 32 (4 * b2n s.gait.lead))
    mem := { r.mem with burFill := some b, ddrFill := some b }
    pcie := { r.pcie with endpoint := s.pcie.endpoint }
    tiles := Vector.ofFn (fun i : Fin 32 => { Tile.reset i.val with storeFill := some (b + 2 ^ 37 + 2 ^ 24 * i.val) })
    gait := { r.gait with porstN := false, lead := s.gait.lead, testmodeN := s.gait.testmodeN, bootSel := s.gait.bootSel, svn := s.gait.svn
                          hot := if s.gait.thermtrip then s.gait.hot else Vector.replicate 3 false } }

/-- PORST_N_RISE (R561, R570, R643): the straps are sampled, which gives the PCI Express role, and the time base starts from 0. -/
def execPorstNRise (lead testmodeN : Bool) (bootSel : BitVec 2) (s : State) : Outcome State Fault Refusal :=
  if s.gait.porstN then .next s
  else
    let s := { s.modGait (fun q => { q with porstN := true, lead := lead, testmodeN := testmodeN, bootSel := bootSel }) with time := 0 }
    let s := s.put Reg.sciHitchStat (4 * b2n lead)
    let s := { s with pcie := { s.pcie with endpoint := decide (bootSel.toNat ≠ 2) } }
    .next (s.put Reg.gaitBootStat (2 ^ 6 * bootSel.toNat + 2 ^ 8 * s.gait.svn.toNat))

/-- RESET_N_ASSERT (R570). -/
def execResetNAssert (s : State) : Outcome State Fault Refusal :=
  if ¬ s.alive then .next s else .next (s.packageReset 1)

/-- A write of GAIT_RST_CTRL (R570): 1 resets the host cores and the L2, 2 the package; another value does nothing. -/
def State.rstCtrl (s : State) (v : Nat) : State :=
  if v % 4 = 1 then
    let s := (s.put Reg.gaitCoreRun 1).put Reg.gaitRstCause 5
    let s := s.dropL2
    if s.gaitN = 0 then s else s.startCore0
  else if v % 4 = 2 then s.packageReset 2
  else s

/-- RESET_WAKE (R662): the wake that ends a power-on or package reset. -/
def execResetWake (s : State) : Outcome State Fault Refusal :=
  if ¬ s.alive ∨ ¬ s.gait.inReset then .next s
  else
    let s := s.modGait (fun q => { q with inReset := false })
    if s.gaitN = 0 then .next (s.wakeTo 0) else .next s.startCore0

end Sys2Proof.Machine
end

