-- ==== Sys2Proof/Machine/Gait.lean ====
section
/-! DEFINITION. Gait requests and transitions (17_gaits.md R552 to R559, R566, R569, 01_machine.md R35, R36), the wake sources, the supply
pins, and the time base's own commands (R561 to R564, R571 to R573, R649). -/

namespace Sys2Proof.Machine

open Host

/-! ### Requests (R555) -/

/-- The gait a request's code names, with Canter counted as Trot: 1 Walk, 2 Trot, 3 Stable. -/
def reqGait (t : Nat) : Nat := if t = 3 then 0 else t

/-- The gait in force for a request's test: Canter counts as Trot. -/
def State.gaitForReq (s : State) : Nat := min 2 s.gaitN

/-- A write of GAIT_REQ: MISM clears; 0 cancels; a target that is the gait in force is applied at once,
during a transition too; any other is held. -/
def State.gaitReqWrite (s : State) (r : ReqId) (v : Nat) : State :=
  let s := (s.put Reg.gaitReq (v &&& 0xFFFF0003)).putB Reg.gaitStat 3 false
  let t := v % 4
  let g := bitsN v 31 16
  if t = 0 ∨ reqGait t = s.gaitForReq then s.dropHeld
  else
    (s.putB Reg.gaitStat 7 true).modGait (fun q => { q with held := some ⟨t, g, s.time, decide (g ≠ s.fld Reg.gaitStat 31 16), r⟩ })

/-- No epoch is live, ingest is off, and no work item is queued or running: the condition of both downward rows of Table 17-1. -/
def State.quiet (s : State) : Bool :=
  !(s.bit Reg.ingCtrl 0) && s.frm.live.isEmpty && !(s.tiles.toList.any Tile.hasWork) && s.sched.kicks.isEmpty && s.sched.untag.isEmpty

/-- The row of Table 17-1 a request to `t` needs next, where that row's condition holds: the transition, and whether it
reaches the target. Stable to Walk has a wake as its only trigger. -/
def State.nextRow (s : State) (t : Nat) (coresIdle : Bool) : Option (Trans × Bool) :=
  let g := s.gaitN
  if g = 1 ∧ t = 2 ∧ s.mayTrot then some (.walkToTrot, true)
  else if g = 2 ∧ t < 2 ∧ s.quiet then some (.trotToWalk, decide (t = 1))
  else if g = 1 ∧ t = 0 ∧ s.quiet ∧ coresIdle then some (.walkToStable, true)
  else none

/-- GAIT_REQUEST_APPLY (R555): the held request's next row, once its condition holds; a request whose GEN has changed is
discarded then. -/
def execGaitRequestApply (coresIdle : Bool) (s : State) : Outcome State Fault Refusal :=
  if ¬ s.alive then .next s else
  match s.gait.held with
  | none => .next s
  | some h =>
    let t := reqGait h.target
    let mism : State := ((s.putB Reg.gaitStat 3 true).logEvent 0x30 pkgUnit (ReqId.source h.req)
      (csOffset Reg.gaitReq + 2 ^ 32 * h.gen + 2 ^ 48 * s.fld Reg.gaitStat 31 16)).dropHeld
    if s.gait.trans ≠ .none then .next s
    else if t = s.gaitForReq then .next (if h.changed then mism else s.dropHeld)
    else match s.nextRow t coresIdle with
      | none => .next s
      | some (tr, last) =>
        if h.changed then .next mism
        else
          let s := if tr = .walkToTrot then s.beginWalkToTrot true else s.setTrans tr true
          .next (if last then s.dropHeld else s)

/-- GAIT_REQUEST_REFUSE (R555): two frame periods after the write, or 400 ms while the frame timer is stopped. -/
def execGaitRequestRefuse (s : State) : Outcome State Fault Refusal :=
  if ¬ s.alive then .next s else
  match s.gait.held with
  | none => .next s
  | some h =>
    let lim := if s.bit Reg.gaitStat 6 then 2 * s.frm.period else 400000000
    let s := s.at_ (h.at_ + lim)
    let s := (s.count Cnt.gaitCntRefuse).logEvent 0x60 pkgUnit 0 (h.target + 4 * s.gaitN + 2 ^ 16 * h.gen)
    .next s.dropHeld

/-! ### Downward transitions -/

/-- A downward transition must turn back once its drain is done: a wake above where it leads is pending (R36), or ingest has
been enabled meanwhile (R557). -/
def State.mustReverse (s : State) : Bool :=
  (match s.gait.wake with
   | some w => decide (1 ≤ w) || s.gait.trans == .walkToStable
   | none => false) || s.bit Reg.ingCtrl 0

/-- The transition turned back from the state it has reached: what was held of its request is dropped, and the wake runs. -/
def State.reverseNow (s : State) : State :=
  let s := (s.setTrans .none false).dropHeld.runWake
  if s.gait.trans = .none ∧ s.gaitN = 1 ∧ s.bit Reg.ingCtrl 0 then s.beginWalkToTrot false else s

/-- DRAIN_COMPLETE (R35, R36). -/
def execDrainComplete (s : State) : Outcome State Fault Refusal :=
  if ¬ s.alive ∨ s.gait.drained ∨ ¬ s.drained then .next s
  else match s.gait.trans with
    | .canterToTrot => .next s.enterTrot
    | .trotToWalk => .next (if s.mustReverse then s.reverseNow else s.modGait (fun q => { q with drained := true }))
    | .walkToStable => .next (if s.mustReverse then s.reverseNow else s.modGait (fun q => { q with drained := true }))
    | _ => .next s

/-- TROT_TO_WALK_DONE (R473): the compute dies are reset and power-gated, their tile stores in retention. -/
def execTrotToWalkDone (s : State) : Outcome State Fault Refusal :=
  if ¬ s.alive ∨ s.gait.trans ≠ .trotToWalk ∨ ¬ s.gait.drained then .next s
  else
    let s := s.diesOff false
    let s := ((s.setGait 1 s.gait.ownMove).setTrans .none false).runWake
    .next (if s.gait.trans = .none ∧ s.bit Reg.ingCtrl 0 then s.beginWalkToTrot false else s)

/-- L2_WRITE_BACK_DONE (R456, R556). -/
def execL2WriteBackDone (s : State) : Outcome State Fault Refusal :=
  if ¬ s.alive ∨ s.gait.trans ≠ .walkToStable ∨ ¬ s.gait.drained ∨ s.gait.wbDone then .next s
  else
    let s := s.writeBack
    .next (if s.mustReverse then s.reverseNow else s.modGait (fun q => { q with wbDone := true }))

/-- WALK_TO_STABLE_DONE (R556, Table 13-6): LPDDR5X in self-refresh, the PLLs stopped, main power and reference off; burrow
memory and the tile stores are lost, LPDDR5X keeps its contents. -/
def execWalkToStableDone (s : State) : Outcome State Fault Refusal :=
  if ¬ s.alive ∨ s.gait.trans ≠ .walkToStable ∨ ¬ s.gait.wbDone then .next s
  else
    let s := (s.diesOff true).loseBurrow.wdogPause
    let s := s.modGait (fun q => { q with pwrEn := false, refEn := false, refRunning := false, pwrRisen := false, core0 := .reset, mainOff := true })
    let s := { s with pcie := { s.pcie with ready := false } }
    .next ((s.setGait 0 s.gait.ownMove).setTrans .none false).runWake

/-! ### Stable to Walk (R558, R559) -/

/-- STABLE_TO_WALK_DONE: the base-die units' registers are at reset (R664), host core 0 fetches, Walk is reached. -/
def execStableToWalkDone (s : State) : Outcome State Fault Refusal :=
  if ¬ s.alive ∨ s.gait.trans ≠ .stableToWalk ∨ ¬ s.gait.pwrRisen ∨ s.gait.inReset then .next s
  else
    let s := if s.gait.mainOff then s.baseReset else s
    let s := s.modGait (fun q => { q with mainOff := false, wdogAt := s.time, wake := q.wake.filter (fun w => decide (1 ≤ w)) })
    let s := (s.setGait 1 s.gait.ownMove).setTrans .none false
    .next s.startCore0.runWake

/-- PWR_GOOD_MAIN_RISE: main power is up, and the reference with it. -/
def execPwrGoodMainRise (s : State) : Outcome State Fault Refusal :=
  if ¬ s.alive then .next s else
  .next (s.modGait (fun q => { q with pwrGood := true, pwrRisen := q.pwrEn, refRunning := q.refEn }))

/-- PWR_GOOD_MAIN_TIMEOUT (R559): 1 ms without main power; the package stays in Stable and retries at the next wake. -/
def execPwrGoodMainTimeout (s : State) : Outcome State Fault Refusal :=
  if ¬ s.alive ∨ s.gait.trans ≠ .stableToWalk ∨ s.gait.pwrRisen then .next s
  else
    let s := (s.count Cnt.gaitCntPwrfail).logEvent 0x61 pkgUnit 0 (2 * s.gaitN)
    .next ((s.setTrans .none false).modGait (fun q => { q with pwrEn := false, wake := none }))

/-- PWR_GOOD_MAIN_FALL (R559, R569): before it has risen nothing but the pin changes. -/
def execPwrGoodMainFall (s : State) : Outcome State Fault Refusal :=
  if ¬ s.alive then .next s else
  let up := s.gait.pwrEn && s.gait.pwrRisen
  let s := s.modGait (fun q => { q with pwrGood := false })
  .next (if up then s.supplyFail else s)

/-- REF_CLOCK_LOSS (R657). -/
def execRefClockLoss (s : State) : Outcome State Fault Refusal :=
  if ¬ s.alive ∨ ¬ (s.gait.pwrEn && s.gait.pwrRisen) then .next s
  else .next (s.modGait (fun q => { q with refRunning := false })).supplyFail

/-! ### Wake sources (Table 17-4) -/

/-- CAN_WAKE_N_FALL. -/
def execCanWakeNFall (s : State) : Outcome State Fault Refusal :=
  if ¬ s.alive then .next s else .next (s.wakeEvent 1)

/-- GPIO_WAKE_EDGE: an edge that GAIT_WAKE_GPIO enables. -/
def execGpioWakeEdge (n : Fin 4) (rising : Bool) (s : State) : Outcome State Fault Refusal :=
  if s.alive ∧ s.bit Reg.gaitWakeGpio n.val ∧ s.bit Reg.gaitWakeGpio (4 + n.val) = rising then .next (s.wakeEvent 2) else .next s

/-- WAKE_TIME_REACHED (R566): one event for each non-zero write of GAIT_WAKE_TIME. -/
def execWakeTimeReached (s : State) : Outcome State Fault Refusal :=
  if ¬ s.alive ∨ ¬ s.gait.wakeArmed then .next s
  else .next (s.at_ (s.rd64 Reg.gaitWakeTime)).wakeTimer

/-- PERST_N_RISE: a wake source in the endpoint role only. -/
def execPerstNRise (s : State) : Outcome State Fault Refusal :=
  if s.alive ∧ s.pcie.endpoint then .next (s.wakeEvent 4) else .next s

/-! ### The time base (R561 to R564, R649) -/

/-- XTAL_CALIBRATE (R561): the measurement of a second in which crystal edges come. -/
def execXtalCalibrate (corr : Int) (s : State) : Outcome State Fault Refusal :=
  if ¬ s.alive ∨ s.bit Reg.gaitStat 5 then .next s else .next (s.modGait (fun q => { q with corr := some corr }))

/-- XTAL_FAIL (R561). -/
def execXtalFail (s : State) : Outcome State Fault Refusal :=
  if ¬ s.alive ∨ s.bit Reg.gaitStat 5 then .next s else .next ((s.putB Reg.gaitStat 5 true).logEvent 0x63 pkgUnit 0 0)

/-- XTAL_EDGES_RETURN (R561): the correction stays as it last was until the next measurement. -/
def execXtalEdgesReturn (s : State) : Outcome State Fault Refusal :=
  if ¬ s.alive then .next s else .next (s.putB Reg.gaitStat 5 false)

/-- The instants a tile's timers count from, moved. -/
def Tile.shift (tl : Tile) (mv : Nat → Nat) : Tile :=
  { tl with
    cycFrom := mv tl.cycFrom, idleSince := mv tl.idleSince, lastRetire := mv tl.lastRetire
    loads := tl.loads.map (fun q => { q with lost := q.lost.map mv }), gathers := tl.gathers.map (fun q => { q with lost := q.lost.map mv }) }

/-- The same of an SCI port. -/
def SciPort.shift (q : SciPort) (mv : Nat → Nat) : SciPort :=
  { q with
    entered := mv q.entered, since := mv q.since, retrains := q.retrains.map mv
    reqs := q.reqs.map (fun r => { r with due := mv r.due }) }

/-- A write of GAIT_TIME_SET (R562): the time base and the next boundary move by the signed step; ignored and logged while
ingest is on or an epoch is live. Timers that measure elapsed time keep doing so: the instants they count from move too. -/
def State.timeSet (s : State) (step : Nat) : State :=
  if s.bit Reg.ingCtrl 0 || !s.frm.live.isEmpty then s.logEvent 0x64 pkgUnit 0 1
  else
    let mv := fun (t : Nat) => (t + step) % 2 ^ 64
    let mvT := fun (t : Nat) => ((t : Int) + (if step < 2 ^ 63 then (step : Int) else (step : Int) - 2 ^ 64)).toNat
    ({ s with
      time := mv s.time, frm := { s.frm with nextB := mv s.frm.nextB, perWrite := mvT s.frm.perWrite }
      tiles := s.tiles.map (fun (tl : Tile) => tl.shift mvT)
      sched := { s.sched with wakes := s.sched.wakes.map (fun w => (mvT w.1, w.2)) }
      stack := { s.stack with startT := mvT s.stack.startT, holdT := s.stack.holdT.map mvT }
      hitch := { s.hitch with
        ports := s.hitch.ports.map (fun (q : SciPort) => q.shift mvT)
        bcasts := s.hitch.bcasts.map (fun (b : Bcast) => { b with until_ := mvT b.until_ }) }
      gait := { s.gait with wdogAt := mvT s.gait.wdogAt, held := s.gait.held.map (fun h => { h with at_ := mvT h.at_ }) } } : State).wakeTimer

/-- A write of GAIT_FRM_START (R563, R564). -/
def State.frmStart (s : State) : State :=
  let o := s.rd64 Reg.gaitFrmOrigin
  if !s.gait.lead || s.bit Reg.gaitStat 6 then s.logEvent 0x64 pkgUnit 0 3
  else if o < s.time + 100000 then s.logEvent 0x64 pkgUnit 0 2
  else
    (s.putB Reg.gaitStat 6 true).modFrm (fun f => { f with atOrigin := true, nextB := o, period := 1000 * s.rd Reg.gaitFrmPeriod })

/-- Whether the vehicle's time is the source of the time base (R77): the source bit in force, but not on a wheel, which follows its
lead (R505). -/
def State.vehicleTime (s : State) : Bool := bitN (s.force Reg.portGtimeCtrl) 4 && s.hitch.up.isNone

/-- The time base steered to an edge of the pulse per second, which marks the nearest whole second (log 126): by a step where it is
off by at most 1 µs, else by a slew (R77). -/
def State.steer (s : State) : State :=
  let r := s.time % 1000000000
  let e : Int := if r < 500000000 then -(r : Int) else 1000000000 - (r : Int)
  if -1000 ≤ e ∧ e ≤ 1000 then { s.modGait (fun q => { q with slew := 0 }) with time := ((s.time : Int) + e).toNat }
  else s.modGait (fun q => { q with slew := e })

/-- PPS_IN_EDGE (R77, R649): the edge is timestamped, and with the vehicle as the source it steers the time base; the pin lies on a main
rail. -/
def execPpsInEdge (s : State) : Outcome State Fault Refusal :=
  if ¬ s.alive ∨ s.gaitN = 0 then .next s
  else
    let s := s.modGait (fun q => { q with ppsIn := some s.time })
    .next (if s.vehicleTime then s.steer else s)

/-- PPS_OUT_SECOND (R649): PPS_OUT rises at the next whole second of the time base, in Walk and above. -/
def execPpsOutSecond (s : State) : Outcome State Fault Refusal :=
  if ¬ s.alive ∨ s.gaitN = 0 then .next s
  else
    let t := (s.time + 999999999) / 1000000000 * 1000000000
    .next ((s.at_ t).modGait (fun q => { q with ppsOut := some t }))

/-! ### Watchdog and temperature (R571 to R573) -/

/-- A write of GAIT_WDOG (R571). -/
def State.wdogWrite (s : State) (ms : Nat) : State :=
  if s.gait.wdogOn ∨ ms = 0 then s
  else
    let v := min 10000 ms
    (s.put Reg.gaitWdog v).modGait (fun q => { q with wdogOn := true, wdogLeft := 1000000 * v, wdogAt := s.time })

/-- A write of GAIT_WDOG_KICK: the count starts again. -/
def State.wdogKick (s : State) : State :=
  s.modGait (fun q => { q with wdogLeft := 1000000 * s.rd Reg.gaitWdog, wdogAt := s.time })

/-- PACKAGE_WATCHDOG_EXPIRY (R571): the count does not run in Stable. -/
def execPackageWatchdogExpiry (s : State) : Outcome State Fault Refusal :=
  if ¬ s.alive ∨ ¬ s.gait.wdogOn ∨ s.gaitN = 0 then .next s
  else
    let s := s.at_ (s.gait.wdogAt + s.gait.wdogLeft)
    .next ((s.logEvent 0x65 pkgUnit 0 (s.fld Reg.gaitWdog 13 0)).packageReset 3)

/-- One die's reading (R572): the warning crossing, counted and logged. -/
def State.tempOne (s : State) (k : Fin 3) (unit v : Nat) : State :=
  let thr := 4 * (s.rd Reg.gaitTwarn + 64)
  let s := if thr ≤ v ∧ s.gait.armed[k] then
      ((s.count Cnt.gaitCntTwarn).logEvent 0x62 unit 0 v).modGait (fun q => { q with armed := q.armed.set k false })
    else s
  if v + 8 ≤ thr then s.modGait (fun q => { q with armed := q.armed.set k true }) else s

/-- TEMP_SAMPLE (R572, R573): readings in units of 0.25 °C above −64 °C; the second in a row at 135 °C or above trips. -/
def execTempSample (base c0 c1 : BitVec 10) (s : State) : Outcome State Fault Refusal :=
  if ¬ s.alive then .next s else
  let vs : Vector Nat 3 := #v[base.toNat, c0.toNat, c1.toNat]
  let s := s.put Reg.gaitTemp (vs[0] + 2 ^ 10 * vs[1] + 2 ^ 20 * vs[2])
  let s := s.putB Reg.gaitStat 4 (vs.toList.any (fun v => decide (4 * (s.rd Reg.gaitTwarn + 64) ≤ v)))
  let s := ((s.tempOne 0 pkgUnit vs[0]).tempOne 1 0 vs[1]).tempOne 2 1 vs[2]
  let trip := (List.finRange 3).any (fun k => s.gait.hot[k] && decide (796 ≤ vs[k]))
  .next (s.modGait (fun q => { q with hot := vs.map (fun v => decide (796 ≤ v)), thermtrip := trip }))

end Sys2Proof.Machine
end

