-- ==== Sys2Proof/Machine/Boot.lean ====
section
/-! DEFINITION. Secure boot of host core 0 (17_gaits.md R574 to R578) and the identity-key service (R579, R580). -/

namespace Sys2Proof.Machine

open Host

/-! ### Boot images (Tables 17-7 and 17-8) -/

/-- The first check of Table 17-8 an image fails, as its code; 0 where it passes all. `img` is the header and what follows
it; in recovery the load offset must be 0x100 (R577, under check 2). -/
def State.imageCode (s : State) (img : List Byte) (recovery : Bool) : Nat :=
  let z := fun (o n : Nat) => decide (leAt img o n = 0)
  let len := leAt img 8 4
  let load := leAt img 0xC 4
  let entry := leAt img 0x10 8
  let slot := leAt img 0x1C 1
  let key := (img.drop 0x20).take 64
  if ¬ (leAt img 0 4 = 0x54424453 ∧ leAt img 4 4 = 1 ∧ z 0x1D 3 ∧ z 0xC0 64) then 1
  else if ¬ (len ≤ 33554176 ∧ load + len ≤ 0x4000000 ∧ load ≤ entry ∧ entry < load + len ∧ (recovery → load = 0x100)) then 2
  else if ¬ (slot < 4) ∨ Config.keyRevoked slot ∨ beNat (sha256 key) ≠ Config.keyHash slot then 3
  else if leAt img 0x18 4 < s.gait.svn.toNat then 4
  else if sha256 ((img.drop 0x100).take len) ≠ (img.drop 0x60).take 32 then 5
  else if ecdsaVerify (beNat (key.take 32)) (beNat (key.drop 32)) (sha256 (img.take 0x80))
      (beNat ((img.drop 0x80).take 32)) (beNat ((img.drop 0xA0).take 32)) then 0
  else 6

/-- A failed check recorded in GAIT_BOOT_STAT. -/
def State.bootFail (s : State) (code : Nat) : State := s.putF Reg.gaitBootStat 3 0 code

/-- An accepted image (R576): the fuse window closes and host core 0 starts at the entry point, cores 1 to 7 in reset. -/
def State.bootStart (s : State) (entry : Nat) (slotB recovery : Bool) : State :=
  let s := (s.putB Reg.gaitBootStat 4 slotB).putB Reg.gaitBootStat 5 recovery
  (s.put Reg.gaitCoreRun 1).modGait (fun q => { q with core0 := .at_ entry, fuseOpen := false })

/-- The slot the ROM tries next: the one GAIT_BOOT_HINT names first, then the other. -/
def State.bootSlot (s : State) : Bool := s.bit Reg.gaitBootHint 0 != decide (s.gait.bootTried ≠ 0)

/-- BOOT_IMAGE_CHECK (R574, R575): the ROM reads the next xSPI slot and checks its image, reading the body into burrow memory
once the header's checks have passed; after both slots it goes to recovery, or with BOOT_SEL = 2 to WFI. -/
def execBootImageCheck (slotB readError : Bool) (image : List Byte) (s : State) : Outcome State Fault Refusal :=
  if ¬ s.alive ∨ s.gait.core0 ≠ .rom ∨ slotB ≠ s.bootSlot then .next s
  else
    let code := if readError then 7 else s.imageCode image false
    let len := leAt image 8 4
    let s := if code = 0 ∨ code = 5 ∨ code = 6 then s.memWrite (leAt image 0xC 4) ((image.drop 0x100).take len) else s
    if code = 0 then .next (s.bootStart (leAt image 0x10 8) slotB false)
    else
      let last := decide (s.gait.bootTried ≠ 0)
      .next ((s.bootFail code).modGait (fun q => { q with
        bootTried := q.bootTried + 1, core0 := if !last then .rom else if q.bootSel = 2 then .wfi else .recovery }))

/-- A write of GAIT_BOOT_DOORBELL (R577): in recovery the ROM checks the image in burrow memory, header at 0 and body after
it. -/
def State.doorbell (s : State) : State :=
  if s.gait.core0 ≠ .recovery then s
  else
    let len := leAt (s.mem.bytes 8 4) 0 4
    let img := s.mem.bytes 0 (0x100 + (if len ≤ 33554176 then len else 0))
    let code := s.imageCode img true
    if code = 0 then s.bootStart (leAt img 0x10 8) (s.bit Reg.gaitBootStat 4) true else s.bootFail code

/-- A write of GAIT_SVN_ADV (R578): the fused count rises, or the write is ignored and logged (the spec gives that event no
code or data: free values, log 40). -/
def State.svnAdv (s : State) (v : Nat) : State :=
  if v ≤ s.gait.svn.toNat ∨ 63 < v then
    let (c, s) := s.freeBits 16
    let (d, s) := s.freeBits 64
    s.logEvent c pkgUnit 0 d
  else (s.modGait (fun q => { q with svn := BitVec.ofNat 6 v })).putF Reg.gaitBootStat 13 8 v

/-! ### The identity-key service (R580) -/

/-- A write of GAIT_IDK_CMD: 1 SIGN, 2 ECDH. Ignored while locked or busy (log 41); the input is sampled and GAIT_IDK_OUT is
zero until the command ends. -/
def State.idkCmd (s : State) (v : Nat) : State :=
  if (v ≠ 1 ∧ v ≠ 2) ∨ s.bit Reg.gaitIdkStat 3 ∨ s.gait.idk.isSome then s
  else
    let inp := (List.range 16).map (fun i => BitVec.ofNat 32 (s.rd (Reg.gaitIdkIn i)))
    let s := (List.range 16).foldl (fun (s : State) i => s.put (Reg.gaitIdkOut i) 0) s
    (s.putF Reg.gaitIdkStat 2 0 1).modGait (fun q => { q with idk := some (v, inp) })

/-- Bytes written to GAIT_IDK_OUT from its first. -/
def State.idkOut (s : State) (bs : List Byte) : State :=
  (List.range 16).foldl (fun (s : State) i => s.put (Reg.gaitIdkOut i) (leAt bs (4 * i) 4)) s

/-- IDK_COMMAND_DONE: r and s, or Z, big-endian; a peer point off the curve sets the error bit and leaves zeros. -/
def execIdkCommandDone (s : State) : Outcome State Fault Refusal :=
  if ¬ s.alive then .next s else
  match s.gait.idk with
  | none => .next s
  | some (cmd, inp) =>
    let bs := inp.flatMap (fun w => toLe w.toNat 4)
    let s := s.modGait (fun q => { q with idk := none })
    let fin := fun (s : State) (err : Bool) => s.putF Reg.gaitIdkStat 2 0 (2 + 4 * b2n err)
    if cmd = 1 then
      let (r, sg) := ecdsaSign Config.idkPrivate (bs.take 32)
      .next (fin (s.idkOut (toBe r 32 ++ toBe sg 32)) false)
    else
      let x := beNat (bs.take 32)
      let y := beNat (bs.drop 32)
      if ¬ onCurve x y then .next (fin s true)
      else match ecMul Config.idkPrivate (x, y) with
        | some (zx, _) => .next (fin (s.idkOut (toBe zx 32)) false)
        | none => .next (fin s true)

/-- A write of GAIT_IDK_LOCK: 1 locks the service until package reset. -/
def State.idkLock (s : State) (v : Nat) : State :=
  if v % 2 = 1 then (s.put Reg.gaitIdkLock 1).putB Reg.gaitIdkStat 3 true else s

end Sys2Proof.Machine
end

