-- ==== Sys2Proof/Machine/FrameCmds.lean ====
section
/-! DEFINITION. The events of the frame (02_frame.md), of ingest (04_ingest.md) and of Drey (05_drey.md), but for the boundary itself. -/

namespace Sys2Proof.Machine

open Host

/-- LATE_ARRIVAL_WINDOW_CLOSE (R51, R90, R133, R178, R180): the window of the older closed frame whose window is open ends;
with ride-ahead every sector still open, and every reopened one, closes. -/
def execLateArrivalWindowClose (s : State) : Outcome State Fault Refusal :=
  if ¬ s.alive then .next s else
  match s.frm.live.find? (fun e => e.closed && !e.lateDone) with
  | none => .next s
  | some e =>
    let s := s.at_ (e.closeT + e.lateWin)
    let s := s.modEpoch e.frame (fun e => { e with lateDone := true })
    let s := if e.ride && e.rein == Rein.none then s.closeAllSectors (e.frame % 2) else s
    .next s.tryPromote

/-- POSE_DEADLINE (R49): the deadline of a closed frame passes with no corrected pose accepted. -/
def execPoseDeadline (s : State) : Outcome State Fault Refusal :=
  if ¬ s.alive then .next s else
  match s.frm.live.find? (fun e => e.closed && e.decision == Decision.open) with
  | none => .next s
  | some e =>
    let s := s.at_ (e.closeT + e.poseDl)
    let s := s.modEpoch e.frame (fun e => { e with decision := .unconfirmed })
    .next s.tryPromote

/-- A corrected pose submitted (R130 to R134): the fields as they stand, for the most recently closed frame. A delivery after the
frame's deadline is late, also where its epoch has retired. One before the deadline of a frame whose decision R61 has already
taken, or whose epoch is not live, is dropped and counted nowhere (log 82). -/
def State.cposeGo (s : State) : State :=
  let f := s.rd Reg.ingCposeFrame
  if s.frm.lastClosed ≠ some f then s.count Cnt.ingCntCposeFrm
  else if s.frm.cposeDone then s.count Cnt.ingCntCposeDup
  else
    let e? := s.epoch? f
    let expired : Bool := match e? with
      | some e => e.decision == Decision.unconfirmed
      | none => false
    if s.frm.cposeDl < s.time ∨ (expired ∧ s.frm.cposeDl = s.time) then s.count Cnt.ingCntCposeLate
    else match e? with
    | none => s
    | some e =>
      if e.decision ≠ Decision.open then s
      else
        let t := fun (k : Nat) => ((sint 32 (s.rd (Reg.ingCposeT k)) : Int) : Rat)
        let q := fun (k : Nat) => ((sint 32 (s.rd (Reg.ingCposeQ k)) : Int) : Rat) / 2 ^ 30
        let c : Motion := ⟨⟨t 0, t 1, t 2⟩, ⟨q 0, q 1, q 2, q 3⟩⟩
        let d := s.deltaOf e c
        let (ok, s) := s.tolerance e d
        let s := (s.modFrm (fun fr => { fr with cposeDone := true })).modEpoch f (fun e => { e with
          cpose := some c, delta := d, decision := if ok then .passed else .failed
          rein := if !ok && e.ride then .wait else e.rein })
        s.tryPromote

/-- REIN_BACK_START (R54 to R58, R146): step 1 for the epoch whose test failed, once its late-arrival window has closed; the
tiles holding work or state under the epoch are named. -/
def execReinBackStart (s : State) : Outcome State Fault Refusal :=
  if ¬ s.alive then .next s else
  match s.frm.live.find? (fun e => e.rein == Rein.wait && e.lateDone) with
  | none => .next s
  | some e =>
    let f := e.frame
    let ts := (List.finRange 32).filter (fun t => s.tiles[t].seen.contains f || s.tiles[t].items.any (fun w => w.frame == some f))
    let s := (s.ingestFlush f).count Cnt.ingCntRein
    .next ((s.count Cnt.dreyCntRein).modEpoch f (fun e => { e with rein := .run ts false false, reined := true }))

/-- A step of a rein-back reported done. -/
def Rein.hoard (r : Rein) : Rein := match r with | .run ts _ d => .run ts true d | r => r
/-- Step 4 of a rein-back reported done. -/
def Rein.drey (r : Rein) : Rein := match r with | .run ts h _ => .run ts h true | r => r
/-- Whether a rein-back runs its steps 2 to 4. -/
def Rein.running (r : Rein) : Bool := match r with | .run _ _ _ => true | _ => false

/-- EPOCH_REIN_RECEIVE (R209): the scheduler's EPOCH.REIN reaches a tile it was issued to. -/
def execEpochReinReceive (t : TileId) (tag : BitVec 8) (s : State) : Outcome State Fault Refusal :=
  if ¬ s.alive then .next s else
  match s.frm.live.find? (fun e => e.frame % 256 == tag.toNat && (match e.rein with | .run ts _ _ => ts.contains t | _ => false)) with
  | none => .next s
  | some e => .next ((s.reinTile t e.frame).modEpoch e.frame (fun e => { e with rein := e.rein.dropTile t }))

/-- HOARD_SCATTER_DISCARD (Table 02-4 step 3, R316): staged scatter entries of the epoch that have not been accepted go. -/
def execHoardScatterDiscard (s : State) : Outcome State Fault Refusal :=
  if ¬ s.alive then .next s else
  match s.frm.live.find? (fun e => e.rein.running) with
  | none => .next s
  | some e =>
    let g := e.frame % 256
    let s := { s with tiles := s.tiles.map (fun (tl : Tile) => { tl with scat := tl.scat.filter (fun x => x.tag != some g || x.accepted) }) }
    .next (s.modEpoch e.frame (fun e => { e with rein := e.rein.hoard })).settleAllFences

/-- DREY_EPOCH_INVALIDATE (R184). -/
def execDreyEpochInvalidate (s : State) : Outcome State Fault Refusal :=
  if ¬ s.alive then .next s else
  match s.frm.live.find? (fun e => e.rein.running) with
  | none => .next s
  | some e => .next ((s.dreyInvalidate e.frame).modEpoch e.frame (fun e => { e with rein := e.rein.drey }))

/-- REIN_BACK_RELEASE (R55, R135): with steps 2 to 4 complete the scheduler releases ingest; every item of the epoch waits
again. -/
def execReinBackRelease (s : State) : Outcome State Fault Refusal :=
  if ¬ s.alive then .next s else
  match s.frm.live.find? (fun e => e.rein == Rein.run [] true true) with
  | none => .next s
  | some e =>
    let s := s.modEpoch e.frame (fun e => { e with rein := .rerun, items := [], lostSect := 0, uncovSect := 0, clusterLost := false, clusterUncov := false })
    .next (s.markUnserved e.frame).tryPromote

/-- COMMIT (R68, R526). -/
def execCommit (s : State) : Outcome State Fault Refusal :=
  if ¬ s.alive then .next s else .next s.commitNow

/-- INGEST_RETURN (R139). -/
def execIngestReturn (s : State) : Outcome State Fault Refusal :=
  if ¬ s.alive then .next s else .next s.ingestOne.tryPromote

/-- POSE_WAIT_EXPIRY (R126): the first held return reaches ING_POSE_WAIT and is extrapolated. -/
def execPoseWaitExpiry (s : State) : Outcome State Fault Refusal :=
  if ¬ s.alive then .next s else
  match s.ingest.waiting with
  | [] => .next s
  | h :: _ =>
    let w := match s.epoch? h.frame with | some e => regN e.conf Reg.ingPoseWait * 100000 | none => 0
    .next ((s.at_ (h.since + w)).takeHeld h).tryPromote

/-- DREY_INSERT (R164). -/
def execDreyInsert (s : State) : Outcome State Fault Refusal :=
  if ¬ s.alive then .next s else .next s.dreyInsertOne.tryPromote

/-- SECTOR_CLOSE (R178): with ride-ahead at the sector's close time, or once the late-arrival window has ended; without it,
and on a rerun, once the epoch's inserts have ended. -/
def execSectorClose (parity : Bool) (sct : SectId) (s : State) : Outcome State Fault Refusal :=
  if ¬ s.alive then .next s else
  let p := b2n parity
  match s.epochOfParity p with
  | none => .next s
  | some e =>
    if s.sectClosed p sct then .next s
    else if e.ride && e.rein != Rein.rerun then
      let t := e.openT + regN e.conf (Reg.dreySectClose sct) * 100000
      if e.lateDone then .next (s.closeSector p sct)
      else if t < e.closeT ∧ ¬ s.sectReopened p sct then .next ((s.at_ t).closeSector p sct)
      else .next s
    else if e.closed && e.lateDone && e.mayDeskew && s.passEnded e then .next (s.closeSector p sct)
    else .next s

/-- KERNEL_MAP_GENERATE (R179): Drey starts a sector's lists once it and both neighbours have closed. -/
def execKernelMapGenerate (parity : Bool) (sct : SectId) (s : State) : Outcome State Fault Refusal :=
  if ¬ s.alive then .next s else
  let p := b2n parity
  match s.epochOfParity p with
  | none => .next s
  | some e =>
    let k := sct.val
    let near := [(k + 7) % 8, k, (k + 1) % 8]
    if s.bit Reg.dreyCtrl 0 && near.all (s.sectClosed p) && !(bitN e.kmBusy k) && !e.rein.running then
      .next (s.modEpoch e.frame (fun e => { e with kmBusy := e.kmBusy ||| 2 ^ k }))
    else .next s

/-- KERNEL_MAP_READY (R174 to R179, R453): the lists are written, then the sector's ready bits are set. Where the region
cannot hold its header table nothing is written (R177). -/
def execKernelMapReady (parity : Bool) (sct : SectId) (s : State) : Outcome State Fault Refusal :=
  if ¬ s.alive then .next s else
  let p := b2n parity
  match s.epochOfParity p with
  | none => .next s
  | some e =>
    if ¬ bitN e.kmBusy sct then .next s
    else
      let small := e.isUnset Reg.dreyKmSize 2 || decide (regN64 e.conf Reg.dreyKmSize / 65536 * 65536 < 131072)
      let s := if small then s else s.writeSector e.frame sct
      let s := s.modEpoch e.frame (fun e => { e with kmBusy := putBits e.kmBusy sct sct 0 })
      .next (if small then s else s.setReady p sct e.kdMask true)

/-- DREY_RETIREMENT_SCAN_END (R186). -/
def execDreyRetirementScanEnd (s : State) : Outcome State Fault Refusal :=
  if ¬ s.alive then .next s else
  .next { s with drey := { s.drey with scanning := none } }

/-- DREY_REPARTITION (R161): once every epoch before the first one of the new split has retired, its entries freed, the new split is in
force. -/
def execDreyRepartition (s : State) : Outcome State Fault Refusal :=
  if ¬ s.alive then .next s else
  match s.drey.wantSplit with
  | [] => .next s
  | (f, v) :: rest =>
    if s.frm.live.all (fun e => frameFrom f e.frame) ∧ s.drey.scanning.isNone then
      .next { s with drey := { s.drey with split := v, wantSplit := rest } }
    else .next s

end Sys2Proof.Machine
end

