-- ==== Sys2Proof/Machine/RegWrite.lean ====
section
/-! DEFINITION. The write of one 32-bit word of a register (19_registers.md R623): the generic effect of its access code (R11, Table
00-3), and the range, condition or action its own row or rule states. A 64-bit write is its low word, then its high
word; what a 64-bit register's row attaches to a write happens at the high word (R623). -/

namespace Sys2Proof.Machine

/-! ### The generic write -/

/-- The writable bits of the word at a register offset set. -/
def State.storeMasked (s : State) (off v : Nat) : State :=
  match regAt off with
  | none => s
  | some (r, k) =>
    let m := (r.mask >>> (32 * k)) % 2 ^ 32
    let old := s.rd off
    let s := s.put off ((old - (old &&& m)) + (v &&& m))
    if r.isX then s.markWritten off else s

/-- A write under the access code alone: RW and RWS set the field, a 1 clears a W1C bit, RO and RC ignore the write. What a
WO register keeps for its action is named by its own block. -/
def State.storeWord (s : State) (off v : Nat) : State :=
  match regAt off with
  | none => s
  | some (r, k) =>
    match r.acc with
    | .rw | .rws => s.storeMasked off v
    | .w1c =>
      let m := (r.mask >>> (32 * k)) % 2 ^ 32
      let old := s.rd off
      s.put off (old - (old &&& v &&& m))
    | .ro | .rc | .wo => s

/-! ### GAIT, HLT and EVT -/

/-- TIME sent at once on every active link away from the lead (R505, R506). -/
def State.sendTime (s : State) (p : Fin 2) : State :=
  if s.sciSt p ≠ 7 ∨ s.hitch.up = some p then s
  else s.sendRec p 5 { s.ownRec with
    leadTime := BitVec.ofNat 64 s.time, nextBoundary := BitVec.ofNat 64 (if s.bit Reg.gaitStat 6 then s.frm.nextB else 0) }

/-- A write of GAIT_FRM_PERIOD (R31, R506): ignored and logged on a wheel, else held to 25 to 200 ms, a clamp logged. The lead of
a hitch announces it at once. -/
def State.periodWrite (s : State) (v : Nat) : State :=
  if s.isWheel then s.logEvent 0x0002 pkgUnit 0 (v + 2 ^ 32)
  else
    let c := clampN 25000 200000 v
    let s := if c = v then s else s.logEvent 0x0002 pkgUnit 0 v
    let prev := if s.frm.perWrite + 10000 ≤ s.frm.nextB then s.rd Reg.gaitFrmPeriod else s.frm.perPrev
    let s := (s.put Reg.gaitFrmPeriod c).modFrm (fun f => { f with perWrite := s.time, perPrev := prev })
    if s.leadsHitch then (s.sendTime 0).sendTime 1 else s

/-- A write of GAIT_FRM_ORIGIN: ignored while the frame timer runs, and logged with the access's last word (R563). -/
def State.originWrite (s : State) (off v : Nat) (last : Bool) : State :=
  if s.bit Reg.gaitStat 6 then (if last then s.logEvent 0x64 pkgUnit 0 3 else s) else s.storeWord off v

/-- A word of the GAIT block. -/
def State.writeGait (s : State) (r : ReqId) (off v : Nat) (last : Bool) : State :=
  if off = Reg.gaitReq then s.gaitReqWrite r v
  else if off = Reg.gaitTileIdle then s.storeWord off (min 100 v)
  else if off = Reg.gaitWakeTime + 4 then
    let s := s.storeWord off v
    (s.modGait (fun q => { q with wakeArmed := decide (s.rd64 Reg.gaitWakeTime ≠ 0) })).wakeTimer
  else if off = Reg.gaitTimeSet then s.storeMasked off v
  else if off = Reg.gaitTimeSet + 4 then (s.storeMasked off v).timeSet (s.rd Reg.gaitTimeSet + 2 ^ 32 * v)
  else if off = Reg.gaitFrmOrigin ∨ off = Reg.gaitFrmOrigin + 4 then s.originWrite off v last
  else if off = Reg.gaitFrmStart then s.frmStart
  else if off = Reg.gaitFrmPeriod then s.periodWrite v
  else if off = Reg.gaitTwarn then s.storeWord off (clampN 85 125 v)
  else if off = Reg.gaitRstCtrl then s.rstCtrl (v % 4)
  else if off = Reg.gaitWdog then s.wdogWrite v
  else if off = Reg.gaitWdogKick then s.wdogKick
  else if off = Reg.gaitBootDoorbell then s.doorbell
  else if off = Reg.gaitSvnAdv then s.svnAdv v
  else if off = Reg.gaitIdkCmd then s.idkCmd (v % 4)
  else if off = Reg.gaitIdkLock then s.idkLock v
  else if Reg.gaitIdkIn 0 ≤ off ∧ off < Reg.gaitIdkIn 16 then s.storeMasked off v
  else if off = Reg.gaitAccLock then s.orReg off (v % 8)
  else s.storeWord off v

/-- A word of the HLT block. -/
def State.writeHlt (s : State) (off v : Nat) : State :=
  if off = Reg.hltLife then s.storeWord off (clampN 10 1000 v)
  else if off = Reg.hltPairCtrl then s.pairCtrl (v % 8)
  else if Reg.hltPairKey 0 ≤ off ∧ off < Reg.hltPairKey 4 then s.storeMasked off v
  else s.storeWord off v

/-- A word of the EVT block. -/
def State.writeEvt (s : State) (r : ReqId) (off v : Nat) : State :=
  if off = Reg.evtLogSw then s.logEvent (v % 2 ^ 16) (v / 2 ^ 16 % 256) (ReqId.source r) (s.rd64 Reg.evtLogSwData)
  else if off = Reg.evtFsrSlots then s.put off (if ringSize (v % 8192) then v % 8192 else 0)
  else s.storeWord off v

/-! ### Ingest and Drey -/

/-- A bit of ING_CFG_EVT set. -/
def State.cfgEvt (s : State) (i : Nat) : State := s.orReg Reg.ingCfgEvt (2 ^ i)

/-- A value held to its range, with ING_CFG_EVT[3] where it lay outside (R150). -/
def State.ingClamp (s : State) (off lo hi v : Nat) : State :=
  let w := clampN lo hi v
  (if w = v then s else s.cfgEvt 3).put off w

/-- A write of ING_CTRL: ride-ahead, and EN. A 1 after ingest has stopped starts a new arrival count (R115), and in Walk starts Walk to
Trot (R557). -/
def State.ingCtrlWrite (s : State) (v : Nat) : State :=
  let was := s.bit Reg.ingCtrl 0
  let s := s.put Reg.ingCtrl (v % 4)
  if ¬ bitN v 0 then s
  else
    let s := if ¬ was ∧ s.frm.nextOpen.isNone then { s with ingest := { s.ingest with arrivals := 0 } } else s
    if s.gaitN = 1 ∧ s.gait.trans = .none then s.beginWalkToTrot false else s

/-- A write of ING_POSE_DL: its range (R150), and the event of a deadline below the late-arrival window in force (R51). -/
def State.poseDlWrite (s : State) (v : Nat) : State :=
  let s := s.ingClamp Reg.ingPoseDl 100 2000 v
  let d := s.rd Reg.ingPoseDl
  let w := s.lateWindow / 1000
  if d < w then s.logEvent 0x0003 pkgUnit 0 (d + 2 ^ 32 * w) else s

/-- A write of ING_THIN_STEP: at most 99, and raised to the high mark where it lies below it (R140, R150). -/
def State.thinStepWrite (s : State) (v : Nat) : State :=
  let s := if 99 < v then s.cfgEvt 3 else s
  let hi := s.rd Reg.ingThinHi
  if min 99 v < hi then (s.cfgEvt 1).put Reg.ingThinStep hi else s.put Reg.ingThinStep (min 99 v)

/-- A word of the packet-store and pose-ring configuration: only while ING_CTRL.EN is 0 (R148). New settings start the ring they
name from its beginning (log 43). -/
def State.ingStoreWrite (s : State) (off v : Nat) : State :=
  if s.bit Reg.ingCtrl 0 then s.cfgEvt 2
  else
    let s := s.storeWord off v
    if off = Reg.ingPoseBase ∨ off = Reg.ingPoseBase + 4 then { s with ingest := { s.ingest with ring := [], ringHead := none } }
    else if off = Reg.ingCalBase ∨ off = Reg.ingCalBase + 4 then s
    else { s with ingest := { s.ingest with nextSlot := 0 } }

/-- A word of the ING block. -/
def State.writeIng (s : State) (off v : Nat) : State :=
  if off = Reg.ingCtrl then s.ingCtrlWrite v
  else if (Reg.ingPsBase ≤ off ∧ off ≤ Reg.ingPsSlots) ∨ off = Reg.ingPoseBase ∨ off = Reg.ingPoseBase + 4
      ∨ off = Reg.ingCalBase ∨ off = Reg.ingCalBase + 4 then s.ingStoreWrite off v
  else if off = Reg.ingPbCap then s.ingClamp off 0 2097152 v
  else if off = Reg.ingThinRange then s.ingClamp off 0 262143 v
  else if off = Reg.ingThinHi then s.ingClamp off 50 99 v
  else if off = Reg.ingThinStep then s.thinStepWrite v
  else if off = Reg.ingPoseWait then s.ingClamp off 0 50 v
  else if off = Reg.ingPoseDl then s.poseDlWrite v
  else if off = Reg.ingPoseHead then (s.put off (v % 256)).publishTo (v % 256)
  else if off = Reg.ingCposeGo then s.cposeGo
  else if 0xC0100 ≤ off ∧ off < 0xC0300 ∧ off % 64 = 0 then s.ingClamp off 0 2097152 v
  else s.storeWord off v

/-- A write of DREY_SPLIT[l]: discarded in full where a condition of R156 breaks. -/
def State.splitWrite (s : State) (l v : Nat) : State :=
  let sum := (List.range 4).foldl (fun a k => a + (if k = l then v else s.rd (Reg.dreySplit k))) 0
  if v % 1024 = 0 ∧ sum ≤ 1572864 then s.put (Reg.dreySplit l) v else s.orReg Reg.dreyCfgEvt 1

/-- A write of DREY_CTRL: each engine runs while EN is 1, and its GEN counts the changes (Table 05-7). -/
def State.dreyCtrlWrite (s : State) (v : Nat) : State :=
  let s := s.put Reg.dreyCtrl (v % 8)
  (List.range 4).foldl (fun (s : State) e =>
    let w := s.rd (Reg.dreyEngState e)
    if bitN w 0 = bitN v 0 then s else s.put (Reg.dreyEngState e) (putBits (b2n (bitN v 0)) 31 16 (bitsN w 31 16 + 1))) s

/-- A word of the DREY block. -/
def State.writeDrey (s : State) (off v : Nat) : State :=
  if off = Reg.dreyCtrl then s.dreyCtrlWrite v
  else if off = Reg.dreyVox0 then
    (if clampN 20 1000 v = v then s else s.orReg Reg.dreyCfgEvt 4).put off (clampN 20 1000 v)
  else if Reg.dreySplit 0 ≤ off ∧ off < Reg.dreySplit 4 then s.splitWrite ((off - Reg.dreySplit 0) / 4) v
  else s.storeWord off v

/-! ### Hoard, the stack, SCI, the shared port block, the scheduler -/

/-- A request code and GEN recorded at the write (R598): none for code 0, which requests nothing. -/
def mgmtReq (r : ReqId) (off v cur max : Nat) : Option MgmtReq :=
  let code := bitsN v 2 0
  if code = 0 ∨ max < code then none
  else some ⟨code, bitsN v 31 16, decide (bitsN v 31 16 = cur), false, r, off⟩

/-- A write of HRD_SHD_REQ (R331, R333, R335): it replaces a request not yet applied (R223). -/
def State.shardWrite (s : State) (r : ReqId) (off v : Nat) : State :=
  let o := off - Reg.hrdTblCfg 0
  let k := o / 0x1000
  let sh := (o % 0x1000 - 0x100) / 0x20
  (s.storeWord off v).modShard k sh (fun x => { x with
    req := mgmtReq r off (v % 4 + 2 ^ 16 * bitsN v 31 16) (s.fld (Reg.hrdShdState k sh) 31 16) 3 })

/-- A word of the HRD shared block. -/
def State.writeHrd (s : State) (r : ReqId) (off v : Nat) : State :=
  if off < Reg.hrdShdScale then
    (if 0x100 ≤ off % 0x1000 ∧ off % 0x1000 < 0x900 ∧ off % 0x20 = 0x10 then s.shardWrite r off v else s.storeWord off v)
  else if off < Reg.hrdCpyBase 0 then s.storeWord off v
  else
    let o := off - Reg.hrdCpyBase 0
    match (List.finRange 4)[o / 0x100]? with
    | none => s
    | some c =>
      if o % 0x100 = 0x08 then (s.put off (if ringSize (v % 8192) then v % 8192 else 0)).cpyBusy c
      else if o % 0x100 = 0x0C then (s.put off (v % 8192)).cpyBusy c
      else s.storeWord off v

/-- A word of the stack block. -/
def State.writeStack (s : State) (off v : Nat) : State :=
  if off = Reg.tileBondCfg then s.storeWord off (max 1 (v % 256))
  else if off = Reg.tileBondTest then s.bondTestWrite (v % 8)
  else s.storeWord off v

/-- A word of the SCI block. -/
def State.writeSci (s : State) (off v : Nat) : State :=
  if off = Reg.sciCtrl 0 then s.sciCtrlWrite 0 v
  else if off = Reg.sciCtrl 1 then s.sciCtrlWrite 1 v
  else if off = Reg.sciContribWait then s.storeWord off (min 2000 v)
  else s.storeWord off v

/-- logSyncInterval held to −7 to 0, as four bits (R633). -/
def syncInterval (v : Nat) : Nat := if v % 16 = 8 then 9 else if v % 16 = 0 ∨ 8 < v % 16 then v % 16 else 0

/-- A word of the PORT shared block: each takes effect at the next boundary (R633). -/
def State.writePortSh (s : State) (off v : Nat) : State :=
  if off = Reg.portGtimeCtrl then s.storeWord off (syncInterval v + 16 * b2n (bitN v 4))
  else if off = Reg.portLateWin then s.storeWord off (clampN 5 100 (v % 128))
  else s.storeWord off v

/-- A word of the tile scheduler's block. -/
def State.writeSched (s : State) (off v : Nat) : State :=
  if off = Reg.tileSchedProg 0 + 4 then (s.storeWord off v).schedProg 0
  else if off = Reg.tileSchedProg 1 + 4 then (s.storeWord off v).schedProg 1
  else if off = Reg.tileSchedKick then s.schedKick (v % 2 ^ 16)
  else s.storeWord off v

/-! ### Slots -/

/-- A write of TILE_MGMT_REQ (R223, R598). -/
def State.mgmtWrite (s : State) (r : ReqId) (t : TileId) (v : Nat) : State :=
  (s.storeWord (Reg.tileMgmtReq t) v).modTile t (fun tl => { tl with
    mgmt := mgmtReq r (Reg.tileMgmtReq t) v (s.fld (Reg.tileState t) 31 16) 4 })

/-- A word of a tile slot. -/
def State.writeTile (s : State) (r : ReqId) (t : TileId) (off v : Nat) : State :=
  if off = Reg.tileMgmtReq t then s.mgmtWrite r t v
  else if off = Reg.tileWdog t then s.storeWord off (clampN 10 5000 v)
  else if off = Reg.tileReset t then s.tileResetNow t
  else if off = Reg.hrdLfsr t then s.storeWord off (if v = 0 then 1 else v)
  else if off = Reg.hrdPfMax t then s.storeWord off (min 96 v)
  else if off = Reg.tileSatp t + 4 then (s.storeWord off v).modTile t (fun tl => { tl with tlb := [] })
  else if off = Reg.tileTlbInv t then s.storeMasked off v
  else if off = Reg.tileTlbInv t + 4 then (s.storeMasked off v).tlbInvWrite t (s.rd (Reg.tileTlbInv t) + 2 ^ 32 * v)
  else s.storeWord off v

/-- A word of a port slot. -/
def State.writePort (s : State) (r : ReqId) (p : PortId) (off v : Nat) : State :=
  if off = Reg.portCtrl p then s.portCtrlWrite r p v
  else if off = Reg.portLifeMin p ∨ off = Reg.portLifeWarn p ∨ off = Reg.portLifeRated p then
    (s.storeWord off v).refreshLife p
  else s.storeWord off v

/-- One 32-bit word written at a register offset; `last` for the last word of the access. -/
def State.writeWord (s : State) (r : ReqId) (off v : Nat) (last : Bool) : State :=
  if off < 0x40000 then s.writeGait r off v last
  else if off < 0x80000 then s.writeHlt off v
  else if off < 0xC0000 then s.writeEvt r off v
  else if off < 0x100000 then s.writeIng off v
  else if off < 0x140000 then s.writeHrd r off v
  else if off < 0x180000 then s.writeStack off v
  else if off < 0x1C0000 then s.writeSci off v
  else if off < 0x200000 then s.writePortSh off v
  else if off < 0x240000 then s.writeDrey off v
  else if off < 0x280000 then s.writeSched off v
  else if off < 0x1100000 then
    (match (List.finRange 32)[(off - 0x1000000) / 0x1000]? with
     | some t => s.writeTile r t off v
     | none => s)
  else
    (match (List.finRange 8)[(off - 0x1100000) / 0x1000]? with
     | some p => s.writePort r p off v
     | none => s)

end Sys2Proof.Machine
end

