-- ==== Sys2Proof/Machine/Access.lean ====
section
/-! DEFINITION. Control-space accesses (19_registers.md): what an offset selects, the rights of a requester, unicast, alias and
hitch-broadcast accesses, tile-store windows, the service port, and the commands that are register accesses. A width is
given in bytes (log 13). -/

namespace Sys2Proof.Machine

open Host

/-! ### What an offset selects (R612 to R617) -/

/-- The target of an access: a byte of a tile-store window, a register of a fixed block, a unit's slot, the members of a group alias
(or of the all-units alias), or a reserved address. Kinds of slot: 0 tile, 1 port, 2 Drey engine. -/
inductive Sel where
  | window (t : TileId) (a : Nat)
  | reg (o : Nat)
  | unit (kind u inner : Nat)
  | many (kind : Nat) (group : Option Nat) (inner : Nat)
  | reserved
  deriving DecidableEq, Repr

/-- Units of a slot region. -/
def unitsOf (kind : Nat) : Nat := if kind = 0 then 32 else if kind = 1 then 8 else 4

/-- Table 19-3: what a slot offset selects. -/
def slotSel (kind o : Nat) : Sel :=
  let n := o / 0x1000
  if n < unitsOf kind then .unit kind n (o % 0x1000)
  else if 48 ≤ n ∧ n < 56 then .many kind (some (n - 48)) (o % 0x1000)
  else if n = 63 then .many kind none (o % 0x1000)
  else .reserved

/-- Tables 19-1 and 19-2 for an access of `w` bytes; another width or alignment is a reserved address (R623). -/
def selOf (off w : Nat) : Sel :=
  if (w ≠ 4 ∧ w ≠ 8) ∨ off % w ≠ 0 then .reserved
  else if off < 0x8000000 then
    match (List.finRange 32)[off / 0x400000]? with
    | some t => if off % 0x400000 < 0x300000 then .window t (off % 0x400000) else .reserved
    | none => .reserved
  else
    let o := (off - 0x8000000) % 0x4000000
    if o < 0x280000 then .reg o
    else if 0x1000000 ≤ o ∧ o < 0x1040000 then slotSel 0 (o - 0x1000000)
    else if 0x1100000 ≤ o ∧ o < 0x1140000 then slotSel 1 (o - 0x1100000)
    else if 0x1200000 ≤ o ∧ o < 0x1240000 then slotSel 2 (o - 0x1200000)
    else .reserved

/-- Whether an offset lies in the hitch-broadcast mirror. -/
def isMirror (off : Nat) : Bool := decide (0xC000000 ≤ off)

/-- Register offset of a word of a unit's slot; word 0 of a Drey engine slot is DREY_ENG_STATE (R615). -/
def unitOff (kind u inner : Nat) : Nat :=
  if kind = 2 then (if inner = 0 then Reg.dreyEngState u else 0x1200000 + 0x1000 * u + inner)
  else 0x1000000 + 0x100000 * kind + 0x1000 * u + inner

/-- Register offsets of the words of an access to a register or a unit. -/
def selWords (sel : Sel) (w : Nat) : List Nat :=
  match sel with
  | .reg o => (List.range (w / 4)).map (fun k => o + 4 * k)
  | .unit kind u i => (List.range (w / 4)).map (fun k => unitOff kind u (i + 4 * k))
  | _ => []

/-! ### Rights (R626 to R630) -/

/-- A word of a host-only register (R627). -/
def hostOnly (o : Nat) : Bool :=
  [0x10, 0x14, 0x64, 0x68, 0x74, 0x7C, 0x80, 0x84, 0x88, 0x410, 0x40060, 0x40068, 0x4006C].contains o
    || (decide (0x100 ≤ o) && decide (o < 0x180)) || (decide (0x200 ≤ o) && decide (o < 0x2A0))
    || (decide (0x40070 ≤ o) && decide (o < 0x40098))

/-- Whether GAIT_ACC_LOCK refuses a requester's writes (R629). -/
def State.lockedFor (s : State) (r : ReqId) : Bool := decide (8 ≤ r.val) && s.bit Reg.gaitAccLock (r.val - 8)

/-- Whether a tile's die is present, and with it its slot and window (R628). -/
def State.tileReach (s : State) (t : Nat) : Bool := s.bit (Reg.tileDieStat (t / 16)) 0

/-- Whether a unit's block is reachable (R628): a base-die block in every gait but Stable. -/
def State.unitReach (s : State) (kind u : Nat) : Bool := if kind = 0 then s.tileReach u else decide (s.gaitN ≠ 0)

/-- Whether the target of a unicast access is reachable (R628). -/
def State.reach (s : State) : Sel → Bool
  | .window t _ => s.tileReach t
  | .reg o => decide (o < 0xC0000) || decide (s.gaitN ≠ 0)
  | .unit kind u _ => s.unitReach kind u
  | _ => true

/-- The access error of an access, if any: a reserved address first, then the requester's rights, then reachability, then the
window's segment (log 14). -/
def State.accCheck (s : State) (r : ReqId) (write : Bool) (sel : Sel) (w : Nat) : Option AccCause :=
  if sel = .reserved then some .reserved
  else if 8 ≤ r.val ∧ (selWords sel w).any hostOnly then some .hostOnly
  else if write ∧ s.lockedFor r then some .locked
  else if ¬ s.reach sel then some .unreachable
  else match sel with
    | .window t a => if write ∧ s.segState t (a / 65536) ≠ 0 then some .notStatic else none
    | _ => none

/-! ### Reading words -/

/-- A word of GAIT_IDK_CERT (Table 17-9); the issuer's part is fused (log 9). -/
def State.certWord (s : State) (k : Nat) : Nat :=
  if k = 0 then 1
  else if k = 1 then 0x32960AED
  else if k = 2 then s.install.serial.toNat % 2 ^ 32
  else if k = 3 then s.install.serial.toNat / 2 ^ 32
  else if k = 4 then b2n s.install.variant14
  else if k = 5 then 0
  else if k < 22 then
    let key := match ecMul Config.idkPrivate p256G with
      | some (x, y) => toBe x 32 ++ toBe y 32
      | none => []
    leAt key (4 * (k - 6)) 4
  else (Config.certWord k).toNat

/-- What a 32-bit word reads as, with nothing cleared or latched. -/
def State.peekWord (s : State) (o : Nat) : Nat :=
  if o = Reg.gaitTime then s.time % 2 ^ 32
  else if o = Reg.gaitTime + 4 then s.time / 2 ^ 32 % 2 ^ 32
  else if o = Reg.gaitDevid then
    0x3296 + 2 ^ 16 * b2n s.install.variant14 + 2 ^ 20 * s.install.baseRev.toNat + 2 ^ 24 * s.install.cmpRev.toNat
  else if o = Reg.gaitSerial then s.install.serial.toNat % 2 ^ 32
  else if o = Reg.gaitSerial + 4 then s.install.serial.toNat / 2 ^ 32
  else if Reg.gaitIdkCert 0 ≤ o ∧ o < Reg.gaitIdkCert 40 then s.certWord ((o - Reg.gaitIdkCert 0) / 4)
  else if s.halter.bankBad ∧ Reg.hltVerdictFrame ≤ o ∧ o < Reg.hltVerdictTime + 8 then
    (if o = Reg.hltVerdictFrame ∨ o = Reg.hltVerdictZones then 0xFFFFFFFF else if o = Reg.hltVerdictZones + 4 then 0x1FFFF else 0)
  else match regAt o with
    | none => 0
    | some (row, _) =>
      if row.acc = .wo then 0
      else if 0x1000000 ≤ o ∧ o < 0x1020000 then
        (match (List.finRange 32)[(o - 0x1000000) / 0x1000]? with
         | some t => s.tilePeek t (o % 0x1000)
         | none => 0)
      else s.rd o

/-- The number a list of 32-bit words spells, first word lowest. -/
def wordsNat : List Nat → Nat
  | [] => 0
  | v :: r => v % 2 ^ 32 + 2 ^ 32 * wordsNat r

/-- A word of the event-log window (R602): the first word of an entry latches the entry for its requester, and the others come
from that latch. -/
def State.logRead (s : State) (r : ReqId) (os : List Nat) : Nat × State :=
  let o := os.headD 0xA0000
  let slot := (o - 0xA0000) / 32
  let k := (o - 0xA0000) / 4 % 8
  let live := (List.range 8).map (fun j => BitVec.ofNat 32 (if s.log.bad.contains slot then 0 else s.rd (logWord slot j)))
  let held := k ≠ 0 && s.log.latch.any (fun l => l.1 == r.val && l.2.1 == slot)
  let s := if s.log.bad.contains slot && !held then s.count Cnt.evtCntBaseUe else s
  let s := if k = 0 then { s with log := { s.log with latch := (r.val, slot, live) :: s.log.latch.filter (fun l => l.1 ≠ r.val) } } else s
  let entry := match s.log.latch.find? (fun l => l.1 == r.val && l.2.1 == slot) with
    | some l => l.2.2
    | none => live
  (wordsNat ((entry.drop k).take os.length |>.map (·.toNat)), s)

/-- A word of GAIT_ACC_ERR, the one RC register of 64 bits that is no counter. -/
def isAccErr (o : Nat) : Bool := o == Reg.gaitAccErr || o == Reg.gaitAccErr + 4

/-- The RC words of a unicast read cleared (R13, R14, Table 00-3): the RC fields a read returns, but those of a 64-bit counter by a
64-bit read only (R623). With `counted`, an event met the read: the first counter read keeps it. -/
def State.clearRc (s : State) (os : List Nat) (counted : Bool) : State :=
  let full := os.length = 2
  let s := os.foldl (fun (s : State) o => match regAt o with
    | some (row, _) => if row.acc = .rc ∧ (row.words = 1 ∨ full ∨ isAccErr o) then s.put o 0 else s
    | none => s) s
  match os with
  | [] => s
  | o :: _ =>
    match regAt o with
    | some (row, k) =>
      if ¬ counted ∨ row.acc ≠ .rc ∨ isAccErr o then s
      else if row.words = 2 then s.count64 (o - 4 * k) else s.put o (min 0xFFFFFFFF (s.rd o + 1))
    | none => s

/-- A read of the registers at `os`; `clear` for a unicast read of this package. -/
def State.regRead (s : State) (r : ReqId) (os : List Nat) (clear counted : Bool) : Nat × State :=
  if os.any (fun o => decide (0xA0000 ≤ o ∧ o < 0xC0000)) then s.logRead r os
  else
    let v := wordsNat (os.map s.peekWord)
    let s := if s.halter.bankBad ∧ os.any (fun o => decide (Reg.hltVerdictFrame ≤ o ∧ o < Reg.hltVerdictTime + 8))
      then s.count Cnt.evtCntBaseUe else s
    let s := if clear then
        (match (List.finRange 32).find? (fun (t : TileId) => os.contains (Reg.tileCntCycles t.val)) with
         | some t => s.countCycles t
         | none => s).clearRc os counted
      else s
    (v, s)

/-- A write of the registers at `os`, lowest word first. -/
def State.regWrite (s : State) (r : ReqId) : List Nat → Nat → State
  | [], _ => s
  | o :: rest, v => (s.writeWord r o (v % 2 ^ 32) rest.isEmpty).regWrite r rest (v / 2 ^ 32)

/-! ### Aliases (R617 to R620) -/

/-- The members of a group, or of the all-units alias, of a slot region. -/
def State.aliasUnits (s : State) (kind : Nat) (group : Option Nat) : List Nat :=
  let mask := match group with
    | none => 2 ^ 32 - 1
    | some g => s.rd (if kind = 0 then Reg.gaitGrpTile g else if kind = 1 then Reg.gaitGrpPort g else Reg.gaitGrpDrey g)
  (List.range (unitsOf kind)).filter (bitN mask)

/-- GAIT_BCAST_STAT of a requester, Table 19-4. -/
def bcastStat (mism empty skip noans : Bool) (unit pkg : Nat) : Nat :=
  b2n mism + 2 * b2n empty + 4 * b2n skip + 8 * b2n noans + 2 ^ 8 * (unit % 64) + 2 ^ 14 * (pkg % 4)

/-- A write through an alias: every member that is not skipped; the status it records. -/
def State.aliasWrite (s : State) (r : ReqId) (kind : Nat) (group : Option Nat) (inner w v : Nat) : Nat × State :=
  let all := s.aliasUnits kind group
  let here := all.filter (s.unitReach kind)
  let st := bcastStat false all.isEmpty (decide (here.length < all.length)) false 0 0
  (st, here.foldl (fun (s : State) u => s.regWrite r (selWords (.unit kind u inner) w) v) s)

/-- A read through an alias: the lowest member's value, and the status it records. -/
def State.aliasRead (s : State) (kind : Nat) (group : Option Nat) (inner w : Nat) : Nat × Nat :=
  let all := s.aliasUnits kind group
  let here := all.filter (s.unitReach kind)
  let val := fun (u : Nat) => wordsNat ((selWords (.unit kind u inner) w).map s.peekWord)
  let skip := decide (here.length < all.length)
  match here with
  | [] => (0, bcastStat false all.isEmpty skip false 0 0)
  | u :: rest =>
    match rest.find? (fun k => val k != val u) with
    | none => (val u, bcastStat false false skip false 0 0)
    | some k => (val u, bcastStat true false skip false k s.ownPkg)

/-! ### An access in its own package -/

/-- A read: its value, the alias status it records if any, and the state after. -/
def State.localRead (s : State) (r : ReqId) (off w : Nat) (clear counted : Bool) : Nat × Option Nat × State :=
  let sel := selOf off w
  match s.accCheck r false sel w with
  | some c => (0, none, s.accErr r off c)
  | none =>
    match sel with
    | .window t a => (s.tiles[t].tsNat a w, none, s)
    | .many kind g inner =>
      let (v, st) := s.aliasRead kind g inner w
      (v, some st, s)
    | _ =>
      let (v, s) := s.regRead r (selWords sel w) clear counted
      (v, none, s)

/-- A write, likewise. -/
def State.localWrite (s : State) (r : ReqId) (off w v : Nat) : Option Nat × State :=
  let sel := selOf off w
  match s.accCheck r true sel w with
  | some c => (none, s.accErr r off c)
  | none =>
    match sel with
    | .window t a => (none, s.modTile t (fun tl => tl.tsPuts a (toLe v w)))
    | .many kind g inner =>
      let (st, s) := s.aliasWrite r kind g inner w v
      (some st, s)
    | _ => (none, s.regWrite r (selWords sel w) v)

/-! ### Hitch broadcast (R516, R517, R621, R622) -/

/-- The members a hitch broadcast is sent to: those that set the Sundila-register-map bit. -/
def State.bcastMembers (s : State) : List Nat :=
  (List.range 4).filter (fun n => bitN s.memberMask n && n != s.ownPkg
    && !(s.hitch.members.any (fun m => m.num == n && !(bitN m.classes 5))))

/-- The unit a broadcast's differing value belongs to in another package: the slot's, or a free value through an alias, whose answer
does not name it (log 44). -/
def State.diffUnit (s : State) (off w : Nat) : Nat × State :=
  match selOf off w with
  | .unit _ u _ => (u, s)
  | .many _ _ _ => s.freeBits 6
  | _ => (0, s)

/-- A broadcast completed: its status, and for a read its data (R622); members that have not answered count. An answer to an alias
read does not say whether that package found a difference: a free value (log 44). -/
def State.bcastFinish (s : State) (b : Bcast) : State :=
  let s := { s with hitch := { s.hitch with bcasts := s.hitch.bcasts.erase b } }
  let s := s.count Cnt.sciCntBcastNoans b.waiting.length
  let noans := !b.waiting.isEmpty
  let stat := fun (mism : Bool) (unit pkg : Nat) => bcastStat mism (bitN b.stat 1) (bitN b.stat 2) noans unit pkg
  if b.write then s.put (Reg.gaitBcastStat b.req.val) (stat false 0 0)
  else
    let ans := (List.range 4).filterMap (fun n => b.answers.find? (fun a => a.1 == n))
    let v := match ans with | a :: _ => a.2 | [] => 0
    let alias_ : Bool := match selOf b.off b.w with | .many _ _ _ => true | _ => false
    let (far, s) := if alias_ ∧ 1 < ans.length then s.freeBits 1 else (0, s)
    let own := bitN b.stat 0
    let s := s.give b.req v
    let s := if b.req.val = 8 then { s with pcie := { s.pcie with lastCpl := (0, toLe v b.w, []) } } else s
    match ans.find? (fun a => a.2 != v) with
    | some a =>
      if own ∧ s.ownPkg ≤ a.1 then s.put (Reg.gaitBcastStat b.req.val) (stat true (bitsN b.stat 13 8) s.ownPkg)
      else
        let (u, s) := s.diffUnit b.off b.w
        s.put (Reg.gaitBcastStat b.req.val) (stat true u a.1)
    | none =>
      if own then s.put (Reg.gaitBcastStat b.req.val) (stat true (bitsN b.stat 13 8) s.ownPkg)
      else s.put (Reg.gaitBcastStat b.req.val) (stat (noans || far == 1) 0 0)

/-- Every broadcast whose members have all answered, completed. -/
def State.settleBcasts (s : State) : State :=
  (s.hitch.bcasts.filter (fun b => b.waiting.isEmpty)).foldl (fun (s : State) b => s.bcastFinish b) s

/-- The request of a broadcast for one member: CWR or CRD with operand bit [63] (Table 15-5). -/
def State.bcastMsg (s : State) (write : Bool) (off w v n tag : Nat) : SciMsg :=
  { op := if write then 0x41 else 0x40
    hdr := { dst := BitVec.ofNat 2 n, src := BitVec.ofNat 2 s.ownPkg, ackReq := true, size := if w = 8 then 3 else 2
             tag := BitVec.ofNat 16 tag, status := 0, operand := BitVec.ofNat 64 (2 ^ 63 + n * 2 ^ 42 + 0xE0000000 + off) }
    data := if write then toLe v 8 else [] }

/-- A broadcast begun after its local part, whose value and status are given. -/
def State.bcastStart (s : State) (r : ReqId) (write : Bool) (off w v : Nat) (here stat : Nat) : State :=
  let ms := s.bcastMembers
  let tag := s.freeCtr % 65536
  let b : Bcast := ⟨r, tag, write, off, w, ms, [(s.ownPkg, here)], stat, s.time + 10000⟩
  ({ s with
    freeCtr := s.freeCtr + 1
    hitch := { s.hitch with bcasts := s.hitch.bcasts ++ [b], outbox := s.hitch.outbox ++ ms.map (fun n => s.bcastMsg write off w v n tag) } }).settleBcasts

/-! ### An access of a requester -/

/-- A control-space read; its data goes to the requester. -/
def State.csRead (s : State) (r : ReqId) (off w : Nat) (counted : Bool) : State :=
  if isMirror off then
    let refused := match s.accCheck r false (selOf off w) w with
      | some .unreachable => false
      | some _ => true
      | none => false
    let (v, st, s1) := s.localRead r off w false counted
    if refused then s1.give r 0
    else s1.bcastStart r false off w 0 v (st.getD 0)
  else
    let (v, st, s) := s.localRead r off w true counted
    let s := match st with | some x => s.put (Reg.gaitBcastStat r.val) x | none => s
    s.give r v

/-- A control-space write. A hitch-broadcast access that the switch refuses is not sent. -/
def State.csWrite (s : State) (r : ReqId) (off w v : Nat) : State :=
  if isMirror off then
    let refused := match s.accCheck r true (selOf off w) w with
      | some .unreachable => false
      | some _ => true
      | none => false
    let (st, s) := s.localWrite r off w v
    if refused then s else s.bcastStart r true off w v 0 (st.getD 0)
  else
    let (st, s) := s.localWrite r off w v
    match st with | some x => s.put (Reg.gaitBcastStat r.val) x | none => s

/-- A write command: performed while the clocks run (R573). -/
def State.wr (s : State) (r : ReqId) (off w v : Nat) : Outcome State Fault Refusal :=
  if s.alive then .next (s.csWrite r off w v) else .next s

/-- A read command. -/
def State.rdCmd (s : State) (r : ReqId) (off w : Nat) (counted : Bool) : Outcome State Fault Refusal :=
  if s.alive then .next (s.csRead r off w counted) else .next s

/-- A 32-bit write of a register of this package by its register offset. -/
def State.wr32 (s : State) (r : ReqId) (o v : Nat) : Outcome State Fault Refusal := s.wr r (csOffset o) 4 v

/-- A 64-bit write, likewise. -/
def State.wr64 (s : State) (r : ReqId) (o v : Nat) : Outcome State Fault Refusal := s.wr r (csOffset o) 8 v

/-! ### The commands that are register accesses -/

/-- REGISTER_WRITE (R11). -/
def execRegisterWrite (r : ReqId) (off : BitVec 28) (w : Nat) (v : BitVec 64) (s : State) : Outcome State Fault Refusal :=
  s.wr r off.toNat w v.toNat

/-- RC_READ (R13, R14). -/
def execRcRead (r : ReqId) (off : BitVec 28) (w : Nat) (counted : Bool) (s : State) : Outcome State Fault Refusal :=
  s.rdCmd r off.toNat w counted

/-- FRAME_PERIOD_WRITE (R31, R506). -/
def execFramePeriodWrite (r : ReqId) (us : BitVec 32) (s : State) : Outcome State Fault Refusal := s.wr32 r Reg.gaitFrmPeriod us.toNat

/-- ING_CPOSE_GO (R130). -/
def execIngCposeGo (r : ReqId) (s : State) : Outcome State Fault Refusal := s.wr32 r Reg.ingCposeGo 1

/-- PORT_VERIFY_REQUEST (R101). -/
def execPortVerifyRequest (r : ReqId) (p : PortId) (low : BitVec 4) (s : State) : Outcome State Fault Refusal :=
  s.wr32 r (Reg.portCtrl p) (low.toNat + 16)

/-- PORT_UNVERIFY_REQUEST (R101). -/
def execPortUnverifyRequest (r : ReqId) (p : PortId) (low : BitVec 4) (s : State) : Outcome State Fault Refusal :=
  s.wr32 r (Reg.portCtrl p) low.toNat

/-- PORT_CAL_CTRL_WRITE (R99). -/
def execPortCalCtrlWrite (r : ReqId) (p : PortId) (slot : Bool) (s : State) : Outcome State Fault Refusal :=
  s.wr32 r (Reg.portCalCtrl p) (b2n slot)

/-- PORT_GTIME_CTRL_WRITE (R76, R77, R633). -/
def execPortGtimeCtrlWrite (r : ReqId) (v : BitVec 32) (s : State) : Outcome State Fault Refusal := s.wr32 r Reg.portGtimeCtrl v.toNat

/-- ING_POSE_HEAD_WRITE (R123, R124). -/
def execIngPoseHeadWrite (r : ReqId) (idx : BitVec 8) (s : State) : Outcome State Fault Refusal := s.wr32 r Reg.ingPoseHead idx.toNat

/-- ING_CTRL_EN_SET (R557). -/
def execIngCtrlEnSet (r : ReqId) (ride : Bool) (s : State) : Outcome State Fault Refusal := s.wr32 r Reg.ingCtrl (1 + 2 * b2n ride)

/-- ING_CTRL_EN_CLEAR (R149). -/
def execIngCtrlEnClear (r : ReqId) (ride : Bool) (s : State) : Outcome State Fault Refusal := s.wr32 r Reg.ingCtrl (2 * b2n ride)

/-- RIDE_AHEAD_WRITE (R45): EN is written as it stands. -/
def execRideAheadWrite (r : ReqId) (ride : Bool) (s : State) : Outcome State Fault Refusal :=
  s.wr32 r Reg.ingCtrl (s.fld Reg.ingCtrl 0 0 + 2 * b2n ride)

/-- DREY_SPLIT_WRITE (R156). -/
def execDreySplitWrite (r : ReqId) (level : Fin 4) (v : BitVec 32) (s : State) : Outcome State Fault Refusal :=
  s.wr32 r (Reg.dreySplit level) v.toNat

/-- TILE_RESET (R216). -/
def execTileReset (r : ReqId) (t : TileId) (s : State) : Outcome State Fault Refusal := s.wr32 r (Reg.tileReset t) 1

/-- MGMT_RETURN_TO_SERVICE (R223). -/
def execMgmtReturnToService (r : ReqId) (t : TileId) (gen : BitVec 16) (s : State) : Outcome State Fault Refusal :=
  s.wr32 r (Reg.tileMgmtReq t) (1 + 2 ^ 16 * gen.toNat)

/-- MGMT_TAKE_OUT_OF_SERVICE (R223). -/
def execMgmtTakeOutOfService (r : ReqId) (t : TileId) (gen : BitVec 16) (s : State) : Outcome State Fault Refusal :=
  s.wr32 r (Reg.tileMgmtReq t) (2 + 2 ^ 16 * gen.toNat)

/-- MGMT_RESET (R223). -/
def execMgmtReset (r : ReqId) (t : TileId) (gen : BitVec 16) (s : State) : Outcome State Fault Refusal :=
  s.wr32 r (Reg.tileMgmtReq t) (3 + 2 ^ 16 * gen.toNat)

/-- MGMT_RELEASE_QUARANTINE (R591). -/
def execMgmtReleaseQuarantine (r : ReqId) (t : TileId) (gen : BitVec 16) (s : State) : Outcome State Fault Refusal :=
  s.wr32 r (Reg.tileMgmtReq t) (4 + 2 ^ 16 * gen.toNat)

/-- TILE_SCHED_PROG_WRITE (R227). -/
def execTileSchedProgWrite (r : ReqId) (b : Bool) (addr : BitVec 64) (s : State) : Outcome State Fault Refusal :=
  s.wr64 r (Reg.tileSchedProg (b2n b)) addr.toNat

/-- TILE_SCHED_SEL_WRITE (R226). -/
def execTileSchedSelWrite (r : ReqId) (b : Bool) (s : State) : Outcome State Fault Refusal := s.wr32 r Reg.tileSchedSel (b2n b)

/-- TILE_SCHED_KICK (R231). -/
def execTileSchedKick (r : ReqId) (idx : BitVec 16) (s : State) : Outcome State Fault Refusal := s.wr32 r Reg.tileSchedKick idx.toNat

/-- SHARD_MIG (R331). -/
def execShardMig (r : ReqId) (tbl : Fin 16) (sh : Fin 64) (gen : BitVec 16) (s : State) : Outcome State Fault Refusal :=
  s.wr32 r (Reg.hrdShdReq tbl sh) (1 + 2 ^ 16 * gen.toNat)

/-- SHARD_SWITCH (R333). -/
def execShardSwitch (r : ReqId) (tbl : Fin 16) (sh : Fin 64) (gen : BitVec 16) (s : State) : Outcome State Fault Refusal :=
  s.wr32 r (Reg.hrdShdReq tbl sh) (2 + 2 ^ 16 * gen.toNat)

/-- SHARD_CANCEL_MIG (R335). -/
def execShardCancelMig (r : ReqId) (tbl : Fin 16) (sh : Fin 64) (gen : BitVec 16) (s : State) : Outcome State Fault Refusal :=
  s.wr32 r (Reg.hrdShdReq tbl sh) (3 + 2 ^ 16 * gen.toNat)

/-- TILE_TLB_INV_WRITE (R440). -/
def execTileTlbInvWrite (r : ReqId) (t : TileId) (v : BitVec 64) (s : State) : Outcome State Fault Refusal :=
  s.wr64 r (Reg.tileTlbInv t) v.toNat

/-- COPY_HEAD_WRITE (R444). -/
def execCopyHeadWrite (r : ReqId) (c : Fin 4) (v : BitVec 32) (s : State) : Outcome State Fault Refusal :=
  s.wr32 r (Reg.hrdCpyHead c) v.toNat

/-- BOND_TEST_START (R485). -/
def execBondTestStart (r : ReqId) (dies : BitVec 2) (s : State) : Outcome State Fault Refusal := s.wr32 r Reg.tileBondTest (dies.toNat + 4)

/-- SCI_ENABLE (R492). -/
def execSciEnable (r : ReqId) (p : Fin 2) (rest : BitVec 3) (s : State) : Outcome State Fault Refusal :=
  s.wr32 r (Reg.sciCtrl p) (1 + 2 * rest.toNat)

/-- PAIR_LOAD (R547). -/
def execPairLoad (r : ReqId) (s : State) : Outcome State Fault Refusal := s.wr32 r Reg.hltPairCtrl 1

/-- PAIR_ERASE (R547). -/
def execPairErase (r : ReqId) (s : State) : Outcome State Fault Refusal := s.wr32 r Reg.hltPairCtrl 2

/-- PAIR_WRAP (R548). -/
def execPairWrap (r : ReqId) (s : State) : Outcome State Fault Refusal := s.wr32 r Reg.hltPairCtrl 3

/-- PAIR_UNWRAP (R548). -/
def execPairUnwrap (r : ReqId) (s : State) : Outcome State Fault Refusal := s.wr32 r Reg.hltPairCtrl 4

/-- GAIT_REQ_WALK (R555). -/
def execGaitReqWalk (r : ReqId) (gen : BitVec 16) (s : State) : Outcome State Fault Refusal := s.wr32 r Reg.gaitReq (1 + 2 ^ 16 * gen.toNat)

/-- GAIT_REQ_TROT (R555). -/
def execGaitReqTrot (r : ReqId) (gen : BitVec 16) (s : State) : Outcome State Fault Refusal := s.wr32 r Reg.gaitReq (2 + 2 ^ 16 * gen.toNat)

/-- GAIT_REQ_STABLE (R555). -/
def execGaitReqStable (r : ReqId) (gen : BitVec 16) (s : State) : Outcome State Fault Refusal := s.wr32 r Reg.gaitReq (3 + 2 ^ 16 * gen.toNat)

/-- GAIT_REQ_NONE (R555). -/
def execGaitReqNone (r : ReqId) (gen : BitVec 16) (s : State) : Outcome State Fault Refusal := s.wr32 r Reg.gaitReq (2 ^ 16 * gen.toNat)

/-- GAIT_RST_HOST_CORE (R570). -/
def execGaitRstHostCore (r : ReqId) (s : State) : Outcome State Fault Refusal := s.wr32 r Reg.gaitRstCtrl 1

/-- GAIT_RST_PACKAGE (R570). -/
def execGaitRstPackage (r : ReqId) (s : State) : Outcome State Fault Refusal := s.wr32 r Reg.gaitRstCtrl 2

/-- GAIT_BOOT_DOORBELL (R577). -/
def execGaitBootDoorbell (r : ReqId) (s : State) : Outcome State Fault Refusal := s.wr32 r Reg.gaitBootDoorbell 1

/-- GAIT_SVN_ADV (R578). -/
def execGaitSvnAdv (r : ReqId) (v : BitVec 32) (s : State) : Outcome State Fault Refusal := s.wr32 r Reg.gaitSvnAdv v.toNat

/-- IDK_SIGN (R580). -/
def execIdkSign (r : ReqId) (s : State) : Outcome State Fault Refusal := s.wr32 r Reg.gaitIdkCmd 1

/-- IDK_ECDH (R580). -/
def execIdkEcdh (r : ReqId) (s : State) : Outcome State Fault Refusal := s.wr32 r Reg.gaitIdkCmd 2

/-- GAIT_IDK_LOCK (R580). -/
def execGaitIdkLock (r : ReqId) (s : State) : Outcome State Fault Refusal := s.wr32 r Reg.gaitIdkLock 1

/-- GAIT_WDOG (R571). -/
def execGaitWdog (r : ReqId) (ms : BitVec 32) (s : State) : Outcome State Fault Refusal := s.wr32 r Reg.gaitWdog ms.toNat

/-- GAIT_WDOG_KICK (R571). -/
def execGaitWdogKick (r : ReqId) (s : State) : Outcome State Fault Refusal := s.wr32 r Reg.gaitWdogKick 1

/-- GAIT_TIME_SET (R562). -/
def execGaitTimeSet (r : ReqId) (step : BitVec 64) (s : State) : Outcome State Fault Refusal := s.wr64 r Reg.gaitTimeSet step.toNat

/-- GAIT_FRM_START (R563). -/
def execGaitFrmStart (r : ReqId) (s : State) : Outcome State Fault Refusal := s.wr32 r Reg.gaitFrmStart 1

/-- EVT_LOG_SW (R604). -/
def execEvtLogSw (r : ReqId) (code : BitVec 16) (unit : BitVec 8) (s : State) : Outcome State Fault Refusal :=
  s.wr32 r Reg.evtLogSw (code.toNat + 2 ^ 16 * unit.toNat)

/-- EVT_LOG_FIRST_WORD_READ (R602). -/
def execEvtLogFirstWordRead (r : ReqId) (k : Fin 4096) (w64 : Bool) (s : State) : Outcome State Fault Refusal :=
  s.rdCmd r (csOffset (logWord k 0)) (if w64 then 8 else 4) false

/-- GAIT_ACC_LOCK (R629). -/
def execGaitAccLock (r : ReqId) (bits : BitVec 3) (s : State) : Outcome State Fault Refusal := s.wr32 r Reg.gaitAccLock bits.toNat

/-- ALIAS_WRITE (R618). -/
def execAliasWrite (r : ReqId) (off : BitVec 28) (w : Nat) (v : BitVec 64) (s : State) : Outcome State Fault Refusal :=
  s.wr r off.toNat w v.toNat

/-- ALIAS_READ (R619). -/
def execAliasRead (r : ReqId) (off : BitVec 28) (w : Nat) (s : State) : Outcome State Fault Refusal := s.rdCmd r off.toNat w false

/-- HITCH_BROADCAST_WRITE (R516, R621). -/
def execHitchBroadcastWrite (r : ReqId) (off : BitVec 28) (w : Nat) (v : BitVec 64) (s : State) : Outcome State Fault Refusal :=
  s.wr r off.toNat w v.toNat

/-- HITCH_BROADCAST_READ (R517, R622). -/
def execHitchBroadcastRead (r : ReqId) (off : BitVec 28) (w : Nat) (s : State) : Outcome State Fault Refusal := s.rdCmd r off.toNat w false

/-- TILE_STORE_WINDOW_WRITE (R613, R614). -/
def execTileStoreWindowWrite (r : ReqId) (t : TileId) (a : BitVec 22) (w : Nat) (v : BitVec 64) (s : State) : Outcome State Fault Refusal :=
  s.wr r (0x400000 * t.val + a.toNat) w v.toNat

/-- TILE_STORE_WINDOW_READ (R613, R614). -/
def execTileStoreWindowRead (r : ReqId) (t : TileId) (a : BitVec 22) (w : Nat) (s : State) : Outcome State Fault Refusal :=
  s.rdCmd r (0x400000 * t.val + a.toNat) w false

/-! ### The service port (R631) -/

/-- Requester 10. -/
def svcReq : ReqId := 10

/-- What Capture-DR shows of an access that has ended. -/
def State.svcDone (s : State) (w64 : Bool) (off status data : Nat) : State :=
  { s with stack := { s.stack with
    svcBusy := none, svcStat := status, svcWide := w64, svcOff := off, svcData := BitVec.ofNat 64 data } }

/-- Update-DR with OP read or write: ignored while an access is under way; refused without clocks or during a package reset; an
access error completes at once; any other access runs until SVC_ACCESS_DONE. An access to the hitch-broadcast mirror is sent at
once. -/
def State.svcStart (s : State) (write w64 : Bool) (off : Nat) (data : W64) : State :=
  if s.stack.svcBusy.isSome then s
  else
    let w := if w64 then 8 else 4
    if ¬ s.alive ∨ s.gait.inReset then s.svcDone w64 off 2 0
    else match s.accCheck svcReq write (selOf off w) w with
      | some c =>
        let s : State := if isMirror off ∧ c = .unreachable then (if write then s.csWrite svcReq off w data.toNat else s.csRead svcReq off w false)
          else s.accErr svcReq off c
        s.svcDone w64 off 3 0
      | none =>
        let s := { s with stack := { s.stack with
          svcBusy := some (write, w64, off, data), svcStat := 1, svcWide := w64, svcOff := off, svcData := 0 } }
        if isMirror off then (if write then s.csWrite svcReq off w data.toNat else s.csRead svcReq off w false) else s

/-- SVC_READ. -/
def execSvcRead (w64 : Bool) (off : BitVec 28) (s : State) : Outcome State Fault Refusal := .next (s.svcStart false w64 off.toNat 0)

/-- SVC_WRITE. -/
def execSvcWrite (w64 : Bool) (off : BitVec 28) (data : BitVec 64) (s : State) : Outcome State Fault Refusal :=
  .next (s.svcStart true w64 off.toNat data)

/-- SVC_ACCESS_DONE: the access is performed, with its data for a read; an access that has become an error or cannot be performed
ends so. -/
def execSvcAccessDone (s : State) : Outcome State Fault Refusal :=
  match s.stack.svcBusy with
  | none => .next s
  | some (write, w64, off, data) =>
    let w := if w64 then 8 else 4
    let rdata := fun (s : State) => if write then 0 else (spGet (fun _ => 0) s.rdata svcReq.val).toNat
    if ¬ s.alive ∨ s.gait.inReset then .next (s.svcDone w64 off 2 0)
    else if isMirror off then
      if s.hitch.bcasts.any (fun b => b.req == svcReq) then .next s else .next (s.svcDone w64 off 0 (rdata s))
    else
      let err := (s.accCheck svcReq write (selOf off w) w).isSome
      let s := if write then s.csWrite svcReq off w data.toNat else s.csRead svcReq off w false
      .next (s.svcDone w64 off (if err then 3 else 0) (if err then 0 else rdata s))

end Sys2Proof.Machine
end

