-- ==== Sys2Proof/Machine/SciCmds.lean ====
section
/-! DEFINITION. What arrives on the Cascade Interface (15_hitch.md): training, flits, messages of every class, link-control records, and the
timeouts of links, requests and contributions. A command that names a message or a record is its arrival whole at a
port, with no flit of its own (log 45). -/

namespace Sys2Proof.Machine

open Host

/-- What has to be sent after an arrival, sent; broadcasts that have every answer completed. -/
def State.sciEnd (s : State) : Outcome State Fault Refusal := .next s.settleBcasts.sciPump

/-- Whether a port's SCI logic runs: clocks on and the main group powered. -/
def State.sciOn (s : State) : Bool := s.alive && decide (1 ≤ s.gaitN)

/-- A command that acts while the SCI logic runs. -/
def State.sciDo (s : State) (f : State → State) : Outcome State Fault Refusal := if s.sciOn then (f s).sciEnd else .next s

/-! ### Training (R492, Table 15-1) -/

/-- A port's capabilities sent to its neighbour. -/
def State.sendCap (s : State) (p : Fin 2) : State := s.sendRec p 1 s.ownRec

/-- NEGOTIATE entered: sequence numbers and credits as the new link starts them, CAP sent. -/
def State.enterNegotiate (s : State) (p : Fin 2) : State :=
  let s := s.modSci p (fun q => { SciPort.idle with
    retrains := q.retrains, lanes := q.lanes, peer32 := q.peer32, peerLead := q.peerLead, credits := vcUnits })
  (s.setSciSt p 6).sendCap p

/-- One training event in the state that waits for it; any other changes nothing. -/
def State.trainEvent (s : State) (p : Fin 2) (e : TrainEvent) : State :=
  match s.sciSt p, e with
  | 1, .laneDetected lanes =>
    if lanes = 0 then s else (s.modSci p (fun q => { q with lanes := lanes.toNat })).setSciSt p 2
  | 2, .sts1 lanes => if lanes.toNat = s.hitch.ports[p].lanes then s.setSciSt p 3 else s
  | 3, .sts2 width reversed peer32 peerLead =>
    let cap := let w := s.fld (Reg.sciCtrl p) 3 2; if w = 3 then 0 else w
    let w := max (min 2 width.toNat) cap
    let s := s.put (Reg.sciState p) (putBits (putBits (putBits (s.rd (Reg.sciState p)) 5 4 w) 6 6 0) 7 7 (b2n reversed))
    let s := s.modSci p (fun q => { q with peer32 := peer32, peerLead := peerLead })
    s.setSciSt p (if peer32 ∧ s.bit (Reg.sciCtrl p) 1 then 4 else 5)
  | 4, .presetsSettled => (s.putB (Reg.sciState p) 6 true).setSciSt p 5
  | 5, .creditsReceived => s.enterNegotiate p
  | 8, .lockRegained => let now := s.time; (s.modSci p (fun q => { q with since := now })).setSciSt p 7
  | _, _ => s

/-- SCI_TRAINING_SET. -/
def execSciTrainingSet (p : Fin 2) (e : TrainEvent) (s : State) : Outcome State Fault Refusal := s.sciDo (fun s => s.trainEvent p e)

/-- The timeouts of Table 15-1, in ns; none for a state that has none. -/
def sciLimit (st : Nat) : Option Nat :=
  if st = 1 then some 12000000 else if st = 2 ∨ st = 4 then some 24000000 else if st = 3 then some 2000000
  else if st = 5 then some 100000 else if st = 6 then some 10000000 else if st = 8 then some 200000 else none

/-- The instant a port's link state times out has come. -/
def State.atLimit (s : State) (p : Fin 2) : State :=
  match sciLimit (s.sciSt p) with
  | some n => s.at_ (s.hitch.ports[p].entered + n)
  | none => s

/-- SCI_STATE_TIMEOUT: the last column of Table 15-1. -/
def execSciStateTimeout (p : Fin 2) (s : State) : Outcome State Fault Refusal :=
  s.sciDo (fun s =>
    let s := s.atLimit p
    match s.sciSt p with
    | 1 => let now := s.time; s.modSci p (fun q => { q with entered := now })
    | 2 => s.setSciSt p 1
    | 3 => s.setSciSt p 1
    | 4 => (s.putB (Reg.sciState p) 6 false).setSciSt p 5
    | 5 => s.setSciSt p 1
    | 6 => s.setSciSt p 9
    | 8 => s.sciDown p
    | _ => s)

/-! ### Memory class (R498, R514) -/

/-- RD answered: the bytes; STATUS 2 where the access is not one of device memory, STATUS 1 and zeros where a word of it is
uncorrectable. -/
def State.serveRd (s : State) (m : SciMsg) : State :=
  let a := m.hdr.operand.toNat % 2 ^ 42
  let n := 2 ^ m.hdr.size.toNat
  if m.hdr.size.toNat < 3 ∨ 8 < m.hdr.size.toNat ∨ ¬ s.memRange a n then s.replyTo m 2 []
  else
    if (s.mem.badIn a n).isEmpty then (s.countSoft a n).replyTo m 0 (s.mem.bytes a n) else (s.readMeets a n).replyTo m 1 (List.replicate n 0)

/-- WR performed, then acknowledged where that is asked for; data sent as poisoned leave the poison code where there is ECC (R425,
log 51). -/
def State.serveWr (s : State) (m : SciMsg) : State :=
  let a := m.hdr.operand.toNat % 2 ^ 42
  let n := 2 ^ m.hdr.size.toNat
  let ok := decide (3 ≤ m.hdr.size.toNat ∧ m.hdr.size.toNat ≤ 8) && decide (n ≤ m.data.length) && s.memRange a n
  let s := if ok then (let s := s.memWrite a (m.data.take n); if m.hdr.status = 1 then s.putPoison ((List.range n).map (a + ·)) else s) else s
  if m.hdr.ackReq then s.replyTo m (if ok then 0 else 2) [] else s

/-! ### Ownership class (R511 to R513) -/

/-- The current step of a table's inbox: a message of another step starts that step's counts. -/
def State.inboxStep (s : State) (t step : Nat) : State :=
  let w := s.rd (Reg.sciInboxStat t)
  if bitsN w 31 24 = step % 256 then s
  else { s.put (Reg.sciInboxStat t) (putBits (putBits w 31 24 step) 23 20 0) with
    hitch := { s.hitch with inboxCnt := s.hitch.inboxCnt.filter (fun x => x.1 ≠ t), halfLost := s.hitch.halfLost.filter (fun x => x.1 ≠ t) } }

/-- The 320 bytes of a gradient-inbox slot. -/
def inboxSlot (m : SciMsg) (time : Nat) : List Byte :=
  let o := m.hdr.operand.toNat
  let n := m.data.length / 4
  toLe (bitsN o 47 16) 4 ++ toLe (bitsN o 15 4) 2 ++ toLe (m.hdr.src.toNat + 4 * bitsN o 48 48) 1 ++ toLe n 1 ++ toLe time 8
    ++ (m.data ++ List.replicate 256 0).take 256 ++ List.replicate 48 0

/-- OWN_PUSH: appended in arrival order, or dropped and counted where the inbox is full for the step; with the first half of a
128-element row goes its second half. An inbox whose base is unset is an engine's access to a reserved address (R660). -/
def State.ownPush (s : State) (m : SciMsg) : State :=
  let o := m.hdr.operand.toNat
  let t := bitsN o 3 0
  let s := s.inboxStep t (bitsN o 15 4)
  let key := (t, m.hdr.src.toNat)
  let second := bitN o 48
  if second ∧ s.hitch.halfLost.contains key then
    { s.count Cnt.sciCntInboxLost with hitch := { s.hitch with halfLost := s.hitch.halfLost.erase key } }
  else if s.isUnset (Reg.sciInboxBase t) 2 then (s.engWrite true 0 (inboxSlot m s.time) none).2
  else
    let base := s.rd64 (Reg.sciInboxBase t)
    let slots := bitsN base 63 48
    let used := spGet (fun _ => 0) s.hitch.inboxCnt t
    if slots ≤ used then
      let s := s.count Cnt.sciCntInboxLost
      if !second ∧ s.fld (Reg.hrdTblCfg t) 3 2 = 3 then { s with hitch := { s.hitch with halfLost := key :: s.hitch.halfLost } } else s
    else
      let w := s.rd (Reg.sciInboxStat t)
      let k := bitsN w 12 0
      let (_, s) := s.engWrite false (bitsN base 43 0 / 64 * 64 + 320 * k) (inboxSlot m s.time) none
      let s := s.put (Reg.sciInboxStat t) (putBits w 12 0 ((k + 1) % slots))
      { s with hitch := { s.hitch with inboxCnt := spSet (fun _ => 0) s.hitch.inboxCnt t (used + 1) } }

/-- OWN_DONE: the source has pushed all of the step. -/
def State.ownDone (s : State) (m : SciMsg) : State :=
  let o := m.hdr.operand.toNat
  let t := bitsN o 3 0
  let s := s.inboxStep t (bitsN o 15 4)
  let w := s.rd (Reg.sciInboxStat t)
  s.put (Reg.sciInboxStat t) (putBits w 23 20 (bitsN w 23 20 ||| 2 ^ m.hdr.src.toNat))

/-- OWN_VER: this package's VERSION of the table increments. -/
def State.ownVer (s : State) (m : SciMsg) : State :=
  let t := m.hdr.operand.toNat % 16
  s.putF (Reg.hrdTblVer t) 15 0 (s.fld (Reg.hrdTblVer t) 15 0 + 1)

/-! ### Contributions (R508, R509) -/

/-- CONTRIB at the lead: kept for a frame still to commit, late otherwise. -/
def State.contribution (s : State) (m : SciMsg) : State :=
  let f := m.hdr.operand.toNat % 2 ^ 32
  let c : Contribution := ⟨m.hdr.src.toNat, f, leAt m.data 0 6, leAt m.data 6 3, leAt m.data 9 1⟩
  let open_ := (s.epoch? f).isSome || decide (s.frameNum ≤ f) || (match s.frm.nextOpen with | some n => decide (n ≤ f) | none => false)
  if ¬ s.bit Reg.sciHitchStat 2 then s
  else if ¬ open_ then s.count Cnt.sciCntContribLate
  else
    let cs := s.hitch.contribs.filter (fun x => ¬ (x.member = c.member ∧ x.frame = f))
    ({ s with hitch := { s.hitch with contribs := cs ++ [c] } }).tryMerge

/-! ### Debug class (R516, R517, R621, R626) -/

/-- CRD or CWR: an access of requester 9. One sent by hitch broadcast, or that names the mirror, acts at its local register offset, is
not sent on, and clears nothing (R621, R517). -/
def State.serveDebug (s : State) (m : SciMsg) : State :=
  let r : ReqId := 9
  let a := m.hdr.operand.toNat % 2 ^ 42
  let off0 := a - 0xE0000000
  let bc := bitN m.hdr.operand.toNat 63 || isMirror off0
  let off := if isMirror off0 then off0 - 0x4000000 else off0
  let w := if m.hdr.size = 3 then 8 else if m.hdr.size = 2 then 4 else 0
  if s.area a ≠ Area.control ∨ selOf off w = Sel.reserved then
    (if s.area a = Area.control then s.accErr r off .reserved else s).replyTo m 2 []
  else if m.op = 0x41 then
    let (st, s) := s.localWrite r off w (leAt m.data 0 w)
    let s := match st with | some x => s.put (Reg.gaitBcastStat r.val) x | none => s
    s.replyTo m 0 []
  else
    let (v, st, s) := s.localRead r off w (!bc) false
    let s := match st with | some x => s.put (Reg.gaitBcastStat r.val) x | none => s
    s.replyTo m 0 (toLe v 8)

/-! ### A message whole -/

/-- A message that has come through a port: passed on where it is another package's, else handled by its opcode (Table 15-5). -/
def State.handleMsg (s : State) (p : Fin 2) (m : SciMsg) : State :=
  if m.hdr.dst.toNat ≠ s.ownPkg then s.forwardMsg p m
  else if m.op = 0x00 then s.serveRd m
  else if m.op = 0x01 then s.serveWr m
  else if m.op = 0x10 ∨ m.op = 0x11 ∨ m.op = 0x50 ∨ m.op = 0x51 then
    s.completeReq p m.hdr.tag.toNat m.hdr.status.toNat m.hdr.src.toNat m.data
  else if m.op = 0x20 then s.ownPush m
  else if m.op = 0x21 then s.ownDone m
  else if m.op = 0x22 then s.ownVer m
  else if m.op = 0x30 then
    { s with hitch := { s.hitch with msis := s.hitch.msis ++ [(m.hdr.operand.toNat, leAt m.data 0 8)] } }
  else if m.op = 0x31 then s.contribution m
  else if m.op = 0x40 ∨ m.op = 0x41 then s.serveDebug m
  else s

/-- The arrival of a message at a port in ACTIVE. -/
def State.arrive (s : State) (p : Fin 2) (op : Nat) (h : SciHdr) (data : List Byte) : Outcome State Fault Refusal :=
  s.sciDo (fun s => if s.sciSt p = 7 then s.handleMsg p ⟨op, h, data⟩ else s)

/-- RD. -/
def execRd (p : Fin 2) (h : SciHdr) (s : State) : Outcome State Fault Refusal := s.arrive p 0x00 h []

/-- WR. -/
def execWr (p : Fin 2) (h : SciHdr) (data : List Byte) (s : State) : Outcome State Fault Refusal := s.arrive p 0x01 h data

/-- RDR. -/
def execRdr (p : Fin 2) (h : SciHdr) (data : List Byte) (s : State) : Outcome State Fault Refusal := s.arrive p 0x10 h data

/-- WRA (R514). -/
def execWra (p : Fin 2) (h : SciHdr) (s : State) : Outcome State Fault Refusal := s.arrive p 0x11 h []

/-- OWN_PUSH (R512). -/
def execOwnPush (p : Fin 2) (h : SciHdr) (data : List Byte) (s : State) : Outcome State Fault Refusal := s.arrive p 0x20 h data

/-- OWN_DONE (R512). -/
def execOwnDone (p : Fin 2) (h : SciHdr) (s : State) : Outcome State Fault Refusal := s.arrive p 0x21 h []

/-- OWN_VER (R513). -/
def execOwnVer (p : Fin 2) (h : SciHdr) (s : State) : Outcome State Fault Refusal := s.arrive p 0x22 h []

/-- MSI. -/
def execMsi (p : Fin 2) (h : SciHdr) (data : List Byte) (s : State) : Outcome State Fault Refusal := s.arrive p 0x30 h data

/-- CONTRIB (R508, R509). -/
def execContrib (p : Fin 2) (h : SciHdr) (data : List Byte) (s : State) : Outcome State Fault Refusal := s.arrive p 0x31 h data

/-- CRD (R517). -/
def execCrd (p : Fin 2) (h : SciHdr) (s : State) : Outcome State Fault Refusal := s.arrive p 0x40 h []

/-- CWR (R516). -/
def execCwr (p : Fin 2) (h : SciHdr) (data : List Byte) (s : State) : Outcome State Fault Refusal := s.arrive p 0x41 h data

/-- CRR. -/
def execCrr (p : Fin 2) (h : SciHdr) (data : List Byte) (s : State) : Outcome State Fault Refusal := s.arrive p 0x50 h data

/-- CWA (R516). -/
def execCwa (p : Fin 2) (h : SciHdr) (s : State) : Outcome State Fault Refusal := s.arrive p 0x51 h []

/-! ### Negotiation (R489 to R491, R502 to R507) -/

/-- The number of the device `hops` away through a port of the lead (R489). -/
def wheelNumber (p : Fin 2) (hops : Nat) : Nat := if p.val = 0 then hops else 4 - hops

/-- Whether some Hoard shard's HOME names a package: the shard plan names it as a home (R503). -/
def State.planNames (s : State) (n : Nat) : Bool :=
  (List.range 16).any (fun t => (List.range (s.fld (Reg.hrdTblCfg t) 20 15 + 1)).any (fun sh =>
    decide (bitsN (s.rd64 (Reg.hrdShdHome t sh)) 43 42 = n)))

/-- The refusal reason of R503 for a device `hops` away through a port; 0 for none. A device that is already a member closes a loop
(R491), wherever it would be numbered. -/
def State.refusal (s : State) (p : Fin 2) (l : LinkRec) (hops : Nat) : Nat :=
  let n := wheelNumber p hops
  let c := l.classes.toNat
  let us := s.rd Reg.gaitFrmPeriod
  let here := s.hitch.members.filter (fun (m : Member) => m.attached)
  if bitsN l.rev.toNat 7 4 ≠ 1 ∨ bitsN l.rev.toNat 3 0 < 2 then 1
  else if ¬ bitN c 3 ∨ ¬ bitN c 4 then 2
  else if us < 1000 * l.minPeriod.toNat ∨ 1000 * l.maxPeriod.toNat < us then 3
  else if l.serial = s.install.serial ∨ here.any (fun m => m.serial == l.serial.toNat) then 5
  else if 3 < hops ∨ here.any (fun m => m.num == n) then 4
  else if hops = 1 ∧ s.hitch.ports[p].peerLead then 6
  else if ¬ bitN c 1 ∧ s.planNames n then 7
  else 0

/-- CAP at the lead: ASSIGN, or REFUSE and HOLD of the link the device is on. -/
def State.leadCap (s : State) (p : Fin 2) (l : LinkRec) : State :=
  let hops := (s.hitch.members.filter (fun (m : Member) => m.attached && m.port == p)).length + 1
  let why := s.refusal p l hops
  if why ≠ 0 then
    let s := (s.sendRec p 4 { l with reason := BitVec.ofNat 8 why }).count Cnt.sciCntRefuse
    let s := s.logEvent 0x50 pkgUnit 0 (1 + 2 ^ 8 * p.val + 2 ^ 12 * why + 2 ^ 32 * (l.serial.toNat % 2 ^ 32))
    if s.sciSt p = 6 then (s.sciPump).setSciSt p 9 else s
  else
    let n := wheelNumber p hops
    let agreed := l.classes &&& s.ownRec.classes
    let read := min l.maxRead.toNat s.ownRec.maxRead.toNat
    let m : Member := ⟨n, l.serial.toNat, agreed.toNat, p, hops, false⟩
    let s := { s with hitch := { s.hitch with
      members := s.hitch.members.filter (fun (x : Member) => x.serial ≠ m.serial ∧ x.num ≠ n) ++ [m] } }
    s.sendRec p 2 { l with number := BitVec.ofNat 8 n, hops := BitVec.ofNat 8 hops, agreed := agreed, agreedRead := BitVec.ofNat 8 read }

/-- A member joined: its bit in the mask, in the route of its port and in every inbox's expected sources. -/
def State.joinMember (s : State) (p : Fin 2) (n : Nat) : State :=
  let s := s.setMembers (s.memberMask ||| 2 ^ n)
  let o : Fin 2 := 1 - p
  let r := s.rd (Reg.sciRoute o)
  let s := (s.orReg (Reg.sciRoute p) (2 ^ n)).put (Reg.sciRoute o) (r - (r &&& 2 ^ n))
  (List.range 16).foldl (fun (s : State) t => s.orReg (Reg.sciInboxStat t) (2 ^ (16 + n))) s

/-- A port enters ACTIVE with its peer's number. -/
def State.activate (s : State) (p : Fin 2) (peer : Nat) : State :=
  if s.sciSt p = 6 then (s.putF (Reg.sciState p) 9 8 peer).setSciSt p 7 else s

/-- ACCEPT at the lead. -/
def State.leadAccept (s : State) (p : Fin 2) (l : LinkRec) : State :=
  match s.hitch.members.find? (fun (m : Member) => m.serial == l.serial.toNat && m.port == p && !m.attached) with
  | none => s
  | some m =>
    let s := { s with hitch := { s.hitch with
      members := s.hitch.members.map (fun (x : Member) => if x.serial = m.serial then { x with attached := true } else x) } }
    let s := s.joinMember p m.num
    let s := if m.hops = 1 then (s.put (Reg.sciPeerCap p) m.classes).activate p m.num else s
    if m.hops = 1 then s.sendTime p else s

/-- Whether a wheel was numbered upward from the lead's port 0 (R489). -/
def State.ascending (s : State) : Bool :=
  match s.hitch.up with
  | some u => decide (s.fld (Reg.sciState u) 9 8 + 1 = s.ownPkg)
  | none => true

/-- ASSIGN taken by the wheel it names (R490, R502, R507): its number, its up port, ACCEPT. It adopts the lead's frame number, which no
record carries, at the next boundary (a free value, log 46); with ingest enabled in Walk it goes on to Trot. -/
def State.takeAssign (s : State) (p : Fin 2) (l : LinkRec) : State :=
  let n := l.number.toNat % 4
  let hops := l.hops.toNat
  let between := if n = hops then (List.range n) else 0 :: (List.range 4).filter (fun k => n < k)
  let mask := between.foldl (fun m k => m ||| 2 ^ k) 0
  let peer := if hops ≤ 1 then 0 else if n = hops then n - 1 else n + 1
  let s := s.setHitchStat (n + 8 + 16 * mask)
  let s := { s with hitch := { s.hitch with up := some p } }
  let s := ((s.put (Reg.sciRoute p) (15 - 2 ^ n)).put (Reg.sciPeerCap p) l.agreed.toNat).putB (Reg.sciState p) 10 true
  let s := s.sendRec p 3 { s.ownRec with number := l.number, hops := l.hops, agreed := l.agreed, agreedRead := l.agreedRead }
  let s := (s.sciPump).activate p peer
  let (f, s) := s.freeBits 32
  let s := { s with hitch := { s.hitch with adopt := some f } }
  let s := if s.bit Reg.ingCtrl 0 ∧ s.gaitN = 1 ∧ s.gait.trans = .none then s.beginWalkToTrot false else s.runWake
  let o : Fin 2 := 1 - p
  match s.hitch.ports[o].cap with
  | some c => (s.modSci o (fun q => { q with cap := none })).sendRec p 1 c
  | none => s

/-- The far port of an assigned wheel for a record that came in on `p`. -/
def State.farPort (s : State) (p : Fin 2) : Option (Fin 2) :=
  match s.hitch.up with
  | some u => if u = p then some (1 - p) else none
  | none => none

/-- A record relayed away from the lead. -/
def State.relayDown (s : State) (p : Fin 2) (ty : Nat) (l : LinkRec) : State :=
  match s.farPort p with
  | some o => s.sendRec o ty l
  | none => s

/-- CAP: the lead answers it, an assigned wheel passes it up, and a wheel with no lead yet keeps it. -/
def State.recCap (s : State) (p : Fin 2) (l : LinkRec) : State :=
  if s.bit Reg.sciHitchStat 2 then s.leadCap p l
  else match s.hitch.up with
    | some u => if u = p then s else s.sendRec u 1 l
    | none => s.modSci p (fun q => { q with cap := some l })

/-- ASSIGN. -/
def State.recAssign (s : State) (p : Fin 2) (l : LinkRec) : State :=
  if s.bit Reg.sciHitchStat 2 then s
  else if s.hitch.up.isNone ∧ s.sciSt p = 6 ∧ l.serial = s.install.serial then s.takeAssign p l
  else s.relayDown p 2 l

/-- ACCEPT: the lead records it; an assigned wheel passes it up, and its far port becomes active with its neighbour's. -/
def State.recAccept (s : State) (p : Fin 2) (l : LinkRec) : State :=
  if s.bit Reg.sciHitchStat 2 then s.leadAccept p l
  else match s.hitch.up with
    | none => s
    | some u =>
      if u = p then s
      else
        let far := ((List.range 4).filter (bitN (s.rd (Reg.sciRoute p)))).length + 1
        let n := if s.ascending then s.ownPkg + far else s.ownPkg - far
        let s := (s.joinMember p (n % 4)).sendRec u 3 l
        let s := if s.sciSt p = 6 then s.put (Reg.sciPeerCap p) l.agreed.toNat else s
        s.activate p (n % 4)

/-- REFUSE: the refused link goes to HOLD; a wheel passes on one that is not its own. -/
def State.recRefuse (s : State) (p : Fin 2) (l : LinkRec) : State :=
  if s.sciSt p = 6 then s.setSciSt p 9
  else match s.farPort p with
    | some o =>
      let s := s.sendRec o 4 l
      if s.sciSt o = 6 then (s.sciPump).setSciSt o 9 else s
    | none => s

/-- TIME (R505, R506): the offset measured, the time base moved forward to the lead's, the next boundary taken, and with it the period
of the frame in progress; a wheel's frame timer starts with it. -/
def State.recTime (s : State) (p : Fin 2) (l : LinkRec) (delay : Nat) : State :=
  if s.hitch.up ≠ some p then s
  else
    let t := l.leadTime.toNat + delay
    let s := s.put Reg.sciTimeOfs (unsint 32 ((t : Int) - (s.time : Int)))
    let s := s.at_ t
    if l.nextBoundary = 0 then s
    else
      let nb := l.nextBoundary.toNat
      if s.bit Reg.gaitStat 6 then
        let s := if s.hitch.adopt.isSome ∧ nb ≠ s.frm.nextB then { s with hitch := { s.hitch with shifted := true } } else s
        s.modFrm (fun f => { f with nextB := nb, period := if f.atOrigin ∨ nb ≤ f.lastB then f.period else nb - f.lastB })
      else (s.putB Reg.gaitStat 6 true).modFrm (fun f => { f with atOrigin := true, nextB := nb, period := 1000 * s.rd Reg.gaitFrmPeriod })

/-- DETACH (R518): the member leaves the hitch; the word goes on toward the lead, or away from it. -/
def State.recDetach (s : State) (p : Fin 2) (l : LinkRec) : State :=
  let n := l.number.toNat % 4
  let drop := fun (s : State) (q : Fin 2) => let r := s.rd (Reg.sciRoute q); s.put (Reg.sciRoute q) (r - (r &&& 2 ^ n))
  if s.bit Reg.sciHitchStat 2 then ((s.detachMask p (2 ^ n) l.serial.toNat).tryMerge).put (Reg.sciRoute p) ((drop s p).rd (Reg.sciRoute p))
  else match s.hitch.up with
    | none => s
    | some u =>
      if u = p ∧ n = s.ownPkg then
        let s := { s.setHitchStat 0 with hitch := { s.hitch with up := none, adopt := none, shifted := false } }
        ((s.put (Reg.sciRoute p) 0).put (Reg.sciPeerCap p) 0).setSciSt p 6
      else
        let s := s.detachMask p (2 ^ n) l.serial.toNat
        if u = p then s.relayDown p 6 l else (drop s p).sendRec u 6 l

/-- A link-control record by its type (Table 15-6). -/
def State.handleRec (s : State) (p : Fin 2) (ty : Nat) (l : LinkRec) (delay : Nat) : State :=
  if s.sciSt p ≠ 6 ∧ s.sciSt p ≠ 7 then s
  else if ty = 1 then s.recCap p l
  else if ty = 2 then s.recAssign p l
  else if ty = 3 then s.recAccept p l
  else if ty = 4 then s.recRefuse p l
  else if ty = 5 then s.recTime p l delay
  else if ty = 6 then s.recDetach p l
  else s

/-- CAP. -/
def execCap (p : Fin 2) (l : LinkRec) (s : State) : Outcome State Fault Refusal := s.sciDo (fun s => s.handleRec p 1 l 0)

/-- ASSIGN. -/
def execAssign (p : Fin 2) (l : LinkRec) (s : State) : Outcome State Fault Refusal := s.sciDo (fun s => s.handleRec p 2 l 0)

/-- ACCEPT. -/
def execAccept (p : Fin 2) (l : LinkRec) (s : State) : Outcome State Fault Refusal := s.sciDo (fun s => s.handleRec p 3 l 0)

/-- REFUSE. -/
def execRefuse (p : Fin 2) (l : LinkRec) (s : State) : Outcome State Fault Refusal := s.sciDo (fun s => s.handleRec p 4 l 0)

/-- TIME: `delay` is the link delay measured, in ns. -/
def execTime (p : Fin 2) (l : LinkRec) (delay : Nat) (s : State) : Outcome State Fault Refusal := s.sciDo (fun s => s.handleRec p 5 l delay)

/-- DETACH. -/
def execDetach (p : Fin 2) (l : LinkRec) (s : State) : Outcome State Fault Refusal := s.sciDo (fun s => s.handleRec p 6 l 0)

/-! ### Flits (R493 to R496) -/

/-- Flits acknowledged up to a SEQ leave the retry buffer. -/
def State.ackFlits (s : State) (p : Fin 2) (seq : Nat) : State :=
  let q := s.hitch.ports[p]
  match q.unacked.findIdx? (fun x => x.1 == seq) with
  | some i => let now := s.time; s.modSci p (fun q => { q with unacked := q.unacked.drop (i + 1), replays := 0, since := now })
  | none => s

/-- A credit-return word taken. -/
def State.takeCredit (s : State) (p : Fin 2) (w : Nat) : State :=
  if ¬ bitN w 3 then s
  else s.modSci p (fun q => { q with
    credits := Vector.ofFn (fun i : Fin 6 => if i.val = bitsN w 2 0 then q.credits[i] + bitsN w 15 4 else q.credits[i]) })

/-- The oldest flit replayed, or RETRAIN after four replays without acknowledgement (R496). -/
def State.replayOrRetrain (s : State) (p : Fin 2) : State :=
  let q := s.hitch.ports[p]
  if q.unacked.isEmpty then s else if 4 ≤ q.replays then s.sciRetrain p else s.replay p

/-- The messages that have come whole, handled; the buffer they held is owed back as credit. -/
def State.drainRx (s : State) (p : Fin 2) : Nat → State
  | 0 => s
  | n + 1 =>
    let b := s.hitch.ports[p].rxBuf
    if b.length < 8 then s
    else if (b.take 8).all (· == 0) then (s.modSci p (fun q => { q with rxBuf := b.drop 8 })).drainRx p n
    else match parseMsg b with
      | none => s
      | some (m, rest) =>
        let s := s.modSci p (fun q => { q with
          rxBuf := rest, owed := Vector.ofFn (fun i : Fin 6 => if i.val = m.vc then q.owed[i] + m.units else q.owed[i]) })
        (s.handleMsg p m).drainRx p n

/-- The flit expected next, taken (Table 15-3): a link-control record, or 30 units of messages. -/
def State.takeFlit (s : State) (p : Fin 2) (ty : Nat) (payload : List Byte) : State :=
  let s := s.modSci p (fun q => { q with ackDue := true, rxNext := (q.rxNext + 1) % 4096 })
  if ty = 2 then
    match parseRec payload with
    | some (k, l) => s.handleRec p k l 0
    | none => s
  else if s.sciSt p ≠ 7 then s
  else
    let s := s.modSci p (fun q => { q with rxBuf := q.rxBuf ++ payload })
    s.drainRx p (s.hitch.ports[p].rxBuf.length / 8 + 1)

/-- A flit received. After one with a bad CRC, every flit but the one expected next is discarded (R495). -/
def State.flitIn (s : State) (p : Fin 2) (flit : List Byte) : State :=
  if s.sciSt p ≠ 6 ∧ s.sciSt p ≠ 7 then s
  else if flit.length ≠ 256 ∨ leAt flit 0xFC 4 ≠ crc32c (flit.take 0xFC) then
    (s.count (Cnt.sciCntCrc p)).modSci p (fun q => { q with discarding := true, nakDue := true })
  else
    let seq := leAt flit 0 2 % 4096
    let ty := bitsN (leAt flit 0 2) 13 12
    if s.hitch.ports[p].discarding ∧ seq ≠ s.hitch.ports[p].rxNext then s else
    let s := s.modSci p (fun q => { q with discarding := false })
    let ack := leAt flit 2 2
    let s := if bitN ack 12 then s.ackFlits p (ack % 4096) else s
    let s := (s.takeCredit p (leAt flit 4 2)).takeCredit p (leAt flit 6 2)
    let s := if bitN ack 13 then s.replayOrRetrain p else s
    if ty = 1 ∨ ty = 3 then s
    else if seq = s.hitch.ports[p].rxNext then s.takeFlit p ty ((flit.drop 8).take 240)
    else s.modSci p (fun q => { q with ackDue := true })

/-- SCI_FLIT_RECEIVE. -/
def execSciFlitReceive (p : Fin 2) (flit : List Byte) (s : State) : Outcome State Fault Refusal := s.sciDo (fun s => s.flitIn p flit)

/-- SCI_ACK_TIMEOUT (R495, R496). -/
def execSciAckTimeout (p : Fin 2) (s : State) : Outcome State Fault Refusal :=
  s.sciDo (fun s =>
    if (s.sciSt p = 6 ∨ s.sciSt p = 7) ∧ ¬ s.hitch.ports[p].unacked.isEmpty then
      (s.at_ (s.hitch.ports[p].since + 2000)).replayOrRetrain p
    else s)

/-! ### Timeouts and periodic work -/

/-- SCI_REQUEST_TIMEOUT (R501). -/
def execSciRequestTimeout (p : Fin 2) (tag : BitVec 16) (s : State) : Outcome State Fault Refusal :=
  s.sciDo (fun s => match s.hitch.ports[p].reqs.find? (fun r => r.tag == tag.toNat) with
    | some r => ((s.at_ r.due).count (Cnt.sciCntTmo p)).completeReq p r.tag 3 r.dst []
    | none => s)

/-- SCI_TIME_SEND (R505). -/
def execSciTimeSend (p : Fin 2) (s : State) : Outcome State Fault Refusal :=
  s.sciDo (fun s => if s.bit Reg.sciHitchStat 2 ∨ s.bit Reg.sciHitchStat 3 then s.sendTime p else s)

/-- CONTRIB_WAIT_EXPIRY (R509). -/
def execContribWaitExpiry (s : State) : Outcome State Fault Refusal :=
  s.sciDo (fun s => match s.hitch.verdict with
    | none => s
    | some v =>
      let s := s.at_ (v.since + 1000 * s.rd Reg.sciContribWait)
      match s.epoch? v.frame with
      | some e => s.commitMerged e v
      | none => s.tryMerge)

/-- HITCH_BROADCAST_TIMEOUT (R516, R517): the oldest broadcast still waiting ends. -/
def execHitchBroadcastTimeout (s : State) : Outcome State Fault Refusal :=
  if ¬ s.alive then .next s else
  match s.hitch.bcasts with
  | [] => .next s
  | b :: _ => .next ((s.at_ b.until_).bcastFinish b)

/-- WHEEL_AWAIT_LOG (R490): once at each whole second of the time base (log 124). -/
def execWheelAwaitLog (s : State) : Outcome State Fault Refusal :=
  if ¬ s.sciOn ∨ s.bit Reg.sciHitchStat 2 ∨ s.bit Reg.sciHitchStat 3 then .next s
  else .next ((s.at_ ((s.time / 1000000000 + 1) * 1000000000)).logEvent 0x50 pkgUnit 0 3)

end Sys2Proof.Machine
end

