-- ==== Sys2Proof/Machine/Boundary.lean ====
section
/-! DEFINITION. The frame boundary (R32): the frame that ends closes, the next one begins, settings come into force, management requests are
applied or discarded, and the next epoch opens. -/

namespace Sys2Proof.Machine

open Host

/-! ### The data path at a boundary (R599, R601) -/

/-- The frame in progress closes at `b`: its epoch, if live, takes the ports covered there and the window and deadline in force from
the boundary on (R51, R93, R103, R113). -/
def State.closeFrame (s : State) (n b : Nat) : State :=
  let good := s.goodPorts
  let w := s.fld Reg.portLateWin 6 0 * 10000
  let dl := max (s.rd Reg.ingPoseDl * 1000) w
  let s := s.modFrm (fun f => { f with lastClosed := some n, cposeDl := b + dl, cposeDone := false, closedGood := good })
  s.modEpoch n (fun e => { e with
    closed := true, closeT := b, covered := good, absent := 255 - good, lateWin := w
    poseDl := dl })

/-- Frame n − 2 abandoned at B(n) where it has not committed (R62). -/
def State.abandonOverrun (s : State) (n : Nat) : State :=
  match s.frm.live.find? (fun e => (e.frame + 2) % 2 ^ 32 == n) with
  | some e => s.abandon e
  | none => s

/-- The period of the frame that begins at `b`, in ns: the register, but on the lead of a hitch a write made less than 10 µs before
the boundary waits for the following one, and a wheel keeps the period it took from TIME (R31, R506). -/
def State.nextPeriod (s : State) (b : Nat) : Nat :=
  if s.isWheel && decide (s.frm.period ≠ 0) then s.frm.period
  else if s.leadsHitch && decide (b < s.frm.perWrite + 10000) then 1000 * s.frm.perPrev else 1000 * s.rd Reg.gaitFrmPeriod

/-- Frame `m` begins at `b`. -/
def State.beginFrame (s : State) (m b : Nat) : State :=
  let per := s.nextPeriod b
  (s.put Reg.gaitFrmNum m).modFrm (fun f => { f with
    atOrigin := false, prevB := f.lastB, lastB := b, period := per, nextB := b + per
    bounds := (m, b) :: f.bounds.take 3 })

/-- A wheel newly assigned takes the lead's frame number; its live epochs are abandoned where the number or the boundary differs
(R507). -/
def State.adoptNumber (s : State) (b : Nat) : State :=
  match s.hitch.adopt with
  | none => s
  | some f =>
    let shifted := s.hitch.shifted
    let s := { s with hitch := { s.hitch with adopt := none, shifted := false } }
    if f = s.frameNum ∧ ¬ shifted then s
    else
      let s := s.abandonAll.put Reg.gaitFrmNum f
      s.modFrm (fun fr => { fr with bounds := [(f, b)], nextOpen := fr.nextOpen.map (fun _ => f) })

/-- STATE of the in-service tiles: 2 for one that held an item of a live epoch in the frame just ended, else 1 (R599). -/
def State.tileStates (s : State) : State :=
  (List.finRange 32).foldl (fun (s : State) (t : TileId) =>
    let st := s.tileState t
    let s := if st = 1 ∨ st = 2 then s.setTileState t (if s.tiles[t].worked then 2 else 1) else s
    s.modTile t (fun tl => { tl with worked := tl.items.any (fun w => w.frame.isSome) })) s

/-! ### Management requests (R223, R598) -/

/-- A tile taken out of service: its items are withdrawn as a failed tile's are (log 47). -/
def State.takeOut (s : State) (t : TileId) : State :=
  let items : List Work := s.tiles[t].items
  let s := s.setTileState t 5
  let s := (s.resetTile t).stopTile t
  (s.orReg Reg.evtOosStat (2 ^ t.val)).withdrawTile t items

/-- A request of Table 06-6 that matched, carried out. -/
def State.mgmtApply (s : State) (t : TileId) (code : Nat) : State :=
  let st := s.tileState t
  let there := s.tileReach t
  if code = 1 then
    (if st = 5 ∧ there then (s.setTileState t 1).putB Reg.evtOosStat t.val false else s)
  else if code = 2 then (if st = 1 ∨ st = 2 then s.takeOut t else s)
  else if code = 3 then s.tileResetNow t
  else if st = 4 ∧ there then s.modTile t (fun tl => { tl with selfTest := true })
  else s

/-- A tile's waiting request, applied or discarded. -/
def State.tileRequest (s : State) (t : TileId) : State :=
  match s.tiles[t].mgmt with
  | none => s
  | some m =>
    let s := s.modTile t (fun tl => { tl with mgmt := none })
    if m.matched ∧ ¬ m.changed then (s.mgmtApply t m.code).putB (Reg.tileMgmtStat t) 1 true
    else (s.putB (Reg.tileMgmtStat t) 0 true).mismatch m.req t m.off m.gen (s.fld (Reg.tileState t) 31 16)

/-- HOME takes NEXT, for every epoch that is live too (R333). -/
def State.switchHome (s : State) (k sh : Nat) : State :=
  let o := Reg.hrdShdHome k sh
  let v := s.rd64 (Reg.hrdShdNext k sh)
  let set := fun (m : List (Nat × W32)) =>
    spSet regReset (spSet regReset m o (BitVec.ofNat 32 v)) (o + 4) (BitVec.ofNat 32 (v / 2 ^ 32))
  ({ s with regs := set s.regs, inForce := set s.inForce }).mapLive (fun e => { e with conf := set e.conf })

/-- A shard's waiting request, applied or discarded (R331, R333, R335). -/
def State.shardRequest (s : State) (k sh : Nat) : State :=
  match (s.shardAt k sh).req with
  | none => s
  | some m =>
    let s := s.modShard k sh (fun x => { x with req := none })
    if m.matched ∧ ¬ m.changed then
      let s := s.putB (Reg.hrdShdState k sh) 3 false
      if m.code = 1 then s.setShard k sh 1
      else if m.code = 2 then
        ((s.switchHome k sh).setShard k sh 0).modShard k sh (fun x => { x with
          switching := true, old := s.rd64 (Reg.hrdShdHome k sh) / 64 * 64 :: x.old })
      else if s.bit (Reg.hrdShdState k sh) 0 then s.setShard k sh (s.fld (Reg.hrdShdState k sh) 1 0 - 1)
      else s
    else (s.putB (Reg.hrdShdState k sh) 3 true).mismatch m.req pkgUnit m.off m.gen (s.fld (Reg.hrdShdState k sh) 31 16)

/-- Every waiting request: tiles, ports, shards. -/
def State.requests (s : State) : State :=
  let s := (List.finRange 32).foldl (fun (s : State) (t : TileId) => s.tileRequest t) s
  let s := (List.finRange 8).foldl (fun (s : State) (p : PortId) => s.portRequest p) s
  let waiting := (s.shards.filter (fun x => x.2.req.isSome)).map (·.1)
  waiting.foldl (fun (s : State) i => s.shardRequest (i / 64) (i % 64)) s

/-! ### Ingest at a boundary (R149, R557) -/

/-- The late-arrival window coming into force raises the configuration event where it exceeds the pose deadline (R51, R93). -/
def State.windowEvent (s : State) (old : Nat) : State :=
  let w := s.lateWindow
  let d := s.rd Reg.ingPoseDl
  if w ≠ old ∧ 1000 * d < w then s.logEvent 0x0003 pkgUnit 0 (d + 2 ^ 32 * (w / 1000)) else s

/-- EN as it stands decides whether epochs open: none from this boundary on where it is 0; from this frame on where it is 1 and Trot
has been reached. -/
def State.ingestBoundary (s : State) (m : Nat) : State :=
  if ¬ s.bit Reg.ingCtrl 0 then s.modFrm (fun f => { f with nextOpen := none, stopped := true })
  else if s.frm.nextOpen.isNone ∧ 2 ≤ s.gaitN then s.modFrm (fun f => { f with nextOpen := some m, stopped := false })
  else s

/-- FRAME_BOUNDARY: the timer's next boundary, or its origin, is reached (R32, R563, R564). -/
def execFrameBoundary (s : State) : Outcome State Fault Refusal :=
  if ¬ s.alive ∨ ¬ s.bit Reg.gaitStat 6 then .next s
  else
    let b := s.frm.nextB
    let s := s.at_ b
    let origin := s.frm.atOrigin
    let n := s.frameNum
    let s := if origin then s else (s.closeFrame n b).abandonOverrun n
    let s := s.beginFrame (if origin then n else (n + 1) % 2 ^ 32) b
    let s := (s.adoptNumber b).tileStates.dropPorts
    let oldW := s.lateWindow
    let s := { s with inForce := s.regs, forceWritten := s.written }
    let s := (s.windowEvent oldW).requests
    let s := (s.ingestBoundary s.frameNum).openEpochs
    .next s.freeSlots.tryPromote.refreshBusy

/-! ### No command waiting (log 2) -/

/-- The time base a nanosecond on: with a correction to slew, one more or one fewer in every 10,000, 100 ppm (R77). -/
def State.advanceTime (s : State) : State :=
  let q := s.gait
  if q.slew = 0 ∨ ¬ s.vehicleTime then { s with time := s.time + 1 }
  else if q.slewIn ≠ 0 then { s.modGait (fun q => { q with slewIn := q.slewIn - 1 }) with time := s.time + 1 }
  else
    { s.modGait (fun q => { q with slew := if 0 < q.slew then q.slew - 1 else q.slew + 1, slewIn := 9999 }) with
      time := if 0 < q.slew then s.time + 2 else s.time }

/-- One nanosecond with no command: the time base moves on, and what the SCI ports owe their links is sent (R561, R495). With every
clock stopped (R573), or held in power-on reset, nothing happens. -/
def State.tick (s : State) : State := if s.alive then s.advanceTime.sciPump else s

end Sys2Proof.Machine
end

