-- ==== Sys2Proof/Machine/Bus.lean ====
section
/-! DEFINITION. The memory system's own events (13_memory.md, 20_electrical.md): copy descriptors, the patrol scrubber, the LPDDR5X
controllers, and inbound PCI Express requests. -/

namespace Sys2Proof.Machine

open Host

/-- COPY_DESCRIPTOR_COMPLETE (R444): the descriptor at a channel's TAIL ends. On channel 0 a pair runs only once the tile scheduler has
filled it (R446). `data` is what a PCI Express source supplied, `err` a completion error there. -/
def execCopyDescriptorComplete (c : Fin 4) (pcieData : List Byte) (pcieErr : Bool) (s : State) : Outcome State Fault Refusal :=
  if ¬ s.alive ∨ s.gaitN = 0 then .next s
  else if (c.val = 0 ∧ s.copy[c].fill.isEmpty) ∨ s.cpyWaiting c.val = 0 then .next s
  else .next (s.cpyRun c pcieData pcieErr)

/-- A correctable error that arises in memory at a local address (R424, R429): where there is ECC it stands until a read corrects it or a
write covers it. -/
def State.softAt (s : State) (a : Nat) : State :=
  let u := eccUnit a
  let ecc := decide (a < 0x8000000) || s.install.inlineEcc
  if s.isMem a && ecc && !(s.mem.soft.contains u) && !(s.mem.bad.any (fun w => w.1 == u)) then
    { s with mem := { s.mem with soft := u :: s.mem.soft } }
  else s

/-- A correctable error that arises (R584, log 121): in an SRAM of a free class of Table 18-7, met and corrected by a read, or at a free
address of memory. -/
def State.upset (s : State) : State :=
  let (k, s) := s.freeBits 3
  let (a, s) := s.freeBits 42
  if k < 4 then s.count (Cnt.evtCntSramCe k) else s.softAt a

/-- The correctable errors that have arisen since the scrubber's last line: their number is a free value (log 121). -/
def State.upsets (s : State) : State :=
  let (b, s) := s.fresh 1
  (List.range (Config.freeNat b)).foldl (fun (s : State) _ => s.upset) s

/-- PATROL_SCRUB (R424, R584): correctable errors that have arisen come in, those of an SRAM counted by class as the read that met
and corrected them; then the next 64-byte line of each half is read, corrected, and what it holds counted. -/
def execPatrolScrub (s : State) : Outcome State Fault Refusal :=
  if ¬ s.alive ∨ s.gaitN = 0 then .next s
  else
    let s := s.upsets
    let l := 64 * s.ddr.scrub
    let s := (s.readMeets l 64).readMeets (0x4000000 + l) 64
    .next { s with ddr := { s.ddr with scrub := (s.ddr.scrub + 1) % 2 ^ 20 } }

/-- REFRESH_RATE_READ (R430): the rate code the controller sets its refresh interval from. -/
def execRefreshRateRead (c : Fin 2) (rate : BitVec 8) (s : State) : Outcome State Fault Refusal :=
  if ¬ s.alive ∨ s.gaitN = 0 then .next s
  else .next { s with ddr := { s.ddr with rate := s.ddr.rate.set c rate.toNat } }

/-- DQS_OSCILLATOR_CHECK (R652): drift in 1/64 UI; beyond 1/16 UI write DQ is retrained. -/
def execDqsOscillatorCheck (c : Fin 2) (drift : BitVec 8) (s : State) : Outcome State Fault Refusal :=
  if ¬ s.alive ∨ s.gaitN = 0 ∨ drift.toNat ≤ 4 then .next s
  else .next { s with ddr := { s.ddr with retrains := s.ddr.retrains.set c (s.ddr.retrains[c] + 1) } }

/-! ### Inbound PCI Express (R447, R452) -/

/-- The completion of an inbound request: status (0 successful, 1 Unsupported Request), data, lines carrying EP. -/
def State.pcieCpl (s : State) (status : Nat) (bs : List Byte) (ep : List Nat) : State :=
  { s with pcie := { s.pcie with lastCpl := (status, bs, ep) } }

/-- A request through BAR0: requester 8 of control space (R626); a reserved address, width or alignment is Unsupported (R419). -/
def State.pcieControl (s : State) (write : Bool) (off len : Nat) (data : List Byte) : State :=
  let r : ReqId := 8
  let bad := decide (2 ^ 28 ≤ off) || decide (selOf off len = Sel.reserved)
  if write then
    (if 2 ^ 28 ≤ off then s else s.csWrite r off len (leNat data)).pcieCpl (b2n bad) [] []
  else
    let s := if 2 ^ 28 ≤ off then s else s.csRead r off len false
    if bad then s.pcieCpl 1 [] []
    else s.pcieCpl 0 (toLe (spGet (fun _ => 0) s.rdata r.val).toNat len) []

/-- A request to memory: a read's bad 64-byte lines arrive as zeros, and the completions that hold them carry EP (R425). -/
def State.pcieMemory (s : State) (write : Bool) (a len : Nat) (data : List Byte) : State :=
  if ¬ s.memRange a len then s.pcieCpl 1 [] []
  else if write then (s.memWrite a data).pcieCpl 0 [] []
  else
    let ws := s.mem.badIn a len
    let lines := (ws.map (fun w => w.1 / 64)).dedup
    (s.readMeets a len).pcieCpl 0 (maskBad a lines (s.mem.bytes a len)) (lines.map (fun l => 64 * l - a / 64 * 64))

/-- PCIE_INBOUND_REQUEST: BAR0 on control space, BAR2 on burrow memory, BAR4 on LPDDR5X, once the boot ROM has enabled the endpoint
(R663). -/
def execPcieInboundRequest (bar : BitVec 3) (write : Bool) (addr len : Nat) (data : List Byte) (s : State) :
    Outcome State Fault Refusal :=
  if ¬ s.alive ∨ s.gaitN = 0 ∨ ¬ s.pcie.endpoint ∨ ¬ s.pcie.ready then .next s
  else
    let n := if write then data.length else len
    if bar = 0 then .next (s.pcieControl write addr n data)
    else if bar = 2 then
      (if addr + n ≤ 0x8000000 then .next (s.pcieMemory write addr n data) else .next (s.pcieCpl 1 [] []))
    else if bar = 4 then .next (s.pcieMemory write (0x1000000000 + addr) n data)
    else .next s

end Sys2Proof.Machine
end

