-- ==== Sys2Proof/Machine/Dispatch.lean ====
section
/-! DEFINITION. Which meaning each command has: one arm for each constructor of `Instr`. -/

namespace Sys2Proof.Machine

/-- The effect of one command on everything but the queue. -/
def exec (i : Instr) (s : State) : Host.Outcome State Fault Refusal :=
  match i with
  | .registerWrite r off w v => Sys2Proof.Machine.execRegisterWrite r off w v s
  | .rcRead r off w counted => Sys2Proof.Machine.execRcRead r off w counted s
  | .framePeriodWrite r us => Sys2Proof.Machine.execFramePeriodWrite r us s
  | .ingCposeGo r => Sys2Proof.Machine.execIngCposeGo r s
  | .epochReinReceive t tag => Sys2Proof.Machine.execEpochReinReceive t tag s
  | .ethFrameReceive p fcsOk frame => Sys2Proof.Machine.execEthFrameReceive p fcsOk frame s
  | .syncTransmit p => Sys2Proof.Machine.execSyncTransmit p s
  | .pdelayReqTransmit p => Sys2Proof.Machine.execPdelayReqTransmit p s
  | .linkUp p => Sys2Proof.Machine.execLinkUp p s
  | .linkDown p => Sys2Proof.Machine.execLinkDown p s
  | .portVerifyRequest r p low => Sys2Proof.Machine.execPortVerifyRequest r p low s
  | .portUnverifyRequest r p low => Sys2Proof.Machine.execPortUnverifyRequest r p low s
  | .portCalCtrlWrite r p slot => Sys2Proof.Machine.execPortCalCtrlWrite r p slot s
  | .portGtimeCtrlWrite r v => Sys2Proof.Machine.execPortGtimeCtrlWrite r v s
  | .litTimeTick p => Sys2Proof.Machine.execLitTimeTick p s
  | .lifeWriteComplete p nack readBack => Sys2Proof.Machine.execLifeWriteComplete p nack readBack s
  | .ingPoseHeadWrite r idx => Sys2Proof.Machine.execIngPoseHeadWrite r idx s
  | .ingCtrlEnSet r ride => Sys2Proof.Machine.execIngCtrlEnSet r ride s
  | .ingCtrlEnClear r ride => Sys2Proof.Machine.execIngCtrlEnClear r ride s
  | .rideAheadWrite r ride => Sys2Proof.Machine.execRideAheadWrite r ride s
  | .sectorClose parity s_ => Sys2Proof.Machine.execSectorClose parity s_ s
  | .kernelMapGenerate parity s_ => Sys2Proof.Machine.execKernelMapGenerate parity s_ s
  | .kernelMapReady parity s_ => Sys2Proof.Machine.execKernelMapReady parity s_ s
  | .dreyLookup t => Sys2Proof.Machine.execDreyLookup t s
  | .dreySplitWrite r level v => Sys2Proof.Machine.execDreySplitWrite r level v s
  | .unitInstructionStart t q => Sys2Proof.Machine.execUnitInstructionStart t q s
  | .unitInstructionRetire t q => Sys2Proof.Machine.execUnitInstructionRetire t q s
  | .handlerEntry t => Sys2Proof.Machine.execHandlerEntry t s
  | .storeBufferAccept t k_ => Sys2Proof.Machine.execStoreBufferAccept t k_ s
  | .swapArm t a => Sys2Proof.Machine.execSwapArm t a s
  | .gatherResponse t k_ => Sys2Proof.Machine.execGatherResponse t k_ s
  | .prefetchRowLand t k_ => Sys2Proof.Machine.execPrefetchRowLand t k_ s
  | .pageWalkEnd t => Sys2Proof.Machine.execPageWalkEnd t s
  | .tileWatchdogExpiry t => Sys2Proof.Machine.execTileWatchdogExpiry t s
  | .sramUncorrectableError c => Sys2Proof.Machine.execSramUncorrectableError c s
  | .tileReset r t => Sys2Proof.Machine.execTileReset r t s
  | .mgmtReturnToService r t gen => Sys2Proof.Machine.execMgmtReturnToService r t gen s
  | .mgmtTakeOutOfService r t gen => Sys2Proof.Machine.execMgmtTakeOutOfService r t gen s
  | .mgmtReset r t gen => Sys2Proof.Machine.execMgmtReset r t gen s
  | .mgmtReleaseQuarantine r t gen => Sys2Proof.Machine.execMgmtReleaseQuarantine r t gen s
  | .tileSelfTestEnd t pass => Sys2Proof.Machine.execTileSelfTestEnd t pass s
  | .itemComplete t => Sys2Proof.Machine.execItemComplete t s
  | .tileWakeComplete t => Sys2Proof.Machine.execTileWakeComplete t s
  | .tileClockGate t => Sys2Proof.Machine.execTileClockGate t s
  | .tileSchedProgWrite r b addr => Sys2Proof.Machine.execTileSchedProgWrite r b addr s
  | .programCheckEnd b => Sys2Proof.Machine.execProgramCheckEnd b s
  | .tileSchedSelWrite r b => Sys2Proof.Machine.execTileSchedSelWrite r b s
  | .tileSchedKick r idx => Sys2Proof.Machine.execTileSchedKick r idx s
  | .shardMig r tbl s_ gen => Sys2Proof.Machine.execShardMig r tbl s_ gen s
  | .shardSwitch r tbl s_ gen => Sys2Proof.Machine.execShardSwitch r tbl s_ gen s
  | .shardCancelMig r tbl s_ gen => Sys2Proof.Machine.execShardCancelMig r tbl s_ gen s
  | .shardSwitchApplied tbl s_ => Sys2Proof.Machine.execShardSwitchApplied tbl s_ s
  | .tileTlbInvWrite r t v => Sys2Proof.Machine.execTileTlbInvWrite r t v s
  | .tlbInvPendClear t => Sys2Proof.Machine.execTlbInvPendClear t s
  | .copyHeadWrite r c v => Sys2Proof.Machine.execCopyHeadWrite r c v s
  | .copyDescriptorComplete c pcieData pcieErr => Sys2Proof.Machine.execCopyDescriptorComplete c pcieData pcieErr s
  | .pcieInboundRequest bar write addr len data => Sys2Proof.Machine.execPcieInboundRequest bar write addr len data s
  | .computeDieBringUp d trained => Sys2Proof.Machine.execComputeDieBringUp d trained s
  | .dieAbsent d cause => Sys2Proof.Machine.execDieAbsent d cause s
  | .bondFlitReceive d p t dataErr ctlErr tag => Sys2Proof.Machine.execBondFlitReceive d p t dataErr ctlErr tag s
  | .bondTimeout d tag => Sys2Proof.Machine.execBondTimeout d tag s
  | .bondTestStart r dies => Sys2Proof.Machine.execBondTestStart r dies s
  | .bondTestDone fail groups => Sys2Proof.Machine.execBondTestDone fail groups s
  | .stackSel v => Sys2Proof.Machine.execStackSel v s
  | .svcRead w64 off => Sys2Proof.Machine.execSvcRead w64 off s
  | .svcWrite w64 off data => Sys2Proof.Machine.execSvcWrite w64 off data s
  | .sciEnable r p rest => Sys2Proof.Machine.execSciEnable r p rest s
  | .sciTrainingSet p e => Sys2Proof.Machine.execSciTrainingSet p e s
  | .sciStateTimeout p => Sys2Proof.Machine.execSciStateTimeout p s
  | .sciFlitReceive p flit => Sys2Proof.Machine.execSciFlitReceive p flit s
  | .sciAckTimeout p => Sys2Proof.Machine.execSciAckTimeout p s
  | .rd p h => Sys2Proof.Machine.execRd p h s
  | .wr p h data => Sys2Proof.Machine.execWr p h data s
  | .rdr p h data => Sys2Proof.Machine.execRdr p h data s
  | .wra p h => Sys2Proof.Machine.execWra p h s
  | .ownPush p h data => Sys2Proof.Machine.execOwnPush p h data s
  | .ownDone p h => Sys2Proof.Machine.execOwnDone p h s
  | .ownVer p h => Sys2Proof.Machine.execOwnVer p h s
  | .msi p h data => Sys2Proof.Machine.execMsi p h data s
  | .contrib p h data => Sys2Proof.Machine.execContrib p h data s
  | .crd p h => Sys2Proof.Machine.execCrd p h s
  | .cwr p h data => Sys2Proof.Machine.execCwr p h data s
  | .crr p h data => Sys2Proof.Machine.execCrr p h data s
  | .cwa p h => Sys2Proof.Machine.execCwa p h s
  | .cap p l => Sys2Proof.Machine.execCap p l s
  | .assign p l => Sys2Proof.Machine.execAssign p l s
  | .accept p l => Sys2Proof.Machine.execAccept p l s
  | .refuse p l => Sys2Proof.Machine.execRefuse p l s
  | .time p l delay => Sys2Proof.Machine.execTime p l delay s
  | .detach p l => Sys2Proof.Machine.execDetach p l s
  | .sciRequestTimeout p tag => Sys2Proof.Machine.execSciRequestTimeout p tag s
  | .sciTimeSend p => Sys2Proof.Machine.execSciTimeSend p s
  | .halterCsFall port => Sys2Proof.Machine.execHalterCsFall port s
  | .poll port bytes => Sys2Proof.Machine.execPoll port bytes s
  | .pollWake port bytes => Sys2Proof.Machine.execPollWake port bytes s
  | .halterMacReady port => Sys2Proof.Machine.execHalterMacReady port s
  | .halterCsRise port bits => Sys2Proof.Machine.execHalterCsRise port bits s
  | .pairLoad r => Sys2Proof.Machine.execPairLoad r s
  | .pairErase r => Sys2Proof.Machine.execPairErase r s
  | .pairWrap r => Sys2Proof.Machine.execPairWrap r s
  | .pairUnwrap r => Sys2Proof.Machine.execPairUnwrap r s
  | .gaitReqWalk r gen => Sys2Proof.Machine.execGaitReqWalk r gen s
  | .gaitReqTrot r gen => Sys2Proof.Machine.execGaitReqTrot r gen s
  | .gaitReqStable r gen => Sys2Proof.Machine.execGaitReqStable r gen s
  | .gaitReqNone r gen => Sys2Proof.Machine.execGaitReqNone r gen s
  | .gaitRequestApply coresIdle => Sys2Proof.Machine.execGaitRequestApply coresIdle s
  | .porstNRise lead testmodeN bootSel => Sys2Proof.Machine.execPorstNRise lead testmodeN bootSel s
  | .gaitRstHostCore r => Sys2Proof.Machine.execGaitRstHostCore r s
  | .gaitRstPackage r => Sys2Proof.Machine.execGaitRstPackage r s
  | .bootImageCheck slotB readError image => Sys2Proof.Machine.execBootImageCheck slotB readError image s
  | .gaitBootDoorbell r => Sys2Proof.Machine.execGaitBootDoorbell r s
  | .gaitSvnAdv r v => Sys2Proof.Machine.execGaitSvnAdv r v s
  | .idkSign r => Sys2Proof.Machine.execIdkSign r s
  | .idkEcdh r => Sys2Proof.Machine.execIdkEcdh r s
  | .gaitIdkLock r => Sys2Proof.Machine.execGaitIdkLock r s
  | .gaitWdog r ms => Sys2Proof.Machine.execGaitWdog r ms s
  | .gaitWdogKick r => Sys2Proof.Machine.execGaitWdogKick r s
  | .tempSample base c0 c1 => Sys2Proof.Machine.execTempSample base c0 c1 s
  | .gaitTimeSet r step => Sys2Proof.Machine.execGaitTimeSet r step s
  | .gaitFrmStart r => Sys2Proof.Machine.execGaitFrmStart r s
  | .evtLogSw r code unit => Sys2Proof.Machine.execEvtLogSw r code unit s
  | .evtLogFirstWordRead r k w64 => Sys2Proof.Machine.execEvtLogFirstWordRead r k w64 s
  | .gaitAccLock r bits => Sys2Proof.Machine.execGaitAccLock r bits s
  | .aliasWrite r off w v => Sys2Proof.Machine.execAliasWrite r off w v s
  | .aliasRead r off w => Sys2Proof.Machine.execAliasRead r off w s
  | .hitchBroadcastWrite r off w v => Sys2Proof.Machine.execHitchBroadcastWrite r off w v s
  | .hitchBroadcastRead r off w => Sys2Proof.Machine.execHitchBroadcastRead r off w s
  | .tileStoreWindowWrite r t a w v => Sys2Proof.Machine.execTileStoreWindowWrite r t a w v s
  | .tileStoreWindowRead r t a w => Sys2Proof.Machine.execTileStoreWindowRead r t a w s
  | .add t a => Sys2Proof.Machine.execAdd t a s
  | .sub t a => Sys2Proof.Machine.execSub t a s
  | .and t a => Sys2Proof.Machine.execAnd t a s
  | .or t a => Sys2Proof.Machine.execOr t a s
  | .xor t a => Sys2Proof.Machine.execXor t a s
  | .sll t a => Sys2Proof.Machine.execSll t a s
  | .srl t a => Sys2Proof.Machine.execSrl t a s
  | .sra t a => Sys2Proof.Machine.execSra t a s
  | .slt t a => Sys2Proof.Machine.execSlt t a s
  | .sltu t a => Sys2Proof.Machine.execSltu t a s
  | .min t a => Sys2Proof.Machine.execMin t a s
  | .max t a => Sys2Proof.Machine.execMax t a s
  | .mul t a => Sys2Proof.Machine.execMul t a s
  | .mulh t a => Sys2Proof.Machine.execMulh t a s
  | .addI t a => Sys2Proof.Machine.execAddI t a s
  | .andI t a => Sys2Proof.Machine.execAndI t a s
  | .orI t a => Sys2Proof.Machine.execOrI t a s
  | .xorI t a => Sys2Proof.Machine.execXorI t a s
  | .sllI t a => Sys2Proof.Machine.execSllI t a s
  | .srlI t a => Sys2Proof.Machine.execSrlI t a s
  | .sraI t a => Sys2Proof.Machine.execSraI t a s
  | .sltI t a => Sys2Proof.Machine.execSltI t a s
  | .liH t a => Sys2Proof.Machine.execLiH t a s
  | .ldt t a => Sys2Proof.Machine.execLdt t a s
  | .ldtW t a => Sys2Proof.Machine.execLdtW t a s
  | .stt t a => Sys2Proof.Machine.execStt t a s
  | .sttW t a => Sys2Proof.Machine.execSttW t a s
  | .ld t a => Sys2Proof.Machine.execLd t a s
  | .ldW t a => Sys2Proof.Machine.execLdW t a s
  | .st t a => Sys2Proof.Machine.execSt t a s
  | .stW t a => Sys2Proof.Machine.execStW t a s
  | .beq t a => Sys2Proof.Machine.execBeq t a s
  | .bne t a => Sys2Proof.Machine.execBne t a s
  | .blt t a => Sys2Proof.Machine.execBlt t a s
  | .bge t a => Sys2Proof.Machine.execBge t a s
  | .bltu t a => Sys2Proof.Machine.execBltu t a s
  | .bgeu t a => Sys2Proof.Machine.execBgeu t a s
  | .jal t a => Sys2Proof.Machine.execJal t a s
  | .jr t a => Sys2Proof.Machine.execJr t a s
  | .pcmpEq t a => Sys2Proof.Machine.execPcmpEq t a s
  | .pcmpNe t a => Sys2Proof.Machine.execPcmpNe t a s
  | .pcmpLt t a => Sys2Proof.Machine.execPcmpLt t a s
  | .pcmpLtu t a => Sys2Proof.Machine.execPcmpLtu t a s
  | .pcmpEqI t a => Sys2Proof.Machine.execPcmpEqI t a s
  | .pcmpLtI t a => Sys2Proof.Machine.execPcmpLtI t a s
  | .pand t a => Sys2Proof.Machine.execPand t a s
  | .por t a => Sys2Proof.Machine.execPor t a s
  | .pxor t a => Sys2Proof.Machine.execPxor t a s
  | .pnot t a => Sys2Proof.Machine.execPnot t a s
  | .pset t a => Sys2Proof.Machine.execPset t a s
  | .twait t a => Sys2Proof.Machine.execTwait t a s
  | .tsig t a => Sys2Proof.Machine.execTsig t a s
  | .tread t a => Sys2Proof.Machine.execTread t a s
  | .fenceSb t a => Sys2Proof.Machine.execFenceSb t a s
  | .fenceSc t a => Sys2Proof.Machine.execFenceSc t a s
  | .fenceU t a => Sys2Proof.Machine.execFenceU t a s
  | .fenceAll t a => Sys2Proof.Machine.execFenceAll t a s
  | .epochBegin t a => Sys2Proof.Machine.execEpochBegin t a s
  | .epochCommit t a => Sys2Proof.Machine.execEpochCommit t a s
  | .epochRein t a => Sys2Proof.Machine.execEpochRein t a s
  | .endItem t a => Sys2Proof.Machine.execEndItem t a s
  | .tsrr t a => Sys2Proof.Machine.execTsrr t a s
  | .tsrw t a => Sys2Proof.Machine.execTsrw t a s
  | .tlbInv t a => Sys2Proof.Machine.execTlbInv t a s
  | .resume t a => Sys2Proof.Machine.execResume t a s
  | .abandon t a => Sys2Proof.Machine.execAbandon t a s
  | .mmaP t a => Sys2Proof.Machine.execMmaP t a s
  | .mmaD t a => Sys2Proof.Machine.execMmaD t a s
  | .mmaS t a => Sys2Proof.Machine.execMmaS t a s
  | .mmaW t a => Sys2Proof.Machine.execMmaW t a s
  | .mmaPZ t a => Sys2Proof.Machine.execMmaPZ t a s
  | .mmaDZ t a => Sys2Proof.Machine.execMmaDZ t a s
  | .mmaSZ t a => Sys2Proof.Machine.execMmaSZ t a s
  | .wld t a => Sys2Proof.Machine.execWld t a s
  | .wldSp t a => Sys2Proof.Machine.execWldSp t a s
  | .wldSpt t a => Sys2Proof.Machine.execWldSpt t a s
  | .swap t a => Sys2Proof.Machine.execSwap t a s
  | .vadd t a => Sys2Proof.Machine.execVadd t a s
  | .vsub t a => Sys2Proof.Machine.execVsub t a s
  | .vmul t a => Sys2Proof.Machine.execVmul t a s
  | .vmax t a => Sys2Proof.Machine.execVmax t a s
  | .vmin t a => Sys2Proof.Machine.execVmin t a s
  | .vand t a => Sys2Proof.Machine.execVand t a s
  | .vor t a => Sys2Proof.Machine.execVor t a s
  | .vxor t a => Sys2Proof.Machine.execVxor t a s
  | .vshl t a => Sys2Proof.Machine.execVshl t a s
  | .vshr t a => Sys2Proof.Machine.execVshr t a s
  | .vcvt t a => Sys2Proof.Machine.execVcvt t a s
  | .vld t a => Sys2Proof.Machine.execVld t a s
  | .vst t a => Sys2Proof.Machine.execVst t a s
  | .vbcast t a => Sys2Proof.Machine.execVbcast t a s
  | .vlane t a => Sys2Proof.Machine.execVlane t a s
  | .vrsum t a => Sys2Proof.Machine.execVrsum t a s
  | .lblSt t a => Sys2Proof.Machine.execLblSt t a s
  | .qexp t a => Sys2Proof.Machine.execQexp t a s
  | .qcmp t a => Sys2Proof.Machine.execQcmp t a s
  | .qmrgU t a => Sys2Proof.Machine.execQmrgU t a s
  | .qmrgI t a => Sys2Proof.Machine.execQmrgI t a s
  | .qsort t a => Sys2Proof.Machine.execQsort t a s
  | .qred t a => Sys2Proof.Machine.execQred t a s
  | .gath t a => Sys2Proof.Machine.execGath t a s
  | .gathR t a => Sys2Proof.Machine.execGathR t a s
  | .gathQ8 t a => Sys2Proof.Machine.execGathQ8 t a s
  | .gathQ4 t a => Sys2Proof.Machine.execGathQ4 t a s
  | .gathPf t a => Sys2Proof.Machine.execGathPf t a s
  | .hlook t a => Sys2Proof.Machine.execHlook t a s
  | .scat t a => Sys2Proof.Machine.execScat t a s
  | .hpref t a => Sys2Proof.Machine.execHpref t a s
  | .hupdQ8 t a => Sys2Proof.Machine.execHupdQ8 t a s
  | .hupdQ4 t a => Sys2Proof.Machine.execHupdQ4 t a s
  | .treLdl t a => Sys2Proof.Machine.execTreLdl t a s
  | .treLdn t a => Sys2Proof.Machine.execTreLdn t a s
  | .treLadder t a => Sys2Proof.Machine.execTreLadder t a s
  | .treWalk t a => Sys2Proof.Machine.execTreWalk t a s
  | .scatterEntryAccept t k_ => Sys2Proof.Machine.execScatterEntryAccept t k_ s
  | .deviceLoadReturn t k_ => Sys2Proof.Machine.execDeviceLoadReturn t k_ s
  | .frameBoundary => Sys2Proof.Machine.execFrameBoundary s
  | .lateArrivalWindowClose => Sys2Proof.Machine.execLateArrivalWindowClose s
  | .poseDeadline => Sys2Proof.Machine.execPoseDeadline s
  | .reinBackStart => Sys2Proof.Machine.execReinBackStart s
  | .hoardScatterDiscard => Sys2Proof.Machine.execHoardScatterDiscard s
  | .dreyEpochInvalidate => Sys2Proof.Machine.execDreyEpochInvalidate s
  | .reinBackRelease => Sys2Proof.Machine.execReinBackRelease s
  | .commit => Sys2Proof.Machine.execCommit s
  | .ingestReturn => Sys2Proof.Machine.execIngestReturn s
  | .poseWaitExpiry => Sys2Proof.Machine.execPoseWaitExpiry s
  | .dreyInsert => Sys2Proof.Machine.execDreyInsert s
  | .dreyRetirementScanEnd => Sys2Proof.Machine.execDreyRetirementScanEnd s
  | .dreyRepartition => Sys2Proof.Machine.execDreyRepartition s
  | .bondErrorWindow => Sys2Proof.Machine.execBondErrorWindow s
  | .itemDispatch => Sys2Proof.Machine.execItemDispatch s
  | .shardLoadWindow => Sys2Proof.Machine.execShardLoadWindow s
  | .patrolScrub => Sys2Proof.Machine.execPatrolScrub s
  | .ppsInEdge => Sys2Proof.Machine.execPpsInEdge s
  | .ppsOutSecond => Sys2Proof.Machine.execPpsOutSecond s
  | .jtagBypass => Sys2Proof.Machine.execJtagBypass s
  | .jtagIdcode => Sys2Proof.Machine.execJtagIdcode s
  | .jtagSamplePreload => Sys2Proof.Machine.execJtagSamplePreload s
  | .jtagExtest => Sys2Proof.Machine.execJtagExtest s
  | .jtagIntest => Sys2Proof.Machine.execJtagIntest s
  | .svcAccessDone => Sys2Proof.Machine.execSvcAccessDone s
  | .contribWaitExpiry => Sys2Proof.Machine.execContribWaitExpiry s
  | .hitchBroadcastTimeout => Sys2Proof.Machine.execHitchBroadcastTimeout s
  | .wheelAwaitLog => Sys2Proof.Machine.execWheelAwaitLog s
  | .gaitRequestRefuse => Sys2Proof.Machine.execGaitRequestRefuse s
  | .drainComplete => Sys2Proof.Machine.execDrainComplete s
  | .trotToWalkDone => Sys2Proof.Machine.execTrotToWalkDone s
  | .l2WriteBackDone => Sys2Proof.Machine.execL2WriteBackDone s
  | .walkToStableDone => Sys2Proof.Machine.execWalkToStableDone s
  | .stableToWalkDone => Sys2Proof.Machine.execStableToWalkDone s
  | .canWakeNFall => Sys2Proof.Machine.execCanWakeNFall s
  | .wakeTimeReached => Sys2Proof.Machine.execWakeTimeReached s
  | .perstNRise => Sys2Proof.Machine.execPerstNRise s
  | .pwrGoodMainRise => Sys2Proof.Machine.execPwrGoodMainRise s
  | .pwrGoodMainTimeout => Sys2Proof.Machine.execPwrGoodMainTimeout s
  | .pwrGoodMainFall => Sys2Proof.Machine.execPwrGoodMainFall s
  | .refClockLoss => Sys2Proof.Machine.execRefClockLoss s
  | .powerOnReset => Sys2Proof.Machine.execPowerOnReset s
  | .resetNAssert => Sys2Proof.Machine.execResetNAssert s
  | .resetWake => Sys2Proof.Machine.execResetWake s
  | .idkCommandDone => Sys2Proof.Machine.execIdkCommandDone s
  | .packageWatchdogExpiry => Sys2Proof.Machine.execPackageWatchdogExpiry s
  | .xtalFail => Sys2Proof.Machine.execXtalFail s
  | .xtalEdgesReturn => Sys2Proof.Machine.execXtalEdgesReturn s
  | .i3cHotJoin bus head => Sys2Proof.Machine.execI3cHotJoin bus head s
  | .i3cInBandInterrupt bus head => Sys2Proof.Machine.execI3cInBandInterrupt bus head s
  | .refreshRateRead c rate => Sys2Proof.Machine.execRefreshRateRead c rate s
  | .dqsOscillatorCheck c drift => Sys2Proof.Machine.execDqsOscillatorCheck c drift s
  | .gpioWakeEdge n rising => Sys2Proof.Machine.execGpioWakeEdge n rising s
  | .xtalCalibrate corr => Sys2Proof.Machine.execXtalCalibrate corr s

end Sys2Proof.Machine
end

