-- ==== Sys2Proof/Safety.lean ====
section
/-! DEFINITION. What a run keeps, and the conditions statements are made under: the canonical forms that make equal contents equal
data; what it takes for a register access, a Berbo instruction or an SCI arrival to have its effect; and what a change
leaves alone. A safe run is one that every step keeps in form, and that no step stops. -/

namespace Sys2Proof.Machine

open Host

/-- Device memory is in its one canonical form. -/
abbrev MemOk (s : State) : Prop := s.mem.wf = true

/-- The register file is in its one canonical form: keys rising, no word listed that holds its reset value. -/
abbrev RegsOk (s : State) : Prop := spWf regReset s.regs = true

/-- A step answers a next state: no command and no data stops the device (R38). -/
abbrev Goes (o : Host.Outcome State Fault Refusal) : Prop := ∃ t, o = .next t

/-- The state a step answers, and `s` where it stops. -/
def nextOr (s : State) (o : Host.Outcome State Fault Refusal) : State :=
  match o with
  | .next t => t
  | _ => s

/-! ### When an access or an instruction has its effect -/

/-- A requester's write to a block that is reachable is performed: the clocks run (R573) and no lock refuses its class
(R629). -/
abbrev MayWrite (s : State) (r : ReqId) : Prop := s.alive = true ∧ s.lockedFor r = false

/-- The control core of a tile runs, with the next instruction where R366 allows a fetch. -/
abbrev Fetches (s : State) (t : TileId) : Prop := s.coreRuns t = true ∧ s.fetchCheck t = .ok ()

/-- A control-core instruction issues: PMODE is legal and lets it (R373), its mode group may run (Table 11-5), and neither a pending
register nor a fence holds it (R370, R371, R396). -/
abbrev CcGo (s : State) (t : TileId) (a : CcArgs) (m : ModeGroup) (fc : FenceClass) (reads writes : List Nat) : Prop :=
  Fetches s t ∧ a.pmode ≠ 3 ∧ s.modeOk t m = true ∧ predPass s.tiles[t].p a.pmode a.pred = true
    ∧ s.pendStall t reads writes = false ∧ s.tiles[t].held fc = false

/-- A unit instruction issues: as above, outside the handler, its fields legal, a place free in the window and in each of its queues
(R369), and its tag that of a live epoch or of none (R202). -/
abbrev UGo (s : State) (t : TileId) (op : UOp) (a : UArgs) (ok : Bool) (qs gs : List Nat) (tagOk : Bool) : Prop :=
  Fetches s t ∧ a.pmode ≠ 3 ∧ ok = true ∧ s.inHandler t = false ∧ predPass s.tiles[t].p a.pmode a.pred = true
    ∧ s.pendStall t gs (if op.scalar then [a.rd.toNat] else []) = false
    ∧ s.tiles[t].held (if op.fenced a.imm.toNat then .unitMem else .unit) = false
    ∧ (op.scalar = false ∨ a.rd = 0 ∨ s.tiles[t].pendCount < 8) ∧ s.tiles[t].window.length < 64
    ∧ qs.all (fun q => decide ((s.tiles[t].window.filter (fun u => u.inQ q && !u.started)).length < 16)) = true
    ∧ tagOk = true ∧ s.ctxClass t ≠ .stale ∧ s.ctxClass t ≠ .invalid

/-- The instructions of the array passes, of the weight loads, and of the vector, Quill, Hoard and tree units, with what each enters the
window as (Table 12-3). -/
def passOps : List (UOp × (TileId → UArgs → Instr)) :=
  [(.mmaP, .mmaP), (.mmaD, .mmaD), (.mmaS, .mmaS), (.mmaW, .mmaW), (.mmaPZ, .mmaPZ), (.mmaDZ, .mmaDZ), (.mmaSZ, .mmaSZ)]

/-- The weight loads, as `passOps`. -/
def wldOps : List (UOp × (TileId → UArgs → Instr)) := [(.wld, .wld), (.wldSp, .wldSp), (.wldSpt, .wldSpt)]

/-- The vector instructions, as `passOps`. -/
def vecOps : List (UOp × (TileId → UArgs → Instr)) :=
  [(.vadd, .vadd), (.vsub, .vsub), (.vmul, .vmul), (.vmax, .vmax), (.vmin, .vmin), (.vand, .vand), (.vor, .vor), (.vxor, .vxor)
   , (.vshl, .vshl), (.vshr, .vshr), (.vcvt, .vcvt), (.vld, .vld), (.vst, .vst), (.vbcast, .vbcast), (.vlane, .vlane)
   , (.vrsum, .vrsum), (.lblSt, .lblSt)]

/-- The Quill instructions, as `passOps`. -/
def quillOps : List (UOp × (TileId → UArgs → Instr)) :=
  [(.qexp, .qexp), (.qcmp, .qcmp), (.qmrgU, .qmrgU), (.qmrgI, .qmrgI), (.qsort, .qsort), (.qred, .qred)]

/-- The Hoard instructions, as `passOps`. -/
def hoardOps : List (UOp × (TileId → UArgs → Instr)) :=
  [(.gath, .gath), (.gathR, .gathR), (.gathQ8, .gathQ8), (.gathQ4, .gathQ4), (.gathPf, .gathPf), (.hlook, .hlook), (.scat, .scat)
   , (.hpref, .hpref), (.hupdQ8, .hupdQ8), (.hupdQ4, .hupdQ4)]

/-- The tree instructions, as `passOps`. -/
def treeOps : List (UOp × (TileId → UArgs → Instr)) :=
  [(.treLdl, .treLdl), (.treLdn, .treLdn), (.treLadder, .treLadder), (.treWalk, .treWalk)]

/-- The format of the table a Hoard instruction names, as its tag's epoch latched it (R310). -/
def State.hoardFmt (s : State) (t : TileId) (a : UArgs) : Nat :=
  (tableInfo (s.tagConf s.tiles[t].ctx).1 (bitsN a.imm.toNat 12 9)).fmt

/-- A message reaches the SCI logic of a port in ACTIVE. -/
abbrev SciActive (s : State) (p : Fin 2) : Prop := s.sciOn = true ∧ s.sciSt p = 7

/-! ### What a change leaves alone -/

/-- Nothing but the record of one tile differs: every register, every byte of memory and every other tile is as before. -/
abbrev OnlyTile (s s' : State) (t : TileId) : Prop :=
  s' = { s with tiles := s'.tiles } ∧ ∀ u : TileId, u ≠ t → s'.tiles[u] = s.tiles[u]

/-- A register word other than those listed reads as before. -/
abbrev RegsKept (s s' : State) (offs : List Nat) : Prop := ∀ o, o ∉ offs → s'.rd o = s.rd o

/-- The words an event of a 32-bit counter may change: the counter and its overflow word (R607). -/
def ctrWords (c : Ctr) : List Nat := [c.reg, c.ovf + 4 * (c.bit / 32)]

end Sys2Proof.Machine

/-- The commands that reach the always-on reset logic or the test access port, which no clock of the package drives (R573, R631,
R635). -/
def Sys2Proof.Instr.unclocked : Instr → Bool
  | .powerOnReset | .porstNRise _ _ _ | .jtagBypass | .jtagIdcode | .jtagSamplePreload | .jtagExtest | .jtagIntest | .stackSel _
  | .svcRead _ _ | .svcWrite _ _ _ | .svcAccessDone => true
  | _ => false
end

