-- ==== Sys2Proof/Certificates/Slice0/Obligations.lean ====
section
/-! DEFINITION. The statements. -/

open Sys2Proof Sys2Proof.Machine

/-! ### The machine as a whole -/

/-- A step with a command waiting is that command's effect with the queue's rest. -/
def Obligations.StepRunsFront : Prop :=
  ∀ (c : Instr) (rest : List Instr) (s : State), s.pending = c :: rest → step s = exec c { s with pending := rest }

/-- What reset leaves, by the reset columns of the register tables and R561: the time base at 0, Stable, the frame timer stopped at frame
0, no verdict, no key, no live epoch, no command waiting. The state after reset holds memory and registers in their canonical forms. -/
def Obligations.ResetState : Prop :=
  (let s := State.reset
   s.time = 0 ∧ s.pending = [] ∧ s.gaitN = 0 ∧ s.frameNum = 0 ∧ s.bit Reg.gaitStat 6 = false ∧ s.frm.live = [] ∧ s.halter.key = none
     ∧ s.halter.hasVerdict = false ∧ s.rd Reg.gaitFrmPeriod = 50000 ∧ s.rd Reg.gaitTwarn = 115 ∧ s.rd Reg.gaitTileIdle = 20
     ∧ s.rd Reg.gaitWakeEn = 1 ∧ s.rd Reg.gaitCoreRun = 1 ∧ s.rd Reg.gaitReq = 0 ∧ s.rd Reg.hltCtrl = 3 ∧ s.rd Reg.hltLife = 120
     ∧ s.rd Reg.hltVerdictFrame = 0xFFFFFFFF ∧ s.rd64 Reg.hltVerdictZones = 0xFFFFFFFFFFFF ∧ s.rd Reg.evtLogSeq = 0
     ∧ s.rd Reg.portGtimeCtrl = 13 ∧ s.rd Reg.portLateWin = 25 ∧ s.rd Reg.portEtype = 0x88B5 ∧ s.rd Reg.gaitAccLock = 0)
  ∧ (MemOk State.reset ∧ RegsOk State.reset)

/-- No command and no data stops the device (R38): every command, in every state, answers a next state, and so does every step. -/
def Obligations.NothingStops : Prop :=
  (∀ (c : Instr) (s : State), Goes (exec c s)) ∧ ∀ s : State, Goes (step s)

/-- Thermal shutdown holds (R573): with THERMTRIP_N low, every step but that of POWER_ON_RESET keeps it low, and only the queue
changes unless the command reaches the reset logic or the test access port, which no clock of the package drives. -/
def Obligations.ThermalShutdownHolds : Prop :=
  ∀ (s t : State), s.gait.thermtrip = true → s.pending.head? ≠ some .powerOnReset → step s = .next t →
    t.gait.thermtrip = true ∧ ((∀ c, s.pending.head? = some c → c.unclocked = false) → t = { s with pending := s.pending.tail })

/-! ### Berbo words -/

/-- Words written out from Tables 11-2, 11-3, 12-1 and 12-3, one for each class, decode to what they stand for. -/
def Obligations.BerboWords : Prop :=
  berboDecode 5 0x0400088300000000#64 = some (.add 5 ⟨0, 0, 2, 4, 3, 0⟩)
    ∧ berboDecode 0 0x05F71D200000BEEF#64 = some (.liH 0 ⟨1, 6, 7, 9, 0, 0xBEEF⟩)
    ∧ berboDecode 3 0x0858811FFFFFFFFC#64 = some (.sttW 3 ⟨2, 1, 0, 8, 31, 0xFFFFFFFC⟩)
    ∧ berboDecode 31 0x0C400022FFFFFFF8#64 = some (.bltu 31 ⟨0, 0, 0, 1, 2, 0xFFFFFFF8⟩)
    ∧ berboDecode 1 0x10A01FC000000064#64 = some (.pcmpLtI 1 ⟨0, 0, 7, 30, 0, 100⟩)
    ∧ berboDecode 2 0x1400000000050003#64 = some (.twait 2 ⟨0, 0, 0, 0, 0, 0x00050003⟩)
    ∧ berboDecode 4 0x1800006A00008001#64 = some (.epochBegin 4 ⟨0, 0, 0, 3, 10, 0x8001⟩)
    ∧ berboDecode 6 0x1C10300000000618#64 = some (.tsrr 6 ⟨0, 0, 12, 0, 0, 0x618⟩)
    ∧ berboDecode 0 0x40500F9442981FFF#64 = some (.mmaDZ 0 ⟨0, 0, 1, 15, 2, true, false, 4, 5, 6, 0, 0x1FFF⟩)
    ∧ berboDecode 7 0x4430004E0000000F#64 = some (.swap 7 ⟨0, 0, 0, 0, 9, true, true, 0, 0, 0, 0, 0x00F⟩)
    ∧ berboDecode 8 0x520FF881F0C10001#64 = some (.lblSt 8 ⟨3, 7, 15, 1, 0, false, false, 31, 1, 16, 8, 1⟩)
    ∧ berboDecode 9 0x60500000110C8015#64 = some (.qred 9 ⟨0, 0, 0, 0, 0, false, false, 1, 2, 3, 4, 0x15⟩)
    ∧ berboDecode 10 0x709000014AD81E00#64 = some (.hupdQ4 10 ⟨0, 0, 0, 0, 0, false, false, 20, 21, 22, 0, 0x1E00⟩)
    ∧ berboDecode 11 0x8030007CB6340000#64 = some (.treWalk 11 ⟨0, 0, 0, 0, 15, true, false, 11, 12, 13, 0, 0⟩)
    ∧ (∀ t : TileId, berboDecode t 0 = none)
    ∧ berboDecode 0 0x04E0000000000000#64 = none
    ∧ berboDecode 0 0x4800000000000000#64 = none

/-- Berbo words and Berbo commands stand for each other: the word of a command decodes, at its tile, to that command with every
operand as it was, and a word that decodes is the word of what it decodes to. -/
def Obligations.BerboRoundTrip : Prop :=
  (∀ (i : Instr) (t : TileId) (c o : BitVec 6) (a : CcArgs), ccWord i = some (t, c, o, a) →
      ∃ w, berboEncode i = some w ∧ berboDecode t w = some i)
    ∧ (∀ (i : Instr) (t : TileId) (c o : BitVec 6) (a : UArgs), unitWord i = some (t, c, o, a) →
      ∃ w, berboEncode i = some w ∧ berboDecode t w = some i)
    ∧ ∀ (t : TileId) (w : W64) (i : Instr), berboDecode t w = some i → berboEncode i = some w

/-! ### Berbo: the control core -/

/-- The integer class (R392): each instruction writes its result and passes; LI.H and TREAD likewise. -/
def Obligations.IntegerResults : Prop :=
  ∀ (s : State) (t : TileId) (a : CcArgs),
    let x := s.rs1 t a
    let y := s.rs2 t a
    let i := simm a;
    (CcGo s t a .both .other [a.rs1.toNat, a.rs2.toNat] [a.rd.toNat] →
      exec (.add t a) s = .next (s.setRd t a (x + y)) ∧ exec (.sub t a) s = .next (s.setRd t a (x - y))
        ∧ exec (.and t a) s = .next (s.setRd t a (x &&& y)) ∧ exec (.or t a) s = .next (s.setRd t a (x ||| y))
        ∧ exec (.xor t a) s = .next (s.setRd t a (x ^^^ y)) ∧ exec (.sll t a) s = .next (s.setRd t a (x <<< (y.toNat % 64)))
        ∧ exec (.srl t a) s = .next (s.setRd t a (x >>> (y.toNat % 64)))
        ∧ exec (.sra t a) s = .next (s.setRd t a (x.sshiftRight (y.toNat % 64)))
        ∧ exec (.slt t a) s = .next (s.setRd t a (if x.toInt < y.toInt then 1 else 0))
        ∧ exec (.sltu t a) s = .next (s.setRd t a (if x.toNat < y.toNat then 1 else 0))
        ∧ exec (.min t a) s = .next (s.setRd t a (if y.toInt < x.toInt then y else x))
        ∧ exec (.max t a) s = .next (s.setRd t a (if x.toInt < y.toInt then y else x))
        ∧ exec (.mul t a) s = .next (s.setRd t a (x * y))
        ∧ exec (.mulh t a) s = .next (s.setRd t a (BitVec.ofInt 64 (x.toInt * y.toInt / 2 ^ 64))))
    ∧ (CcGo s t a .both .other [a.rs1.toNat] [a.rd.toNat] →
      exec (.addI t a) s = .next (s.setRd t a (x + i)) ∧ exec (.andI t a) s = .next (s.setRd t a (x &&& i))
        ∧ exec (.orI t a) s = .next (s.setRd t a (x ||| i)) ∧ exec (.xorI t a) s = .next (s.setRd t a (x ^^^ i))
        ∧ exec (.sllI t a) s = .next (s.setRd t a (x <<< (i.toNat % 64)))
        ∧ exec (.srlI t a) s = .next (s.setRd t a (x >>> (i.toNat % 64)))
        ∧ exec (.sraI t a) s = .next (s.setRd t a (x.sshiftRight (i.toNat % 64)))
        ∧ exec (.sltI t a) s = .next (s.setRd t a (if x.toInt < i.toInt then 1 else 0))
        ∧ exec (.liH t a) s = .next (s.setRd t a (BitVec.ofNat 64 (a.imm.toNat * 2 ^ 32 + x.toNat % 2 ^ 32))))
    ∧ (CcGo s t a .both .other [] [a.rd.toNat] →
      exec (.tread t a) s = .next (s.setRd t a (BitVec.ofNat 64 (s.tok t (bitsN a.imm.toNat 3 0)))))

/-- What writing RD or P[RD] and passing changes, and all that it changes: that register (G0 never), the PC by 8, and the instant of the
tile's last retirement. -/
def Obligations.WriteBackFrame : Prop :=
  ∀ (s : State) (t : TileId) (a : CcArgs) (v : W64) (b : Bool),
    (let s' := s.setRd t a v;
      (∀ k, s'.tiles[t].getG k = (if k = a.rd.toNat ∧ k ≠ 0 then v else s.tiles[t].getG k))
        ∧ s'.tiles[t] = { s.tiles[t] with g := s'.tiles[t].g, pc := (s.tiles[t].pc + 8) % 2 ^ 64, lastRetire := s.time }
        ∧ OnlyTile s s' t)
    ∧ (a.rd.toNat < 8 →
      let s' := s.setPd t a b;
      (∀ k, bitN s'.tiles[t].p k = if k = a.rd.toNat then b else bitN s.tiles[t].p k)
        ∧ s'.tiles[t] = { s.tiles[t] with p := s'.tiles[t].p, pc := (s.tiles[t].pc + 8) % 2 ^ 64, lastRetire := s.time }
        ∧ OnlyTile s s' t)

/-- Branches and jumps to an aligned target (R366): the PC goes there, where the condition holds, or on by 8; JAL and JR leave PC + 8 in
RD. A target off a multiple of 8 raises cause 1 with the target as its address; for a compare branch it does so taken or not, which is
the model's reading (log 33). -/
def Obligations.BranchResults : Prop :=
  ∀ (s : State) (t : TileId) (a : CcArgs),
    let x := s.rs1 t a
    let y := s.rs2 t a
    let dest := s.branchTo t a
    let go := fun (w : W64) => s.modTile t (fun tl => { tl with pc := w.toNat, lastRetire := s.time })
    let link := fun (w : W64) => s.modTile t (fun tl =>
      { tl.setG a.rd.toNat (BitVec.ofNat 64 (tl.pc + 8)) with pc := w.toNat, lastRetire := s.time })
    (CcGo s t a .both .other [a.rs1.toNat, a.rs2.toNat] [] →
      (dest.toNat % 8 = 0 →
        exec (.beq t a) s = .next (if x = y then go dest else s.advance t)
          ∧ exec (.bne t a) s = .next (if x = y then s.advance t else go dest)
          ∧ exec (.blt t a) s = .next (if x.toInt < y.toInt then go dest else s.advance t)
          ∧ exec (.bge t a) s = .next (if x.toInt < y.toInt then s.advance t else go dest)
          ∧ exec (.bltu t a) s = .next (if x.toNat < y.toNat then go dest else s.advance t)
          ∧ exec (.bgeu t a) s = .next (if x.toNat < y.toNat then s.advance t else go dest))
      ∧ (dest.toNat % 8 ≠ 0 → ∀ i ∈ [Instr.beq t a, .bne t a, .blt t a, .bge t a, .bltu t a, .bgeu t a],
        exec i s = .next (s.raiseC t .illegal dest.toNat)))
    ∧ (CcGo s t a .both .other [] [a.rd.toNat] →
      exec (.jal t a) s = .next (if dest.toNat % 8 = 0 then link dest else s.raiseC t .illegal dest.toNat))
    ∧ (CcGo s t a .both .other [a.rs1.toNat] [a.rd.toNat] →
      exec (.jr t a) s = .next (if (x + simm a).toNat % 8 = 0 then link (x + simm a) else s.raiseC t .illegal (x + simm a).toNat))

/-- The predicate class (R392): compares and logic write P[RD], where RD names one of P0 to P7. -/
def Obligations.PredicateResults : Prop :=
  ∀ (s : State) (t : TileId) (a : CcArgs), a.rd.toNat < 8 →
    let x := s.rs1 t a
    let y := s.rs2 t a
    let i := simm a
    let p := bitN s.tiles[t].p a.rs1.toNat
    let q := bitN s.tiles[t].p a.rs2.toNat;
    (CcGo s t a .both .other [a.rs1.toNat, a.rs2.toNat] [] →
      exec (.pcmpEq t a) s = .next (s.setPd t a (decide (x = y))) ∧ exec (.pcmpNe t a) s = .next (s.setPd t a (decide (x ≠ y)))
        ∧ exec (.pcmpLt t a) s = .next (s.setPd t a (decide (x.toInt < y.toInt)))
        ∧ exec (.pcmpLtu t a) s = .next (s.setPd t a (decide (x.toNat < y.toNat))))
    ∧ (CcGo s t a .both .other [a.rs1.toNat] [] →
      exec (.pcmpEqI t a) s = .next (s.setPd t a (decide (x = i)))
        ∧ exec (.pcmpLtI t a) s = .next (s.setPd t a (decide (x.toInt < i.toInt))))
    ∧ (CcGo s t a .both .other [] [] → a.rs1.toNat < 8 → a.rs2.toNat < 8 →
      exec (.pand t a) s = .next (s.setPd t a (p && q)) ∧ exec (.por t a) s = .next (s.setPd t a (p || q))
        ∧ exec (.pxor t a) s = .next (s.setPd t a (p != q)) ∧ exec (.pnot t a) s = .next (s.setPd t a (!p))
        ∧ exec (.pset t a) s = .next (s.setPd t a (bitN a.imm.toNat 0)))

/-- LDT, LDT.W, STT and STT.W (R393) at an aligned address that the instruction's tag may access: the load writes the zero-extended
little-endian value, the store writes its bytes. A store to a tile store changes its own bytes and no other byte of it, a void line that
it touches reading as zeros elsewhere as before (R209); nothing of the tile but its store changes. -/
def Obligations.TileStoreAccess : Prop :=
  (∀ (s : State) (t : TileId) (a : CcArgs) (n : Nat), s.ctxClass t ≠ .stale → s.ctxClass t ≠ .invalid → s.ea t a % n = 0 →
     (CcGo s t a .both .other [a.rs1.toNat] [a.rd.toNat] → s.tsCheck t s.tiles[t].ctx false (s.ea t a) n = .ok () →
       let r := s.setRd t a (BitVec.ofNat 64 (s.tiles[t].tsNat (s.ea t a) n));
       (n = 8 → exec (.ldt t a) s = .next r) ∧ (n = 4 → exec (.ldtW t a) s = .next r))
     ∧ (CcGo s t a .both .other [a.rs1.toNat, a.rs2.toNat] [] → s.tsCheck t s.tiles[t].ctx true (s.ea t a) n = .ok () →
       let r := (s.modTile t (fun tl => tl.tsPuts (s.ea t a) (toLe (s.rs2 t a).toNat n))).advance t;
       (n = 8 → exec (.stt t a) s = .next r) ∧ (n = 4 → exec (.sttW t a) s = .next r)))
  ∧ (∀ (tl : Tile) (a : Nat) (bs : List Byte),
       (∀ k, (tl.tsPuts a bs).tsByte k = if h : a ≤ k ∧ k - a < bs.length then bs[k - a]'h.2 else tl.tsByte k)
         ∧ tl.tsPuts a bs = { tl with store := (tl.tsPuts a bs).store, voids := (tl.tsPuts a bs).voids })

/-- LD, LD.W, ST and ST.W (R200, R371, R393) at an aligned address that translates without a walk to this package: the load is on its way
with the bytes the store buffer forwards; the store, inside its tag's window, stands in the store buffer. While the traffic of the tile's
die is held for a port that leaves the bond (R477), a load only stalls. -/
def Obligations.DeviceAccess : Prop :=
  ∀ (s : State) (t : TileId) (a : CcArgs) (n pa l : Nat), s.ctxClass t ≠ .stale → s.ctxClass t ≠ .invalid → s.ea t a % n = 0 →
    (CcGo s t a .both .coreMem [a.rs1.toNat] [a.rd.toNat] → s.devAddr t (s.ea t a) n false = .ok pa → s.whereIs pa = .here l →
      let q : LoadReq := ⟨a.rd.toNat, none, l, n, s.tiles[t].forward pa n, s.tiles[t].ctx, none, s.tiles[t].running, none, false⟩
      let r := if s.bondHeld t = true then s else (s.modTile t (fun tl => { tl with loads := tl.loads ++ [q] })).advance t;
      (n = 8 → exec (.ld t a) s = .next r) ∧ (n = 4 → exec (.ldW t a) s = .next r))
    ∧ (CcGo s t a .both .coreMem [a.rs1.toNat, a.rs2.toNat] [] → s.devAddr t (s.ea t a) n true = .ok pa →
      s.inWindow t s.tiles[t].ctx pa n = true → ∀ tl', s.tiles[t].sbPut pa (toLe (s.rs2 t a).toNat n) s.tiles[t].ctx = some tl' →
      let r := (s.modTile t (fun _ => tl')).advance t;
      (n = 8 → exec (.st t a) s = .next r) ∧ (n = 4 → exec (.stW t a) s = .next r))

/-- TWAIT, TSIG (R394, R195, R196) and the fences (R396): a wait takes its count once the counter holds it beside what the waiters at the
heads of Q0 to Q7 take first, and stalls until then; a signal adds, or saturates at 65,535, sets the overflow bit and raises cause 7; a
fence closes the generations it names, and retires at once where its condition holds, or stands until it does. -/
def Obligations.TokensAndFences : Prop :=
  ∀ (s : State) (t : TileId) (a : CcArgs),
    let k := bitsN a.imm.toNat 3 0
    let c := bitsN a.imm.toNat 31 16
    let go := fun (u : UEntry) => !(s.tiles[t].blocked u);
    (CcGo s t a .item .other [] [] → tokenArgsOk a = true →
      exec (.twait t a) s = .next (if c ≤ s.tokLeft t go k 8 then (s.put (Reg.tileToken t k) (s.tok t k - c)).advance t else s)
        ∧ ((∀ q < 8, s.tiles[t].waiter go q = none) → s.tokLeft t go k 8 = s.tok t k)
        ∧ (s.tok t k + c ≤ 65535 → exec (.tsig t a) s = .next ((s.put (Reg.tileToken t k) (s.tok t k + c)).advance t))
        ∧ (65535 < s.tok t k + c → exec (.tsig t a) s =
          .next (((s.put (Reg.tileToken t k) 65535).orReg (Reg.tileTokOvf t) (2 ^ k)).raiseC t .token 0)))
    ∧ (CcGo s t a .both .other [] [] → ∀ x ∈ [(0, Instr.fenceSb t a), (1, .fenceSc t a), (2, .fenceU t a), (3, .fenceAll t a)],
      ∃ s' f, exec x.2 s = .next s' ∧ OnlyTile s s' t
        ∧ s'.tiles[t] = { s.tiles[t] with
            pc := (s.tiles[t].pc + 8) % 2 ^ 64, sbGen := s'.tiles[t].sbGen, scatGen := s'.tiles[t].scatGen
            fences := s'.tiles[t].fences, lastRetire := s'.tiles[t].lastRetire }
        ∧ s'.tiles[t].sbGen = s.tiles[t].sbGen + (if x.1 = 0 ∨ x.1 = 3 then 1 else 0)
        ∧ s'.tiles[t].scatGen = s.tiles[t].scatGen + (if x.1 = 1 ∨ x.1 = 3 then 1 else 0)
        ∧ f = (⟨x.1, (s.tiles[t].window.filter (fun u =>
            if x.1 = 0 then false else if x.1 = 1 then u.op ∈ [UOp.scat, .hupdQ8, .hupdQ4] else true)).map (·.seq),
            s'.tiles[t].sbGen, s'.tiles[t].scatGen⟩ : FenceRec)
        ∧ (∀ g ∈ s'.tiles[t].fences, g.met s'.tiles[t] = false)
        ∧ (f.met s'.tiles[t] = false → s'.tiles[t].fences.getLast? = some f)
        ∧ (f.met s'.tiles[t] = true → s'.tiles[t].lastRetire = s.time))

/-- EPOCH.BEGIN, EPOCH.COMMIT and EPOCH.REIN (R397 to R400): with every check of R397 passed for an epoch not yet claimed, the tag becomes
the context and each named segment is Owned under its parity; COMMIT clears the context; REIN reins back the live epoch the tag names and
only counts where it names none. -/
def Obligations.EpochInstructions : Prop :=
  ∀ (s : State) (t : TileId) (a : CcArgs),
    let tag := (s.rs1 t a).toNat % 256
    let segs := (s.rs2 t a).toNat % 2 ^ 48
    let mask := a.imm.toNat % 65536;
    (CcGo s t a .item .other [a.rs1.toNat, a.rs2.toNat] [] → s.tiles[t].ctx = none → s.classify t tag = .older ∨ s.classify t tag = .newer →
      (s.tiles[t].claimed.toList.getD (tag % 2) none) ≠ some tag →
      (s.fld (Reg.tileEpoch t) 17 16 = 3 →
        mask &&& bitsN (s.rd (Reg.tileEpochTok t)) (16 * (1 - tag % 2) + 15) (16 * (1 - tag % 2)) = 0) →
      (∀ k < 48, bitN segs k = true → s.segState t k = 0) →
      ∃ s', exec (.epochBegin t a) s = .next s' ∧ s'.tiles[t].ctx = some tag ∧ s'.tiles[t].pc = (s.tiles[t].pc + 8) % 2 ^ 64
        ∧ s'.tiles[t].claimed.toList.getD (tag % 2) none = some tag ∧ s'.tiles[t].g = s.tiles[t].g ∧ s'.tiles[t].store = s.tiles[t].store
        ∧ s' = { s with regs := s'.regs, tiles := s'.tiles } ∧ ∀ u : TileId, u ≠ t → s'.tiles[u] = s.tiles[u])
    ∧ (CcGo s t a .item .other [] [] → s.tiles[t].ctx ≠ none →
      exec (.epochCommit t a) s = .next (((s.modTile t (fun tl => { tl with ctx := none })).putB (Reg.tileEpoch t) 18 false).advance t))
    ∧ (CcGo s t a .handler .other [a.rs1.toNat] [] →
      (∀ e, s.frm.live.find? (fun e => e.frame % 256 == tag) = some e → exec (.epochRein t a) s = .next ((s.reinTile t e.frame).advance t))
        ∧ (s.frm.live.find? (fun e => e.frame % 256 == tag) = none →
          exec (.epochRein t a) s = .next ((s.count (Cnt.tileCntRein t)).advance t)))

/-- The system class (R377, R380, R383, R384, R395, R440): END ends the item and lets the next one start; TSRR reads the tile's own block; TSRW
writes the handler vector or a scratch register; TLB.INV drops entries; RESUME and ABANDON end the handler. -/
def Obligations.SystemInstructions : Prop :=
  ∀ (s : State) (t : TileId) (a : CcArgs),
    let o := a.imm.toNat % 4096
    let v := (s.rs1 t a).toNat;
    (CcGo s t a .item .other [] [] →
      exec (.endItem t a) s = .next ((((s.advance t).modTile t (fun tl =>
        { tl with running := none, ctx := none, ended := tl.ended ++ tl.running.toList })).putB (Reg.tileEpoch t) 18 false).startItem t))
    ∧ (CcGo s t a .both .other [] [a.rd.toNat] → a.imm.toNat % 8 = 0 →
      exec (.tsrr t a) s = .next (s.setRd t a (BitVec.ofNat 64 (s.tilePeek t o + 2 ^ 32 * s.tilePeek t (o + 4)))))
    ∧ (CcGo s t a .handler .other [a.rs1.toNat] [] →
      (o = 0x600 → exec (.tsrw t a) s = .next ((s.put64 (Reg.tileHvec t) (bitsN v 21 3 * 8)).advance t))
        ∧ (∀ k : Fin 4, o = 0x618 + 8 * k.val → ∃ s', exec (.tsrw t a) s = .next s' ∧ s'.rd64 (Reg.tileHscr t k) = v
          ∧ s'.tiles[t].pc = (s.tiles[t].pc + 8) % 2 ^ 64 ∧ RegsKept s s' [Reg.tileHscr t k, Reg.tileHscr t k + 4])
        ∧ (let s1 := s.tlbInvalidate t (bitN a.imm.toNat 0) v
           exec (.tlbInv t a) s = .next (if s1.tiles[t].inFlight then s1 else s1.advance t)))
    ∧ (CcGo s t a .handler .other [] [] →
      exec (.resume t a) s = .next ((s.resumeNow t).retiredAt t) ∧ exec (.abandon t a) s = .next ((s.abandonNow t).retiredAt t))

/-- What R366 and R373 make illegal, for every Berbo instruction and whatever its other fields: a fetch fault raises its own cause; PMODE
3 raises cause 1. An instruction whose predicate does not let it issue only passes (R373); an array pass with SQS signals as it does. -/
def Obligations.IssueChecks : Prop :=
  ((∀ (i : Instr) (s : State) (t : TileId) (c o : BitVec 6) (a : CcArgs), ccWord i = some (t, c, o, a) → s.coreRuns t = true →
       (∀ cz x, s.fetchCheck t = .fault cz x → exec i s = .next (s.raiseC t cz x))
         ∧ (s.fetchCheck t = .ok () → a.pmode = 3 → exec i s = .next (s.raiseC t .illegal 0)))
     ∧ ∀ (i : Instr) (s : State) (t : TileId) (c o : BitVec 6) (a : UArgs), unitWord i = some (t, c, o, a) → s.coreRuns t = true →
       (∀ cz x, s.fetchCheck t = .fault cz x → exec i s = .next (s.raiseC t cz x))
         ∧ (s.fetchCheck t = .ok () → a.pmode = 3 → exec i s = .next (s.raiseC t .illegal 0)))
  ∧ ((∀ (s : State) (t : TileId) (a : CcArgs), Fetches s t → a.pmode ≠ 3 → predPass s.tiles[t].p a.pmode a.pred = false →
         ∀ i ∈ [Instr.add t a, .sub t a, .mul t a, .addI t a, .liH t a, .ldt t a, .stt t a, .ld t a, .st t a, .beq t a, .jal t a, .jr t a,
           .fenceSb t a, .fenceAll t a, .tread t a], exec i s = .next (s.advance t))
       ∧ ∀ (s : State) (t : TileId) (a : UArgs), Fetches s t → a.pmode ≠ 3 → s.inHandler t = false → predPass s.tiles[t].p a.pmode a.pred = false →
         ∀ x ∈ passOps, passDecode x.1 a = true →
           let k := a.st.toNat
           exec (x.2 t a) s = .next (if a.sqs = false then s.advance t
             else if s.tok t k < 65535 then (s.put (Reg.tileToken t k) (s.tok t k + 1)).advance t
             else ((s.put (Reg.tileToken t k) 65535).orReg (Reg.tileTokOvf t) (2 ^ k)).raiseC t .token 0))

/-- A unit instruction that issues (R190, R191, R369) takes its place in the window and in the queues it names, for every unit. What
entering the window changes, and all that it changes: one entry behind all others, with its fields, tag, item and operand values, and the
PC by 8. No effect of the instruction is there yet. -/
def Obligations.UnitIssue : Prop :=
  (∀ (s : State) (t : TileId) (a : UArgs),
     (∀ x ∈ passOps, UGo s t x.1 a (passDecode x.1 a) (arrQueues a) (uGs a) true → exec (x.2 t a) s = .next (s.enterWindow t x.1 a (arrQueues a)))
     ∧ (∀ x ∈ wldOps, UGo s t x.1 a (wldDecode x.1 a) (arrQueues a) (uGs a) true → exec (x.2 t a) s = .next (s.enterWindow t x.1 a (arrQueues a)))
     ∧ (UGo s t .swap a (swapDecode a) (arrQueues a) (uGs a) true → exec (.swap t a) s = .next (s.enterWindow t .swap a (arrQueues a)))
     ∧ (∀ x ∈ vecOps, UGo s t x.1 a (vecDecode x.1 a) [4] (vecGs x.1 a) true → exec (x.2 t a) s = .next (s.enterWindow t x.1 a [4]))
     ∧ (∀ x ∈ quillOps, UGo s t x.1 a (quillDecode x.1 a) [5] (uGs a) true → exec (x.2 t a) s = .next (s.enterWindow t x.1 a [5]))
     ∧ (∀ x ∈ hoardOps, UGo s t x.1 a (hoardDecode x.1 a && formatOk x.1 (s.hoardFmt t a)) [6] (uGs a)
           (!((x.1 == .hupdQ8 || x.1 == .hupdQ4) && s.tiles[t].ctx.isSome)) → exec (x.2 t a) s = .next (s.enterWindow t x.1 a [6]))
     ∧ (∀ x ∈ treeOps, UGo s t x.1 a (treeDecode x.1 a) [7] (uGs a) true → exec (x.2 t a) s = .next (s.enterWindow t x.1 a [7])))
  ∧ (∀ (s : State) (t : TileId) (op : UOp) (a : UArgs) (qs : List Nat),
       let s' := s.enterWindow t op a qs
       let tl := s.tiles[t]
       OnlyTile s s' t
         ∧ (∃ u : UEntry, s'.tiles[t] = { tl with window := tl.window ++ [u], nextSeq := tl.nextSeq + 1, pc := (tl.pc + 8) % 2 ^ 64, lastRetire := s.time }
           ∧ u.seq = tl.nextSeq ∧ u.op = op ∧ u.args = a ∧ u.queues = qs ∧ u.tag = tl.ctx ∧ u.pc = tl.pc ∧ u.work = tl.running
           ∧ u.started = false ∧ u.consumed = false ∧ u.ga = tl.getG a.ga.toNat ∧ u.gb = tl.getG a.gb.toNat ∧ u.gc = tl.getG a.gc.toNat))

/-! ### Berbo: the units -/

/-- UNIT_INSTRUCTION_START (R192, R194, R389): the instruction that can start has its values checked, takes its wait, once, and starts,
where its checks pass; where its counter holds too little it stays and the stall is counted; where its page is not in the TLB a walk
begins; where a check fails it raises its exception. HPREF waits while four lists are open, and a device VLD while its die's bond traffic
is held. A wait (R194, R195): none where the instruction names none or has taken it; else the count leaves the counter, and only where the
counter holds it beside what waits at lower queues. Nothing but that counter and the window of the tile changes. -/
def Obligations.UnitStart : Prop :=
  (∀ (s : State) (t : TileId) (q : Fin 8) (u : UEntry), s.alive = true → s.tiles[t].startable q.val = some u →
     let w := s.takeWait t u ((u.queues.find? u.inQ).getD 0);
     (s.valuesOk t u = false → exec (.unitInstructionStart t q) s = .next (s.startFault t u .illegal 0))
       ∧ (s.valuesOk t u = true → w = none → exec (.unitInstructionStart t q) s = .next (s.count64 (Reg.tileCntTokwait t)))
       ∧ ∀ s1 u1, s.valuesOk t u = true → w = some s1 → s1.entry t u.seq = some u1 →
         let full := u1.op = .hpref ∧ 4 ≤ s1.tiles[t].openLists
         let held := u1.op = .vld ∧ bitN u1.args.imm.toNat 2 = true ∧ s1.bondHeld t = true;
         (full → exec (.unitInstructionStart t q) s = .next (s1.count64 (Reg.hrdCntOutfull t)))
           ∧ (held → exec (.unitInstructionStart t q) s = .next s1)
           ∧ (¬ full → ¬ held →
             (∀ b, s1.checkU t u1 = .ok b → exec (.unitInstructionStart t q) s =
               .next (((s1.startU t u1 b).modEntry t u1.seq (fun e => { e with started := true })).fillSlots t))
             ∧ (∀ va st, s1.checkU t u1 = .miss va st → exec (.unitInstructionStart t q) s = .next (s1.addWalk t va st (some u1.seq)))
             ∧ (∀ c x, s1.checkU t u1 = .fault c x → exec (.unitInstructionStart t q) s = .next (s1.startFault t u1 c x))))
  ∧ (∀ (s : State) (t : TileId) (u : UEntry) (q : Nat),
       let k := u.args.wt.toNat
       let c := u.args.wc.toNat
       let left := s.tokLeft t (fun v => !(s.tiles[t].blocked v) && v.seq != u.seq) k q
       (u.consumed = true ∨ c = 0 → s.takeWait t u q = some s)
         ∧ (q = 0 → left = s.tok t k)
         ∧ (u.consumed = false → c ≠ 0 → left < c → s.takeWait t u q = none)
         ∧ (u.consumed = false → c ≠ 0 → c ≤ left → ∃ s', s.takeWait t u q = some s' ∧ s'.tok t k = s.tok t k - c
           ∧ RegsKept s s' [Reg.tileToken t k] ∧ s' = { s with regs := s'.regs, tiles := s'.tiles }
           ∧ s'.tiles[t] = { s.tiles[t] with window := s'.tiles[t].window } ∧ ∀ v : TileId, v ≠ t → s'.tiles[v] = s.tiles[v]))

/-- UNIT_INSTRUCTION_RETIRE (R192, R194): the started instruction at the front of all its queues goes as far as its unit can bring it; once
its effect is complete it leaves the window, writes its scalar result and signals; one that must still wait keeps its place, and so does
one that has not started or stands behind another in a queue; then a weight load behind it completes (log 119). -/
def Obligations.UnitRetire : Prop :=
  ∀ (s : State) (t : TileId) (q : Fin 8) (u : UEntry), s.alive = true → s.tiles[t].first q.val = some u →
    let oldest := ∀ k ∈ u.queues, (s.tiles[t].first k).map (·.seq) = some u.seq;
    (u.started = true → oldest → ¬ (u.op = .lblSt ∧ s.bondHeld t = true) →
      (∀ v s1, s.stepU t u = .fin v s1 → exec (.unitInstructionRetire t q) s = .next ((s1.retireU t u v).fillSlots t)
        ∧ (u.args.se = false → ∀ e ∈ (s1.retireU t u v).tiles[t].window, e.seq ≠ u.seq)
        ∧ (u.args.se = false → u.op.scalar = true → u.args.rd ≠ 0 →
          (s1.retireU t u v).tiles[t].getG u.args.rd.toNat = BitVec.ofNat 64 v)
        ∧ (u.args.se = true → (u.op.isWld = false ∨ u.done = 0) → s1.tok t u.args.st.toNat < 65535 →
          (s1.retireU t u v).tok t u.args.st.toNat = s1.tok t u.args.st.toNat + 1))
      ∧ (∀ s1, s.stepU t u = .stay s1 → exec (.unitInstructionRetire t q) s = .next ((s1.behind t q.val).fillSlots t))
      ∧ (∀ c x s1, s.stepU t u = .fault c x s1 → exec (.unitInstructionRetire t q) s = .next (s1.hoardFault t u.seq c x)))
    ∧ (u.started = true → oldest → u.op = .lblSt → s.bondHeld t = true → exec (.unitInstructionRetire t q) s = .next s)
    ∧ (u.started = false ∨ ¬ oldest → exec (.unitInstructionRetire t q) s = .next (s.behind t q.val))
    ∧ (s.tiles[t].wldOf q.val = none → s.behind t q.val = s)
    ∧ ∀ w, s.tiles[t].wldOf q.val = some w → s.behind t q.val = s.wldDone t w

/-- SWAP_ARM (R251, R253, R405): the SWAP at the head of the array's queue takes its wait; with the shadow bank complete and no swap armed
it arms there and keeps its place until every array it names has armed, then retires; while a weight load of the array is in progress
the wait is counted; with none it raises a load fault; and while an armed swap stands it is an illegal instruction. -/
def Obligations.SwapArms : Prop :=
  ∀ (s : State) (t : TileId) (a : Fin 4) (u : UEntry), s.alive = true → s.tiles[t].head a.val = some u → u.op = .swap →
    s.tiles[t].blocked u = false → s.tiles[t].swapDue a.val = false →
    (s.tiles[t].arr[a].armed = true → exec (.swapArm t a) s = .next (s.raiseU t ⟨.illegal, 0⟩ u))
    ∧ (s.tiles[t].arr[a].armed = false → s.takeWait t u a.val = none → exec (.swapArm t a) s = .next (s.count64 (Reg.tileCntTokwait t)))
    ∧ ∀ u1 s1, s.tiles[t].arr[a].armed = false → s.takeWait t u a.val = some s1 → s1.entry t u.seq = some u1 →
      (s1.tiles[t].arr[a].shadow.full = true →
        let s2 := s1.modTile t (fun tl => (tl.modArr a.val (fun r => { r with armed := true })).modU u1.seq
          (fun e => { e with armed := a.val :: e.armed }));
        (u1.queues.all (fun k => (a.val :: u1.armed).contains k) = false → exec (.swapArm t a) s = .next s2)
          ∧ (u1.queues.all (fun k => (a.val :: u1.armed).contains k) = true →
            ∃ u2, s2.entry t u1.seq = some u2 ∧ exec (.swapArm t a) s = .next (s2.retireU t u2 0)))
      ∧ (s1.tiles[t].arr[a].shadow.full = false →
        exec (.swapArm t a) s = .next (if s1.tiles[t].loading a.val then s1.count64 (Reg.tileArrCntSwapwait t a) else s1.startFault t u1 .load 0))

/-- The lanes of an arithmetic or logic form (R406): each lane of V[GA] takes the operation of the lanes of V[GB] and V[GC], every other V
register and the rest of the tile stay; integer sums, differences, products, maxima and minima are exact where they fit the type, and
shifts by less than 32 shift. -/
def Obligations.VectorLanes : Prop :=
  (∀ (s : State) (t : TileId) (u : UEntry), u.op ∈ [UOp.vadd, .vsub, .vmul, .vmax, .vmin, .vand, .vor, .vxor, .vshl, .vshr] →
    ∃ s', s.stepU t u = .fin 0 s'
      ∧ (∀ i < 64, ∃ fr, s'.tiles[t].vGet u.args.ga.toNat i = laneOp u.op (bitsN u.args.imm.toNat 1 0)
          (s.tiles[t].vGet u.args.gb.toNat i) (s.tiles[t].vGet u.args.gc.toNat i) fr % 2 ^ 32)
      ∧ (∀ r i, i < 64 → r ≠ u.args.ga.toNat → s'.tiles[t].vGet r i = s.tiles[t].vGet r i)
      ∧ s'.tiles[t] = { s.tiles[t] with v := s'.tiles[t].v } ∧ s' = { s with tiles := s'.tiles, freeCtr := s'.freeCtr }
      ∧ ∀ v : TileId, v ≠ t → s'.tiles[v] = s.tiles[v])
    ∧ (∀ a b fr : Nat, a < 2 ^ 32 → b < 2 ^ 32 →
      (a + b < 2 ^ 32 → laneOp .vadd 2 a b fr = a + b) ∧ (b ≤ a → laneOp .vsub 2 a b fr = a - b)
        ∧ (a * b < 2 ^ 32 → laneOp .vmul 2 a b fr = a * b) ∧ laneOp .vmax 2 a b fr = max a b ∧ laneOp .vmin 2 a b fr = min a b
        ∧ laneOp .vand 2 a b fr = a &&& b ∧ laneOp .vor 2 a b fr = a ||| b ∧ laneOp .vxor 2 a b fr = a ^^^ b
        ∧ (b < 32 → laneOp .vshl 2 a b fr = a * 2 ^ b % 2 ^ 32 ∧ laneOp .vshr 2 a b fr = a / 2 ^ b))
    ∧ (∀ (x y : Int) (fr : Nat), -2 ^ 31 ≤ x → x < 2 ^ 31 → -2 ^ 31 ≤ y → y < 2 ^ 31 → -2 ^ 31 ≤ x + y → x + y < 2 ^ 31 →
      laneOp .vadd 0 (unsint 32 x) (unsint 32 y) fr = unsint 32 (x + y))

/-- Accumulation in INT8 and INT4 (R244): where no partial sum leaves 32 bits the column's sum is exact and nothing saturates. -/
def Obligations.AccumulatorExact : Prop :=
  ∀ (xs : List (Nat × Nat)) (w : Nat → Int) (acc : Nat), acc < 2 ^ 32 →
    (∀ n ≤ xs.length, -2 ^ 31 ≤ sint 32 acc + ((xs.take n).map (fun e => sint 8 e.2 * w e.1)).sum
      ∧ sint 32 acc + ((xs.take n).map (fun e => sint 8 e.2 * w e.1)).sum < 2 ^ 31) →
    sumInt acc xs w = (unsint 32 (sint 32 acc + (xs.map (fun e => sint 8 e.2 * w e.1)).sum), 0)

/-- Responses to a tile (R202, R306, R314, R318, R450): a request of the Hoard unit that holds an outstanding slot is served, or dropped
where its instruction has gone, and one that waits for a slot is counted; the oldest lookup is served; a prefetched row that holds a slot
is served; a load of the control core writes its bytes, those the store buffer forwarded in place, to its register. PAGE_WALK_END (R436,
R437): the walk that ends next ends; its entry goes into the TLB, as its newest, or the access that waits faults: that of a unit
instruction as the instruction's, that of the control core as its own; a prefetched row is left out. Where the tile's walks all wait for a
slot of the walker, the wait is counted. -/
def Obligations.UnitResponses : Prop :=
  (∀ (s : State) (t : TileId) (i : Nat), s.alive = true →
     let s0 := s.fillSlots t;
     (∀ q, s0.tiles[t].gathers[i]? = some q →
       (q.home = none → exec (.gatherResponse t i) s = .next (s0.count64 (Reg.hrdCntOutfull t)))
       ∧ (q.home ≠ none → q.look = none → q.lost = none → q.remote = none ∨ q.drop = true →
         exec (.gatherResponse t i) s = .next ((s0.serveReq t q).fillSlots t)
           ∧ (q.drop = true → exec (.gatherResponse t i) s =
             .next ((s0.modTile t (fun tl => { tl with gathers := tl.gathers.erase q })).fillSlots t))))
     ∧ (∀ q, s0.tiles[t].gathers.find? (fun q => q.look.isSome && q.lost.isNone) = some q →
       exec (.dreyLookup t) s = .next (if q.home = none then s0.count64 (Reg.hrdCntOutfull t) else (s0.serveLook t q).fillSlots t))
     ∧ (∀ p k h, s0.tiles[t].pfOut[i]? = some (p, k, h) → exec (.prefetchRowLand t i) s = .next ((s0.pfServe t p k).fillSlots t))
     ∧ (∀ q, s.tiles[t].loads[i]? = some q → q.remote = none → q.lost = none → q.vec = none → q.tag = none → q.dst ≠ 0 → q.dst < 32 →
       s.area q.addr ≠ .pcie → s.mem.badIn (q.addr / 64 * 64) ((q.addr + q.len + 63) / 64 * 64 - q.addr / 64 * 64) = [] → s.mem.soft = [] →
       exec (.deviceLoadReturn t i) s = .next (s.modTile t (fun tl =>
         { tl with loads := tl.loads.erase q }.setG q.dst (BitVec.ofNat 64 (leNat (mergeFwd (s.mem.bytes q.addr q.len) q.fwd)))))))
  ∧ (∀ (s : State) (t : TileId) (w : Walk), s.alive = true →
       (s.nextWalk t = none → s.tiles[t].walks ≠ [] → exec (.pageWalkEnd t) s = .next (s.count64 (Reg.tileCntWalkwait t)))
       ∧ (s.nextWalk t = some w →
         let s1 := s.modTile t (fun tl => { tl with walks := tl.walks.erase w });
         (∀ e s2, s1.walkFor s1.tiles[t] w.vaddr w.store = (.entry e, s2) →
           exec (.pageWalkEnd t) s = .next (s2.modTile t (fun tl => tl.tlbPut e)) ∧ (s2.tiles[t].tlbPut e).tlb.getLast? = some e)
         ∧ (∀ lost s2, s1.walkFor s1.tiles[t] w.vaddr w.store = (.fault lost, s2) →
           let s3 := if lost then s2.degradeTag (s.tiles[t].walkTag w) else s2
           (∀ q, w.seq = some q → exec (.pageWalkEnd t) s = .next (s3.hoardFault t q .translation w.vaddr))
             ∧ (w.seq = none → w.pf = true → exec (.pageWalkEnd t) s = .next ((s3.count (Cnt.tileCntTfault t)).pfSkip t w.vaddr))
             ∧ (w.seq = none → w.pf = false → s3.coreRuns t = true → exec (.pageWalkEnd t) s = .next (s3.raiseC t .translation w.vaddr)))))

/-- STORE_BUFFER_ACCEPT and SCATTER_ENTRY_ACCEPT (R201, R315, R317) while the bond holds nothing back: an entry with none of its line, or
of its table row, before it leaves its buffer and its bytes stand in this package's memory, every other byte as before; fences that waited
for it retire (R396). -/
def Obligations.AcceptedEntries : Prop :=
  ∀ (s : State) (t : TileId) (i a : Nat), s.alive = true → s.bondHeld t = false →
    (∀ e, s.tiles[t].sb[i]? = some e → e.accepted = false → (∀ x ∈ s.tiles[t].sb.take i, x.line ≠ e.line) →
      (∀ l ∈ s.tiles[t].loads, l.addr % 2 ^ 42 / 64 * 64 ≠ e.line % 2 ^ 42) → s.whereIs e.line = .here a → s.area a ≠ .pcie →
      s.mem.bad = [] → s.mem.soft = [] → e.bytes.Pairwise (fun x y => x.1 < y.1) → (∀ c ∈ e.bytes, c.1 < 64) →
      ∃ s', exec (.storeBufferAccept t i) s = .next s'
        ∧ s'.tiles[t] = { s.tiles[t] with sb := s.tiles[t].sb.eraseIdx i, fences := s'.tiles[t].fences, lastRetire := s'.tiles[t].lastRetire }
        ∧ s'.tiles[t].fences = s.tiles[t].fences.filter (fun f => !(f.met s'.tiles[t]))
        ∧ (∀ u : TileId, u ≠ t → s'.tiles[u] = s.tiles[u])
        ∧ s' = { s with tiles := s'.tiles, mem := s'.mem } ∧ (∀ c ∈ e.bytes, s'.mem.byte (a + c.1) = c.2)
        ∧ ∀ k, (∀ c ∈ e.bytes, k ≠ a + c.1) → s'.mem.byte k = s.mem.byte k)
    ∧ (∀ e, s.tiles[t].scat[i]? = some e → e.accepted = false → (∀ x ∈ s.tiles[t].scat.take i, ¬ (x.table = e.table ∧ x.row = e.row)) →
      (∀ p ∈ e.parts, ∃ l, s.whereIs p.1 = .here l ∧ s.area l ≠ .pcie) →
      s.mem.bad = [] → s.mem.soft = [] →
      exec (.scatterEntryAccept t i) s =
        .next (((e.parts.foldl (fun (x : State) p => x.memWrite (p.1 % 2 ^ 42) p.2) s).modTile t
          (fun tl => { tl with scat := tl.scat.eraseIdx i })).settleFences t))

/-- HANDLER_ENTRY (R211, R381, R455): with an exception contained, the window empty and every store-buffer and scatter-stage entry gone or
accepted, the core enters the handler at TILE_HVEC; TILE_HEPC holds the PC of the exception and TILE_HSTAT says that the handler runs,
whether RESUME may resume, whether the item was handed back, and the wait that was given back to its counter. -/
def Obligations.HandlerEntry : Prop :=
  ∀ (s : State) (t : TileId) (x : ExcRec), s.alive = true → s.tiles[t].exc = some x → s.bit (Reg.tileHstat t) 0 = false →
    s.tiles[t].window = [] → (∀ e ∈ s.tiles[t].sb, e.accepted = true) → (∀ e ∈ s.tiles[t].scat, e.accepted = true) →
    let base := 1 + 2 * b2n (x.younger == 0 && !x.back) + 4 * b2n x.back
    ∃ s', exec (.handlerEntry t) s = .next s' ∧ s'.inHandler t = true ∧ s'.tiles[t].pc = s.fld (Reg.tileHvec t) 21 3 * 8
      ∧ s'.rd64 (Reg.tileHepc t) = x.pc % 2 ^ 22 ∧ s' = { s with regs := s'.regs, tiles := s'.tiles }
      ∧ s'.tiles[t] = { s.tiles[t] with pc := s'.tiles[t].pc, replay := s'.tiles[t].replay } ∧ (∀ v : TileId, v ≠ t → s'.tiles[v] = s.tiles[v])
      ∧ ((∀ e, x.entry = some e → e.consumed = false) →
        s'.rd (Reg.tileHstat t) = base ∧ RegsKept s s' [Reg.tileHstat t, Reg.tileHepc t, Reg.tileHepc t + 4])
      ∧ ∀ e, x.entry = some e → e.consumed = true →
        let k := e.args.wt.toNat
        s'.rd (Reg.tileHstat t) = base + 2 ^ 3 + 2 ^ 4 * k + 2 ^ 8 * e.args.wc.toNat
          ∧ s'.tok t k = min 65535 (s.tok t k + e.args.wc.toNat)
          ∧ RegsKept s s' [Reg.tileHstat t, Reg.tileHepc t, Reg.tileHepc t + 4, Reg.tileToken t k, Reg.tileTokOvf t]

/-- A signal past 65,535 (R196) leaves the counter at 65,535, sets its bit in TILE_TOK_OVF and raises a token-overflow exception, whether TSIG,
a retiring unit instruction or a squashed one signals. -/
def Obligations.TokenOverflow : Prop :=
  ∀ (s : State) (t : TileId) (k : Fin 16) (n : Nat), 65535 < s.tok t k + n →
    ∃ s1, s1.tok t k = 65535 ∧ s1.bit (Reg.tileTokOvf t) k = true ∧ RegsKept s s1 [Reg.tileToken t k, Reg.tileTokOvf t]
      ∧ (∀ j, j ≠ k.val → s1.bit (Reg.tileTokOvf t) j = s.bit (Reg.tileTokOvf t) j) ∧ s1 = { s with regs := s1.regs }
      ∧ (∀ a : CcArgs, CcGo s t a .item .other [] [] → tokenArgsOk a = true → bitsN a.imm.toNat 3 0 = k.val → bitsN a.imm.toNat 31 16 = n →
        exec (.tsig t a) s = .next (s1.raiseC t .token 0))
      ∧ (∀ u : UEntry, s.signal t k n (some u) = s1.raiseU t ⟨.token, 0⟩ u)
      ∧ (∀ u : UEntry, n = 1 → u.args.se = true → u.args.st.toNat = k.val → s.signalU t u = s1.raiseU t ⟨.token, 0⟩ u)
      ∧ ∀ a : UArgs, n = 1 → a.sqs = true → a.st.toNat = k.val → s.squash t a = s1.raiseC t .token 0

/-! ### Control space -/

/-- An access error (R630), of whatever cause and requester: it is recorded, whatever was recorded before, and counted; the write or read that meets it has
no other effect on a register; a reserved address is cause 1. -/
def Obligations.AccessErrors : Prop :=
  ∀ (s : State) (r : ReqId) (off : BitVec 28) (w : Nat) (v : BitVec 64) (n : Bool) (c : AccCause), s.alive = true →
    let recorded := fun (s' : State) => s'.rd64 Reg.gaitAccErr = off.toNat + 2 ^ 28 * r.val + 2 ^ 32 * c.code + 2 ^ 35
      ∧ s'.rd Cnt.evtCntAccerr.reg = min 0xFFFFFFFF (s.rd Cnt.evtCntAccerr.reg + 1);
    (s.accCheck r true (selOf off.toNat w) w = some c →
      ∃ s', exec (.registerWrite r off w v) s = .next s' ∧ recorded s' ∧ (isMirror off.toNat = false → s' = { s with regs := s'.regs }
        ∧ RegsKept s s' ([Reg.gaitAccErr, Reg.gaitAccErr + 4] ++ ctrWords Cnt.evtCntAccerr)))
    ∧ (s.accCheck r false (selOf off.toNat w) w = some c →
      ∃ s', exec (.rcRead r off w n) s = .next s' ∧ recorded s' ∧ (isMirror off.toNat = false → s' = { s with regs := s'.regs, rdata := s'.rdata }
        ∧ spGet (fun _ => 0) s'.rdata r.val = 0 ∧ RegsKept s s' ([Reg.gaitAccErr, Reg.gaitAccErr + 4] ++ ctrWords Cnt.evtCntAccerr)))
    ∧ (selOf off.toNat w = .reserved → s.accCheck r true (selOf off.toNat w) w = some .reserved
      ∧ s.accCheck r false (selOf off.toNat w) w = some .reserved ∧ AccCause.reserved.code = 1)
    ∧ recorded (s.accErr r off.toNat c)

/-- A unicast write (R11, R623) that nothing refuses writes the words it selects, lowest first; under a word's access code alone RW and RWS
take the writable bits, a 1 clears a W1C bit, and RO and RC ignore the write. -/
def Obligations.UnicastWrites : Prop :=
  (∀ (s : State) (r : ReqId) (off : BitVec 28) (w : Nat) (v : BitVec 64), s.alive = true → isMirror off.toNat = false →
      s.accCheck r true (selOf off.toNat w) w = none → selWords (selOf off.toNat w) w ≠ [] →
      exec (.registerWrite r off w v) s = .next (s.regWrite r (selWords (selOf off.toNat w) w) v.toNat))
    ∧ ∀ (s : State) (o v : Nat) (row : RegRow) (k : Nat), regAt o = some (row, k) →
      let s' := s.storeWord o v
      (row.acc = .rw ∨ row.acc = .rws →
        ∀ i < 32, bitN (s'.rd o) i = if bitN (row.mask >>> (32 * k)) i then bitN v i else bitN (s.rd o) i)
      ∧ (row.acc = .w1c → ∀ i < 32, bitN (s'.rd o) i = (bitN (s.rd o) i && !(bitN v i && bitN (row.mask >>> (32 * k)) i)))
      ∧ (row.acc = .ro ∨ row.acc = .rc → s' = s)
      ∧ RegsKept s s' [o] ∧ s' = { s with regs := s'.regs, written := s'.written }

/-- RC_READ (R13, R14, R623): a unicast read of a 32-bit counter returns its count and clears it, or leaves 1 where an event met the read; a
64-bit read of a 64-bit counter does likewise; a 32-bit read of half of one clears nothing. TILE_CNT_CYCLES returns with it the cycles the
tile has run that it does not hold yet (log 56). -/
def Obligations.RcReads : Prop :=
  ∀ (s : State) (r : ReqId) (off : BitVec 28) (n : Bool) (row : RegRow) (o : Nat), s.alive = true → isMirror off.toNat = false →
    selWords (selOf off.toNat 4) 4 = [o] → row.acc = .rc → ¬ (0xA0000 ≤ o ∧ o < 0xC0000) → o ≠ Reg.gaitAccErr → o ≠ Reg.gaitAccErr + 4 →
    ¬ (Reg.hltVerdictFrame ≤ o ∧ o < Reg.hltVerdictTime + 8) →
    let data := fun (s' : State) => spGet (fun _ => (0 : W64)) s'.rdata r.val
    let cycles := ∃ t : TileId, o = Reg.tileCntCycles t;
    (s.accCheck r false (selOf off.toNat 4) 4 = none → regAt o = some (row, 0) → row.words = 1 → ¬ cycles →
      ∃ s', exec (.rcRead r off 4 n) s = .next s' ∧ data s' = BitVec.ofNat 64 (s.peekWord o % 2 ^ 32) ∧ s'.rd o = b2n n
        ∧ RegsKept s s' [o] ∧ s' = { s with regs := s'.regs, rdata := s'.rdata })
    ∧ (s.accCheck r false (selOf off.toNat 4) 4 = none → n = false → (∃ k, regAt o = some (row, k)) → row.words = 2 → ¬ cycles →
      ∃ s', exec (.rcRead r off 4 n) s = .next s' ∧ data s' = BitVec.ofNat 64 (s.peekWord o % 2 ^ 32) ∧ s' = { s with rdata := s'.rdata })
    ∧ (selWords (selOf off.toNat 8) 8 = [o, o + 4] → s.accCheck r false (selOf off.toNat 8) 8 = none → regAt o = some (row, 0) →
      regAt (o + 4) = some (row, 1) → row.words = 2 → ¬ cycles →
      ∃ s', exec (.rcRead r off 8 n) s = .next s'
        ∧ data s' = BitVec.ofNat 64 (s.peekWord o % 2 ^ 32 + 2 ^ 32 * (s.peekWord (o + 4) % 2 ^ 32)) ∧ s'.rd64 o = b2n n
        ∧ RegsKept s s' [o, o + 4] ∧ s' = { s with regs := s'.regs, rdata := s'.rdata })
    ∧ ∀ t : TileId, o = Reg.tileCntCycles t → selWords (selOf off.toNat 8) 8 = [o, o + 4] → s.accCheck r false (selOf off.toNat 8) 8 = none →
      regAt o = some (row, 0) → regAt (o + 4) = some (row, 1) → row.words = 2 →
      ∃ s', exec (.rcRead r off 8 n) s = .next s' ∧ data s' = BitVec.ofNat 64 ((s.rd64 o + s.cyclesDue t) % 2 ^ 64) ∧ s'.rd64 o = b2n n
        ∧ RegsKept s s' [o, o + 4] ∧ s' = { s with regs := s'.regs, rdata := s'.rdata, tiles := s'.tiles }
        ∧ s'.tiles[t] = { s.tiles[t] with cycFrom := s.tiles[t].cycFrom + 5 * (s.cyclesDue t / 8) } ∧ ∀ u : TileId, u ≠ t → s'.tiles[u] = s.tiles[u]

/-- Register commands any requester may write in every gait: the frame period (R31, R506), GAIT_REQ (R555), GAIT_RST_CTRL (R570), the boot
doorbell (R577), GAIT_TIME_SET (R562), GAIT_FRM_START (R563) and EVT_LOG_SW (R604). A step of the time base moves with it the instants
that elapsed time is counted from. -/
def Obligations.GaitRegisterCommands : Prop :=
  ∀ (s : State) (r : ReqId), MayWrite s r →
    (∀ us : BitVec 32, exec (.framePeriodWrite r us) s = .next (s.periodWrite us.toNat)
      ∧ (s.periodWrite us.toNat).rd Reg.gaitFrmPeriod = if s.isWheel then s.rd Reg.gaitFrmPeriod else clampN 25000 200000 us.toNat)
    ∧ (∀ g : BitVec 16, exec (.gaitReqWalk r g) s = .next (s.gaitReqWrite r (1 + 2 ^ 16 * g.toNat))
      ∧ exec (.gaitReqTrot r g) s = .next (s.gaitReqWrite r (2 + 2 ^ 16 * g.toNat))
      ∧ exec (.gaitReqStable r g) s = .next (s.gaitReqWrite r (3 + 2 ^ 16 * g.toNat))
      ∧ exec (.gaitReqNone r g) s = .next (s.gaitReqWrite r (2 ^ 16 * g.toNat)))
    ∧ (exec (.gaitRstHostCore r) s = .next (s.rstCtrl 1) ∧ exec (.gaitRstPackage r) s = .next (s.packageReset 2)
      ∧ (s.rstCtrl 1).rd Reg.gaitRstCause = 5 ∧ exec (.gaitBootDoorbell r) s = .next s.doorbell)
    ∧ (∀ d : BitVec 64, s.bit Reg.ingCtrl 0 = false → s.frm.live = [] →
      let now := (s.time + d.toNat) % 2 ^ 64
      ∃ t, exec (.gaitTimeSet r d) s = .next t ∧ t.time = now ∧ t.frm.nextB = (s.frm.nextB + d.toNat) % 2 ^ 64
        ∧ t.frameNum = s.frameNum ∧ t.mem = s.mem ∧ (∀ u : TileId, t.tiles[u] = s.tiles[u].shift (fun x => ((x : Int) + d.toInt).toNat))
        ∧ (s.gait.wakeArmed = false ∨ now < s.rd64 Reg.gaitWakeTime → RegsKept s t [Reg.gaitTimeSet, Reg.gaitTimeSet + 4]))
    ∧ (∀ d : BitVec 64, s.bit Reg.ingCtrl 0 = true ∨ s.frm.live ≠ [] →
      ∃ t, exec (.gaitTimeSet r d) s = .next t ∧ t.time = s.time ∧ t.frm = s.frm ∧ t.gait = s.gait)
    ∧ (s.gait.lead = true → s.bit Reg.gaitStat 6 = false → s.time + 100000 ≤ s.rd64 Reg.gaitFrmOrigin →
      ∃ t, exec (.gaitFrmStart r) s = .next t ∧ t.bit Reg.gaitStat 6 = true ∧ t.frm.atOrigin = true ∧ t.frm.nextB = s.rd64 Reg.gaitFrmOrigin
        ∧ t.frm.period = 1000 * s.rd Reg.gaitFrmPeriod ∧ RegsKept s t [Reg.gaitStat] ∧ t = { s with regs := t.regs, frm := t.frm })
    ∧ ∀ (c : BitVec 16) (u : BitVec 8), exec (.evtLogSw r c u) s = .next (s.logEvent c.toNat u.toNat (ReqId.source r) (s.rd64 Reg.evtLogSwData))

/-- Host-only register commands (R627): from the host cores GAIT_SVN_ADV (R578), the identity-key service (R580), the package watchdog
(R571), the access lock (R629) and the pairing store (R547, R548); from any other requester each is an access error, cause 2. -/
def Obligations.HostOnlyCommands : Prop :=
  (∀ (s : State) (r : ReqId), s.alive = true → r.val < 8 →
    (∀ v : BitVec 32, s.gait.svn.toNat < v.toNat → v.toNat ≤ 63 →
      ∃ t, exec (.gaitSvnAdv r v) s = .next t ∧ t.gait = { s.gait with svn := BitVec.ofNat 6 v.toNat } ∧ t.fld Reg.gaitBootStat 13 8 = v.toNat
        ∧ RegsKept s t [Reg.gaitBootStat] ∧ t = { s with regs := t.regs, gait := t.gait })
    ∧ (∀ v : BitVec 32, v.toNat ≤ s.gait.svn.toNat ∨ 63 < v.toNat → ∃ t, exec (.gaitSvnAdv r v) s = .next t ∧ t.gait = s.gait)
    ∧ (exec (.idkSign r) s = .next (s.idkCmd 1) ∧ exec (.idkEcdh r) s = .next (s.idkCmd 2)
      ∧ exec (.gaitIdkLock r) s = .next ((s.put Reg.gaitIdkLock 1).putB Reg.gaitIdkStat 3 true))
    ∧ (∀ v, v = 1 ∨ v = 2 → s.bit Reg.gaitIdkStat 3 = false → s.gait.idk = none →
      (s.idkCmd v).fld Reg.gaitIdkStat 2 0 = 1 ∧ (∀ i < 16, (s.idkCmd v).rd (Reg.gaitIdkOut i) = 0)
        ∧ (s.idkCmd v).gait.idk = some (v, (List.range 16).map (fun i => BitVec.ofNat 32 (s.rd (Reg.gaitIdkIn i)))))
    ∧ (∀ ms : BitVec 32, (s.gait.wdogOn = false → ms.toNat ≠ 0 → ∃ t, exec (.gaitWdog r ms) s = .next t ∧ t.rd Reg.gaitWdog = min 10000 ms.toNat
          ∧ t.gait = { s.gait with wdogOn := true, wdogLeft := 1000000 * min 10000 ms.toNat, wdogAt := s.time }
          ∧ RegsKept s t [Reg.gaitWdog] ∧ t = { s with regs := t.regs, gait := t.gait })
        ∧ (s.gait.wdogOn = true ∨ ms.toNat = 0 → exec (.gaitWdog r ms) s = .next s))
    ∧ exec (.gaitWdogKick r) s = .next s.wdogKick
    ∧ (∀ b : BitVec 3, exec (.gaitAccLock r b) s = .next (s.orReg Reg.gaitAccLock b.toNat))
    ∧ (exec (.pairLoad r) s = .next (s.pairCtrl 1) ∧ exec (.pairErase r) s = .next (s.pairCtrl 2) ∧ exec (.pairWrap r) s = .next (s.pairCtrl 3)
      ∧ exec (.pairUnwrap r) s = .next (s.pairCtrl 4))
    ∧ (s.pairCtrl 1).halter.key = some (leNat (s.regBytes (Reg.hltPairKey 0) 4)) ∧ (s.pairCtrl 2).halter.key = none
    ∧ (s.pairCtrl 1).bit Reg.hltPairStat 0 = true ∧ (s.pairCtrl 2).bit Reg.hltPairStat 0 = false
    ∧ ∀ k, k = 1 ∨ k = 2 → (s.pairCtrl k).fld Reg.hltPairStat 31 16 = (s.fld Reg.hltPairStat 31 16 + 1) % 2 ^ 16)
  ∧ ∀ (s : State) (r : ReqId) (v : BitVec 32) (b : BitVec 3), s.alive = true → 8 ≤ r.val →
    ∀ x ∈ [(Reg.gaitSvnAdv, Instr.gaitSvnAdv r v), (Reg.gaitIdkCmd, .idkSign r), (Reg.gaitIdkCmd, .idkEcdh r), (Reg.gaitIdkLock, .gaitIdkLock r)
      , (Reg.gaitWdog, .gaitWdog r v), (Reg.gaitWdogKick, .gaitWdogKick r), (Reg.gaitAccLock, .gaitAccLock r b), (Reg.hltPairCtrl, .pairLoad r)
      , (Reg.hltPairCtrl, .pairErase r), (Reg.hltPairCtrl, .pairWrap r), (Reg.hltPairCtrl, .pairUnwrap r)],
      exec x.2 s = .next (s.accErr r (csOffset x.1) .hostOnly)

/-- Register commands of the base-die units, which Walk and above reach (R628): ingest, Drey, the head ports, the tile scheduler, Hoard's
shards, the copy engine, the bond test and SCI. What some of those writes leave: DREY_SPLIT[l] takes a multiple of 1,024 that keeps the
sum within 1,572,864 and is discarded in full otherwise, DREY_CFG_EVT recording it (R156); a write of ING_CTRL stores its two bits; EN off
stops nothing else at once (R149). -/
def Obligations.BaseRegisterCommands : Prop :=
  (∀ (s : State) (r : ReqId), MayWrite s r → s.gaitN ≠ 0 →
     exec (.ingCposeGo r) s = .next s.cposeGo
     ∧ (∀ i : BitVec 8, exec (.ingPoseHeadWrite r i) s = .next ((s.put Reg.ingPoseHead i.toNat).publishTo i.toNat))
     ∧ (∀ b : Bool, exec (.ingCtrlEnSet r b) s = .next (s.ingCtrlWrite (1 + 2 * b2n b))
       ∧ exec (.ingCtrlEnClear r b) s = .next (s.put Reg.ingCtrl (2 * b2n b))
       ∧ exec (.rideAheadWrite r b) s = .next (s.ingCtrlWrite (b2n (s.bit Reg.ingCtrl 0) + 2 * b2n b)))
     ∧ (∀ (l : Fin 4) (v : BitVec 32), exec (.dreySplitWrite r l v) s = .next (s.splitWrite l.val v.toNat))
     ∧ (∀ (p : PortId) (l : BitVec 4), exec (.portVerifyRequest r p l) s = .next (s.portCtrlWrite r p (l.toNat + 16))
       ∧ exec (.portUnverifyRequest r p l) s = .next (s.portCtrlWrite r p l.toNat))
     ∧ (∀ (p : PortId) (b : Bool), exec (.portCalCtrlWrite r p b) s = .next (s.putB (Reg.portCalCtrl p) 0 b))
     ∧ (∀ v : BitVec 32, ∃ t, exec (.portGtimeCtrlWrite r v) s = .next t ∧ t = { s with regs := t.regs } ∧ RegsKept s t [Reg.portGtimeCtrl]
       ∧ t.bit Reg.portGtimeCtrl 4 = bitN v.toNat 4
       ∧ t.fld Reg.portGtimeCtrl 3 0 = if v.toNat % 16 = 8 then 9 else if v.toNat % 16 = 0 ∨ 8 < v.toNat % 16 then v.toNat % 16 else 0)
     ∧ (∀ (b : Bool) (a : BitVec 64), exec (.tileSchedProgWrite r b a) s =
         .next (((s.storeWord (Reg.tileSchedProg (b2n b)) (a.toNat % 2 ^ 32)).storeWord (Reg.tileSchedProg (b2n b) + 4) (a.toNat / 2 ^ 32)).schedProg (if b then 1 else 0)))
     ∧ (∀ b : Bool, exec (.tileSchedSelWrite r b) s = .next (s.putB Reg.tileSchedSel 0 b))
     ∧ (∀ i : BitVec 16, exec (.tileSchedKick r i) s = .next (s.schedKick i.toNat))
     ∧ (∀ (k : Fin 16) (h : Fin 64) (g : BitVec 16), exec (.shardMig r k h g) s = .next (s.shardWrite r (Reg.hrdShdReq k h) (1 + 2 ^ 16 * g.toNat))
       ∧ exec (.shardSwitch r k h g) s = .next (s.shardWrite r (Reg.hrdShdReq k h) (2 + 2 ^ 16 * g.toNat))
       ∧ exec (.shardCancelMig r k h g) s = .next (s.shardWrite r (Reg.hrdShdReq k h) (3 + 2 ^ 16 * g.toNat)))
     ∧ (∀ (c : Fin 4) (v : BitVec 32), exec (.copyHeadWrite r c v) s = .next ((s.put (Reg.hrdCpyHead c) (v.toNat % 8192)).cpyBusy c))
     ∧ (∀ d : BitVec 2, exec (.bondTestStart r d) s = .next (s.bondTestWrite (d.toNat + 4)))
     ∧ ∀ (p : Fin 2) (x : BitVec 3), exec (.sciEnable r p x) s = .next (s.sciCtrlWrite p (1 + 2 * x.toNat)))
  ∧ (∀ (s : State),
       (∀ (l : Fin 4) (v : Nat), v < 2 ^ 32 → v % 1024 = 0 →
         v + (((List.range 4).filter (· ≠ l.val)).map (fun k => s.rd (Reg.dreySplit k))).sum ≤ 1572864 →
         (s.splitWrite l.val v).rd (Reg.dreySplit l.val) = v ∧ RegsKept s (s.splitWrite l.val v) [Reg.dreySplit l.val]
           ∧ s.splitWrite l.val v = { s with regs := (s.splitWrite l.val v).regs })
       ∧ (∀ (l : Fin 4) (v : Nat), v % 1024 ≠ 0 ∨
         1572864 < v + (((List.range 4).filter (· ≠ l.val)).map (fun k => s.rd (Reg.dreySplit k))).sum →
         RegsKept s (s.splitWrite l.val v) [Reg.dreyCfgEvt] ∧ (s.splitWrite l.val v).bit Reg.dreyCfgEvt 0 = true
           ∧ s.splitWrite l.val v = { s with regs := (s.splitWrite l.val v).regs })
       ∧ (∀ v, (s.ingCtrlWrite v).fld Reg.ingCtrl 1 0 = v % 4)
       ∧ (∀ (lo hi v o : Nat), lo ≤ hi → hi < 2 ^ 32 → o ≠ Reg.ingCfgEvt → (s.ingClamp o lo hi v).rd o = clampN lo hi v
         ∧ ((v < lo ∨ hi < v) → (s.ingClamp o lo hi v).bit Reg.ingCfgEvt 3 = true) ∧ RegsKept s (s.ingClamp o lo hi v) [o, Reg.ingCfgEvt]))

/-- Commands on a tile's slot while its die is present (R628): TILE_RESET (R216), the management requests (R223, R598) and TILE_TLB_INV (R440);
while it is absent each is an access error, cause 4. -/
def Obligations.TileSlotCommands : Prop :=
  ∀ (s : State) (r : ReqId) (t : TileId) (g : BitVec 16) (v : BitVec 64), MayWrite s r →
    (s.tileReach t = true →
      exec (.tileReset r t) s = .next (s.tileResetNow t)
      ∧ (∀ x ∈ [(1, Instr.mgmtReturnToService r t g), (2, .mgmtTakeOutOfService r t g), (3, .mgmtReset r t g), (4, .mgmtReleaseQuarantine r t g)],
        ∃ s', exec x.2 s = .next s' ∧ s'.tiles[t].mgmt =
            some ⟨x.1, g.toNat, decide (g.toNat = s.fld (Reg.tileState t) 31 16), false, r, Reg.tileMgmtReq t⟩
          ∧ s' = { s with regs := s'.regs, tiles := s'.tiles } ∧ RegsKept s s' [Reg.tileMgmtReq t]
          ∧ s'.tiles[t] = { s.tiles[t] with mgmt := s'.tiles[t].mgmt } ∧ ∀ u : TileId, u ≠ t → s'.tiles[u] = s.tiles[u])
      ∧ ∃ s1, s1 = { s with regs := s1.regs } ∧ RegsKept s s1 [Reg.tileTlbInv t, Reg.tileTlbInv t + 4]
        ∧ ∃ k, k % 2 = v.toNat % 2 ∧ bitsN k 47 12 = bitsN v.toNat 47 12 ∧ exec (.tileTlbInvWrite r t v) s = .next (s1.tlbInvWrite t k))
    ∧ (s.tileReach t = false → ∀ x ∈ [(Reg.tileReset t, Instr.tileReset r t), (Reg.tileMgmtReq t, .mgmtReset r t g), (Reg.tileTlbInv t, .tileTlbInvWrite r t v)],
        exec x.2 s = .next (s.accErr r (csOffset x.1) .unreachable))

/-- Alias accesses (R617 to R620): a write acts in every reachable member and a read returns the lowest one's value and clears nothing;
each records its status for its requester. Hitch-broadcast accesses (R516, R517, R621, R622): the access acts at the local offset here,
and the request is sent to every other member that keeps the register map; with no such member it is complete at once. -/
def Obligations.BroadcastAccesses : Prop :=
  (∀ (s : State) (r : ReqId) (off : BitVec 28) (w k inner : Nat) (g : Option Nat) (v : BitVec 64), s.alive = true →
     selOf off.toNat w = .many k g inner →
     (isMirror off.toNat = false → s.lockedFor r = false →
       exec (.aliasWrite r off w v) s =
         .next ((s.aliasWrite r k g inner w v.toNat).2.put (Reg.gaitBcastStat r.val) (s.aliasWrite r k g inner w v.toNat).1))
     ∧ (isMirror off.toNat = false →
       ∃ s', exec (.aliasRead r off w) s = .next s' ∧ spGet (fun _ => (0 : W64)) s'.rdata r.val = BitVec.ofNat 64 (s.aliasRead k g inner w).1
         ∧ s'.rd (Reg.gaitBcastStat r.val) = (s.aliasRead k g inner w).2 % 2 ^ 32 ∧ RegsKept s s' [Reg.gaitBcastStat r.val]
         ∧ s' = { s with regs := s'.regs, rdata := s'.rdata })
     ∧ (∀ (u : Nat) (rest : List Nat), (s.aliasUnits k g).filter (s.unitReach k) = u :: rest →
       (s.aliasRead k g inner w).1 = wordsNat ((selWords (.unit k u inner) w).map s.peekWord)))
  ∧ (∀ (s : State) (r : ReqId) (off : BitVec 28) (w : Nat) (v : BitVec 64), s.alive = true → isMirror off.toNat = true →
       (s.accCheck r true (selOf off.toNat w) w = none →
         ∃ st s1, s.localWrite r off.toNat w v.toNat = (st, s1)
           ∧ exec (.hitchBroadcastWrite r off w v) s = .next (s1.bcastStart r true off.toNat w v.toNat 0 (st.getD 0)))
       ∧ (s.accCheck r false (selOf off.toNat w) w = none →
         ∃ x st s1, s.localRead r off.toNat w false false = (x, st, s1)
           ∧ exec (.hitchBroadcastRead r off w) s = .next (s1.bcastStart r false off.toNat w 0 x (st.getD 0)))
       ∧ ∀ (b : Bool) (h st : Nat), s.hitch.bcasts = [] → s.bcastMembers ≠ [] →
         let s' := s.bcastStart r b off.toNat w v.toNat h st
         s'.hitch.outbox = s.hitch.outbox ++ s.bcastMembers.map (fun n => s.bcastMsg b off.toNat w v.toNat n (s.freeCtr % 65536))
           ∧ s'.hitch.bcasts.length = 1 ∧ s'.regs = s.regs)

/-- Tile-store windows (R613, R614): a write puts its bytes in the store of a reachable tile, in Static segments alone; a read returns the
store's bytes and changes nothing else. -/
def Obligations.TileStoreWindows : Prop :=
  ∀ (s : State) (r : ReqId) (t : TileId) (a : BitVec 22) (w : Nat) (v : BitVec 64), s.alive = true → s.tileReach t = true →
    w = 4 ∨ w = 8 → a.toNat % w = 0 → a.toNat < tileStoreBytes →
    (s.lockedFor r = false → s.segState t (a.toNat / 65536) = 0 →
      exec (.tileStoreWindowWrite r t a w v) s = .next (s.modTile t (fun tl => tl.tsPuts a.toNat (toLe v.toNat w))))
    ∧ (s.lockedFor r = false → s.segState t (a.toNat / 65536) ≠ 0 →
      exec (.tileStoreWindowWrite r t a w v) s = .next (s.accErr r (0x400000 * t.val + a.toNat) .notStatic))
    ∧ ∃ s', exec (.tileStoreWindowRead r t a w) s = .next s' ∧ s' = { s with rdata := s'.rdata }
      ∧ spGet (fun _ => (0 : W64)) s'.rdata r.val = BitVec.ofNat 64 (s.tiles[t].tsNat a.toNat w)

/-- The service port (R631): with none under way an access starts and is busy, is refused where no clock runs or a package reset stands, or
ends at once as an access error; a busy port ignores Update-DR; SVC_ACCESS_DONE performs the access. -/
def Obligations.ServicePort : Prop :=
  ∀ (s : State) (b : Bool) (off : BitVec 28) (d : BitVec 64), isMirror off.toNat = false →
    let w := if b then 8 else 4
    (s.stack.svcBusy.isSome = true → exec (.svcRead b off) s = .next s ∧ exec (.svcWrite b off d) s = .next s)
    ∧ (s.stack.svcBusy = none → s.alive = false ∨ s.gait.inReset = true →
      exec (.svcRead b off) s = .next (s.svcDone b off.toNat 2 0) ∧ exec (.svcWrite b off d) s = .next (s.svcDone b off.toNat 2 0))
    ∧ (s.stack.svcBusy = none → s.alive = true → s.gait.inReset = false →
      (∀ c, s.accCheck svcReq false (selOf off.toNat w) w = some c →
        exec (.svcRead b off) s = .next ((s.accErr svcReq off.toNat c).svcDone b off.toNat 3 0))
      ∧ (∀ c, s.accCheck svcReq true (selOf off.toNat w) w = some c →
        exec (.svcWrite b off d) s = .next ((s.accErr svcReq off.toNat c).svcDone b off.toNat 3 0))
      ∧ (s.accCheck svcReq false (selOf off.toNat w) w = none → ∃ t, exec (.svcRead b off) s = .next t
        ∧ t = { s with stack := t.stack } ∧ t.stack.svcStat = 1 ∧ t.stack.svcBusy = some (false, b, off.toNat, 0))
      ∧ (s.accCheck svcReq true (selOf off.toNat w) w = none → ∃ t, exec (.svcWrite b off d) s = .next t
        ∧ t = { s with stack := t.stack } ∧ t.stack.svcStat = 1 ∧ t.stack.svcBusy = some (true, b, off.toNat, d)))
    ∧ (s.alive = true → s.gait.inReset = false →
      (s.stack.svcBusy = some (true, b, off.toNat, d) → s.accCheck svcReq true (selOf off.toNat w) w = none →
        exec .svcAccessDone s = .next ((s.csWrite svcReq off.toNat w d.toNat).svcDone b off.toNat 0 0))
      ∧ (s.stack.svcBusy = some (false, b, off.toNat, d) → s.accCheck svcReq false (selOf off.toNat w) w = none →
        let s1 := s.csRead svcReq off.toNat w false
        exec .svcAccessDone s = .next (s1.svcDone b off.toNat 0 (spGet (fun _ => (0 : W64)) s1.rdata svcReq.val).toNat)))

/-- GAIT_REQ (R555): every write clears MISM; code 0, and a target that is the gait in force, leave no request held; any other is held with
its GEN. A held request whose row's condition holds and whose GEN has not changed is carried out; one whose GEN has changed is discarded
with MISM; a timeout refuses it. -/
def Obligations.GaitRequests : Prop :=
  (∀ (s : State) (r : ReqId) (v : Nat), v < 2 ^ 32 →
    let t := s.gaitReqWrite r v
    t.bit Reg.gaitStat 3 = false ∧ RegsKept s t [Reg.gaitReq, Reg.gaitStat] ∧ t = { s with regs := t.regs, gait := t.gait }
      ∧ t.gaitN = s.gaitN ∧ t.fld Reg.gaitStat 31 16 = s.fld Reg.gaitStat 31 16
      ∧ (v % 4 = 0 ∨ reqGait (v % 4) = min 2 s.gaitN → t.gait = { s.gait with held := none } ∧ t.bit Reg.gaitStat 7 = false)
      ∧ (v % 4 ≠ 0 → reqGait (v % 4) ≠ min 2 s.gaitN → t.bit Reg.gaitStat 7 = true
        ∧ t.gait = { s.gait with held := some ⟨v % 4, v / 2 ^ 16, s.time, decide (v / 2 ^ 16 ≠ s.fld Reg.gaitStat 31 16), r⟩ }))
  ∧ (∀ (s : State) (h : GaitReq) (idle : Bool), s.alive = true → s.gait.held = some h → s.gait.trans = .none → reqGait h.target ≠ min 2 s.gaitN →
    (∀ tr last, s.nextRow (reqGait h.target) idle = some (tr, last) → h.changed = false →
      let s1 := if tr = .walkToTrot then s.beginWalkToTrot true else s.setTrans tr true
      exec (.gaitRequestApply idle) s = .next (if last then s1.dropHeld else s1))
    ∧ (∀ x, s.nextRow (reqGait h.target) idle = some x → h.changed = true → ∃ t, exec (.gaitRequestApply idle) s = .next t
      ∧ t.bit Reg.gaitStat 3 = true ∧ t.bit Reg.gaitStat 7 = false ∧ t.gait = { s.gait with held := none } ∧ t.gaitN = s.gaitN)
    ∧ (s.nextRow (reqGait h.target) idle = none → exec (.gaitRequestApply idle) s = .next s))
  ∧ ∀ (s : State) (h : GaitReq), s.alive = true → s.gait.held = some h → ∃ t, exec .gaitRequestRefuse s = .next t
    ∧ t.gait = { s.gait with held := none } ∧ t.bit Reg.gaitStat 7 = false ∧ t.gaitN = s.gaitN
    ∧ t.time = max s.time (h.at_ + if s.bit Reg.gaitStat 6 then 2 * s.frm.period else 400000000)
    ∧ t.rd Cnt.gaitCntRefuse.reg = min 0xFFFFFFFF (s.rd Cnt.gaitCntRefuse.reg + 1)

/-- Counters and the log (R602, R603, R607): a 32-bit counter counts up to 0xFFFF_FFFF, holds that and sets its sticky bit, and no other word
changes; an event like the newest entry of its frame raises that entry's repeat count, and any other takes the next slot with its
sequence number, time, frame and words, EVT_LOG_SEQ moving on by one; a read of an entry's first word latches all eight for its
requester. -/
def Obligations.CountersAndLog : Prop :=
  (∀ (s : State) (c : Ctr) (n : Nat), n ≠ 0 → c.reg ≠ c.ovf + 4 * (c.bit / 32) →
    (s.count c n).rd c.reg = min 0xFFFFFFFF (s.rd c.reg + n) ∧ RegsKept s (s.count c n) (ctrWords c)
      ∧ s.count c n = { s with regs := (s.count c n).regs }
      ∧ (s.count c n).bit (c.ovf + 4 * (c.bit / 32)) (c.bit % 32)
        = (s.bit (c.ovf + 4 * (c.bit / 32)) (c.bit % 32) || decide (0xFFFFFFFF ≤ s.rd c.reg + n)))
  ∧ ∀ (s : State) (code unit src data : Nat), code < 2 ^ 16 → unit < 256 → src < 256 → data < 2 ^ 64 →
    let n := s.rd Reg.evtLogSeq
    let last := (n + 4095) % 4096
    let same := s.log.used ≠ 0 ∧ s.rd (logWord last 2) = s.frameNum ∧ s.rd (logWord last 4) = code + 2 ^ 16 * unit + 2 ^ 24 * src
      ∧ s.rd64 (logWord last 6) = data ∧ last ∉ s.log.bad
    let t := s.logEvent code unit src data
    t = { s with regs := t.regs, log := t.log }
      ∧ (same → t.fld (logWord last 5) 15 0 = min 65535 (s.fld (logWord last 5) 15 0 + 1) ∧ RegsKept s t [logWord last 5] ∧ t.log = s.log)
      ∧ (¬ same → t.rd Reg.evtLogSeq = (n + 1) % 2 ^ 32 ∧ t.rd (logWord n 3) = n ∧ t.rd64 (logWord n 0) = s.time % 2 ^ 64
        ∧ t.rd (logWord n 2) = s.frameNum ∧ t.rd (logWord n 4) = code + 2 ^ 16 * unit + 2 ^ 24 * src ∧ t.rd (logWord n 5) = 0
        ∧ t.rd64 (logWord n 6) = data ∧ n % 4096 ∉ t.log.bad
        ∧ RegsKept s t ([Reg.evtLogSeq] ++ (List.range 8).map (logWord n) ++ ctrWords Cnt.evtLogOvwr))
  ∧ ∀ (s : State) (r : ReqId) (k : Fin 4096), s.alive = true → s.accCheck r false (.reg (logWord k 0)) 4 = none → k.val ∉ s.log.bad →
    ∃ t, exec (.evtLogFirstWordRead r k false) s = .next t ∧ spGet (fun _ => (0 : W64)) t.rdata r.val = BitVec.ofNat 64 (s.rd (logWord k 0) % 2 ^ 32)
      ∧ t.log.latch.head? = some (r.val, k.val, (List.range 8).map (fun j => BitVec.ofNat 32 (s.rd (logWord k j))))
      ∧ t = { s with rdata := t.rdata, log := t.log }

/-! ### Halter -/

/-- A Halter transaction (R529, R532, R539, R541, R544): CS_N low latches a 32-byte reply, moves RSEQ on by one, and uses the held nonce
for this reply alone; the MAC goes into the reply before it is sent; CS_N high ends it with two sync bytes and as much of the reply as was
clocked. A disabled port ignores CS_N. What the checks of R532 find in a poll of sixteen bytes: its CRC, its command, its options, its
reserved bytes and its nonce. -/
def Obligations.HalterTransaction : Prop :=
  (∀ (s : State) (b : Bool),
     let q := hltIdx b
     let p := s.halter.ports[q]
     (s.hltOn q = true → p.csLow = false →
       ∃ t, exec (.halterCsFall b) s = .next t ∧ t.halter.ports[q].csLow = true ∧ t.halter.ports[q].pollSeen = false ∧ t.halter.ports[q].nonce = none
         ∧ t.halter.ports[q].reply.length = 32 ∧ bitsN (t.rd64 (Reg.hltPortStat q)) 15 0 = (bitsN (s.rd64 (Reg.hltPortStat q)) 15 0 + 1) % 2 ^ 16
         ∧ leAt t.halter.ports[q].reply 2 2 = bitsN (s.rd64 (Reg.hltPortStat q)) 15 0 ∧ bitN (leAt t.halter.ports[q].reply 0x13 1) 3 = p.gap
         ∧ bitN (leAt t.halter.ports[q].reply 0x13 1) 4 = p.bad ∧ t.halter.ports[q].gap = false ∧ t.halter.ports[q].bad = false
         ∧ t.halter.ports[q].macDue = (match p.nonce, s.halter.key with | some n, some k => some (n, k) | _, _ => none)
         ∧ (∀ o : Fin 2, o ≠ q → t.halter.ports[o] = s.halter.ports[o]) ∧ t = { s with regs := t.regs, halter := t.halter })
     ∧ (s.hltOn q = false ∨ p.csLow = true → exec (.halterCsFall b) s = .next s)
     ∧ (s.alive = true → exec (.halterMacReady b) s = .next (s.modHlt q HaltPort.withMac))
     ∧ (∀ n : Nat, s.alive = true → p.csLow = true →
       ∃ t, exec (.halterCsRise b n) s = .next t ∧ t.halter.ports[q].csLow = false
         ∧ t.halter.ports[q].sent = ([0x5A, 0xA5] ++ p.withMac.reply ++ List.replicate (n / 8) 0).take (n / 8)
         ∧ (∀ o : Fin 2, o ≠ q → t.halter.ports[o] = s.halter.ports[o]) ∧ t = { s with regs := t.regs, halter := t.halter }))
  ∧ (∀ (s : State) (b : Bool) (bs : List Byte), s.alive = true → 16 ≤ bs.length →
       let q := hltIdx b
       let p := s.halter.ports[q]
       let crcOk := crc16 (bs.take 14) = leAt bs 14 2
       let fmtOk := (leAt bs 0 1 = 0x3C ∨ leAt bs 0 1 = 0x3D) ∧ leAt bs 1 1 ≤ 1 ∧ leAt bs 12 2 = 0 ∧ (leAt bs 1 1 = 0 → leAt bs 4 8 = 0)
       p.csLow = true → p.pollSeen = false → ∀ i ∈ [Instr.poll b bs, .pollWake b bs],
         (¬ crcOk → ∃ t, exec i s = .next t ∧ t.halter.ports[q] = { p with pollSeen := true, bad := true }
           ∧ t.rd (Cnt.hltCntPcrc q).reg = min 0xFFFFFFFF (s.rd (Cnt.hltCntPcrc q).reg + 1) ∧ RegsKept s t (ctrWords (Cnt.hltCntPcrc q))
           ∧ t = { s with regs := t.regs, halter := t.halter })
         ∧ (crcOk → ¬ fmtOk → ∃ t, exec i s = .next t ∧ t.halter.ports[q] = { p with pollSeen := true, bad := true }
           ∧ t.rd (Cnt.hltCntPfmt q).reg = min 0xFFFFFFFF (s.rd (Cnt.hltCntPfmt q).reg + 1) ∧ RegsKept s t (ctrWords (Cnt.hltCntPfmt q))
           ∧ t = { s with regs := t.regs, halter := t.halter })
         ∧ (crcOk → fmtOk → ∃ t, exec i s = .next t ∧ t.halter.ports[q].nonce = (if leAt bs 1 1 = 1 then some (leAt bs 4 8) else none)
           ∧ t.halter.ports[q].csLow = true ∧ t.halter.ports[q].reply = p.reply
           ∧ (leAt bs 0 1 = 0x3D → t.bit Reg.gaitWakeSrc 0 = true) ∧ (leAt bs 0 1 = 0x3C → t = { s with regs := t.regs, halter := t.halter })))

/-- PSEQ (R538): an accepted poll takes d against the port's reference; where d is not 1 the next reply sets PSEQ_GAP and HLT_CNT_SEQ counts;
the poll is acted on either way and its PSEQ becomes the reference; the first accepted poll after power-on reset sets it without a gap. -/
def Obligations.PollSequence : Prop :=
  (∀ (s : State) (b : Bool) (bs : List Byte), s.alive = true → 16 ≤ bs.length →
    let q := hltIdx b
    let p := s.halter.ports[q]
    let st := s.rd64 (Reg.hltPortStat q)
    let d := (leAt bs 2 2 + 65536 - bitsN st 31 16) % 65536
    p.csLow = true → p.pollSeen = false → crc16 (bs.take 14) = leAt bs 14 2 → (leAt bs 0 1 = 0x3C ∨ leAt bs 0 1 = 0x3D) →
    leAt bs 1 1 ≤ 1 → leAt bs 12 2 = 0 → (leAt bs 1 1 = 0 → leAt bs 4 8 = 0) → ∀ i ∈ [Instr.poll b bs, .pollWake b bs],
      ∃ t, exec i s = .next t ∧ t.halter.ports[q].gap = (bitN st 32 && d != 1) ∧ bitsN (t.rd64 (Reg.hltPortStat q)) 31 16 = leAt bs 2 2
        ∧ bitN (t.rd64 (Reg.hltPortStat q)) 32 = true
        ∧ t.rd (Cnt.hltCntSeq q).reg = min 0xFFFFFFFF (s.rd (Cnt.hltCntSeq q).reg + b2n (bitN st 32 && d != 1))
        ∧ t.halter.ports[q].nonce = (if leAt bs 1 1 = 1 then some (leAt bs 4 8) else none)
        ∧ (leAt bs 0 1 = 0x3D → t.bit Reg.gaitWakeSrc 0 = true))
  ∧ (∀ (s : State) (b : Bool), s.hltOn (hltIdx b) = true → s.halter.ports[hltIdx b].csLow = false → ∃ t, exec (.halterCsFall b) s = .next t
    ∧ bitN (leAt t.halter.ports[hltIdx b].reply 0x13 1) 3 = s.halter.ports[hltIdx b].gap)
  ∧ ∀ s : State, ∃ t, exec .powerOnReset s = .next t ∧ ∀ q : Fin 2, bitN (t.rd64 (Reg.hltPortStat q)) 32 = false

/-! ### Gaits, resets and the time base -/

/-- The drain and what follows it (R35, R36, R456, R473, R552, R556): once every tile is drained a downward transition goes on, turns back where a
wake or ingest asks for it, or ends in the gait below; the last steps power the compute dies, then the package, down. -/
def Obligations.DownwardTransitions : Prop :=
  ∀ s : State, s.alive = true →
    (s.gait.drained = false → s.drained = true →
      (s.gait.trans = .canterToTrot → exec .drainComplete s = .next s.enterTrot)
      ∧ (s.gait.trans = .trotToWalk ∨ s.gait.trans = .walkToStable →
        (s.mustReverse = true → exec .drainComplete s = .next s.reverseNow)
        ∧ (s.mustReverse = false → exec .drainComplete s = .next { s with gait := { s.gait with drained := true } })))
    ∧ (s.gait.trans = .trotToWalk → s.gait.drained = true →
      let s1 := (((s.diesOff false).setGait 1 (s.diesOff false).gait.ownMove).setTrans .none false).runWake
      exec .trotToWalkDone s = .next (if s1.gait.trans = .none ∧ s1.bit Reg.ingCtrl 0 = true then s1.beginWalkToTrot false else s1))
    ∧ (s.gait.trans = .walkToStable → s.gait.drained = true → s.gait.wbDone = false →
      exec .l2WriteBackDone s = .next (if s.writeBack.mustReverse then s.writeBack.reverseNow
        else { s.writeBack with gait := { s.writeBack.gait with wbDone := true } }))
    ∧ (s.gait.trans = .walkToStable → s.gait.wbDone = true →
      let s1 := (s.diesOff true).loseBurrow.wdogPause
      let s2 := { s1 with
        gait := { s1.gait with pwrEn := false, refEn := false, refRunning := false, pwrRisen := false, core0 := .reset, mainOff := true }
        pcie := { s1.pcie with ready := false } }
      exec .walkToStableDone s = .next ((s2.setGait 0 s2.gait.ownMove).setTrans .none false).runWake)

/-- Main power (R558, R559, R569, R657, R664): its rise is noted with the reference; Stable to Walk completes with the base-die registers
at reset and host core 0 fetching; without it for 1 ms the package stays in Stable and drops its request for power; its fall, or the loss
of the reference, once up, is a supply failure. Wake sources (R566): each event sets its bit of GAIT_WAKE_SRC, and one that GAIT_WAKE_EN
leaves out does nothing more; CAN_WAKE_N is source 1, an enabled GPIO edge 2, the timer 3, once for each arming, and PERST_N in the
endpoint role 4. -/
def Obligations.PowerAndWake : Prop :=
  (∀ s : State, s.alive = true →
     exec .pwrGoodMainRise s = .next { s with gait := { s.gait with pwrGood := true, pwrRisen := s.gait.pwrEn, refRunning := s.gait.refEn } }
     ∧ (s.gait.trans = .stableToWalk → s.gait.pwrRisen = true → s.gait.inReset = false →
       let s1 := if s.gait.mainOff then s.baseReset else s
       let s2 := { s1 with gait := { s1.gait with mainOff := false, wdogAt := s1.time, wake := s1.gait.wake.filter (fun w => decide (1 ≤ w)) } }
       exec .stableToWalkDone s = .next ((s2.setGait 1 s2.gait.ownMove).setTrans .none false).startCore0.runWake)
     ∧ (s.gait.trans = .stableToWalk → s.gait.pwrRisen = false → ∃ t, exec .pwrGoodMainTimeout s = .next t ∧ t.gait.pwrEn = false ∧ t.gait.wake = none
       ∧ t.gait.trans = .none ∧ t.bit Reg.gaitStat 2 = false ∧ t.gaitN = s.gaitN ∧ t.tiles = s.tiles ∧ t.mem = s.mem
       ∧ t.rd Cnt.gaitCntPwrfail.reg = min 0xFFFFFFFF (s.rd Cnt.gaitCntPwrfail.reg + 1))
     ∧ (s.gait.pwrEn = true → s.gait.pwrRisen = true →
       exec .pwrGoodMainFall s = .next { s with gait := { s.gait with pwrGood := false } }.supplyFail
         ∧ exec .refClockLoss s = .next { s with gait := { s.gait with refRunning := false } }.supplyFail)
     ∧ (s.gait.pwrEn = false ∨ s.gait.pwrRisen = false → exec .pwrGoodMainFall s = .next { s with gait := { s.gait with pwrGood := false } }))
  ∧ (∀ s : State, s.alive = true →
       let woken := fun (s0 : State) (k : Nat) (o : Host.Outcome State Fault Refusal) => ∃ t, o = .next t ∧ t.bit Reg.gaitWakeSrc k = true
         ∧ t.time = s0.time ∧ (s0.bit Reg.gaitWakeEn k = false → t = { s0 with regs := t.regs } ∧ RegsKept s0 t [Reg.gaitWakeSrc]);
       woken s 1 (exec .canWakeNFall s)
       ∧ (∀ (n : Fin 4) (r : Bool), s.bit Reg.gaitWakeGpio n = true →
         (s.bit Reg.gaitWakeGpio (4 + n.val) = r → woken s 2 (exec (.gpioWakeEdge n r) s))
           ∧ (s.bit Reg.gaitWakeGpio (4 + n.val) ≠ r → exec (.gpioWakeEdge n r) s = .next s))
       ∧ (s.gait.wakeArmed = true →
         woken { s with time := max s.time (s.rd64 Reg.gaitWakeTime), gait := { s.gait with wakeArmed := false } } 3 (exec .wakeTimeReached s))
       ∧ (s.gait.wakeArmed = false → exec .wakeTimeReached s = .next s)
       ∧ (s.pcie.endpoint = true → woken s 4 (exec .perstNRise s)) ∧ (s.pcie.endpoint = false → exec .perstNRise s = .next s))

/-- The time base and its neighbours (R561, R571, R649): a calibration keeps its correction, the crystal's failure is flagged and logged
once and its return unflags it; PPS_IN is timestamped and PPS_OUT rises on a whole second, in Walk and above; the package watchdog, when
it runs out, resets the package with cause 3. With the vehicle as the source an edge of PPS_IN steps the time base to the nearest whole
second where that is within 1 µs, and no step happens where it is further off (R77; the model's reading of the edge is log 126). The
model's choice (log 2): with no command waiting a step is a tick, and with every clock
stopped a tick does nothing. Junction temperature (R572, R573): GAIT_TEMP holds the three readings, TWARN says whether one is at the
threshold, a die that crosses upward is disarmed and one 2 °C below it armed again; a die at or above 135 °C in two readings running
trips. -/
def Obligations.TimeAndTemperature : Prop :=
  (∀ s : State, s.alive = true →
     (s.bit Reg.gaitStat 5 = false → (∀ c, exec (.xtalCalibrate c) s = .next { s with gait := { s.gait with corr := some c } })
       ∧ ∃ t, exec .xtalFail s = .next t ∧ t.bit Reg.gaitStat 5 = true ∧ t.gait = s.gait ∧ t.time = s.time ∧ t.gaitN = s.gaitN)
     ∧ (s.bit Reg.gaitStat 5 = true → exec .xtalFail s = .next s)
     ∧ (∃ t, exec .xtalEdgesReturn s = .next t ∧ t.bit Reg.gaitStat 5 = false ∧ t = { s with regs := t.regs } ∧ RegsKept s t [Reg.gaitStat])
     ∧ (s.gaitN ≠ 0 →
       (s.vehicleTime = false → exec .ppsInEdge s = .next { s with gait := { s.gait with ppsIn := some s.time } })
       ∧ (s.vehicleTime = true → let r := s.time % 1000000000
         ∃ t, exec .ppsInEdge s = .next t ∧ t.gait.ppsIn = some s.time ∧ t = { s with gait := t.gait, time := t.time }
           ∧ t.time = if r ≤ 1000 then s.time - r else if 999999000 ≤ r then s.time + (1000000000 - r) else s.time)
       ∧ ∃ t k, exec .ppsOutSecond s = .next t ∧ t.gait.ppsOut = some (1000000000 * k) ∧ s.time ≤ 1000000000 * k
         ∧ 1000000000 * k < s.time + 1000000000 ∧ t.time = 1000000000 * k ∧ t.regs = s.regs ∧ t.tiles = s.tiles)
     ∧ (s.gait.wdogOn = true → s.gaitN ≠ 0 →
       let s1 := { s with time := max s.time (s.gait.wdogAt + s.gait.wdogLeft) }
       exec .packageWatchdogExpiry s = .next ((s1.logEvent 0x65 pkgUnit 0 (s1.fld Reg.gaitWdog 13 0)).packageReset 3)))
  ∧ (∀ s : State, s.pending = [] → step s = .next s.tick ∧ (s.alive = false → step s = .next s))
  ∧ (∀ (s : State) (x y z : BitVec 10), s.alive = true →
       let v : Vector Nat 3 := #v[x.toNat, y.toNat, z.toNat]
       let thr := 4 * (s.rd Reg.gaitTwarn + 64)
       ∃ t, exec (.tempSample x y z) s = .next t ∧ t.rd Reg.gaitTemp = x.toNat + 2 ^ 10 * y.toNat + 2 ^ 20 * z.toNat
         ∧ t.bit Reg.gaitStat 4 = decide (thr ≤ x.toNat ∨ thr ≤ y.toNat ∨ thr ≤ z.toNat) ∧ t.gaitN = s.gaitN
         ∧ (∀ k : Fin 3, t.gait.hot[k] = decide (796 ≤ v[k])
           ∧ t.gait.armed[k] = (if v[k] + 8 ≤ thr then true else if thr ≤ v[k] then false else s.gait.armed[k]))
         ∧ t.gait.thermtrip = decide (∃ k : Fin 3, s.gait.hot[k] = true ∧ 796 ≤ v[k])
         ∧ t.rd Cnt.gaitCntTwarn.reg = min 0xFFFFFFFF (s.rd Cnt.gaitCntTwarn.reg
             + ((List.finRange 3).filter (fun k => s.gait.armed[k] && decide (thr ≤ v[k]))).length)
         ∧ t.tiles = s.tiles ∧ t.mem = s.mem ∧ t.time = s.time ∧ t.frm = s.frm)

/-- Resets (R561, R570, R577, R643, R662): power-on reset leaves everything but what is fused, the pin's role and the queue at reset, held until
PORST_N rises, which samples the straps and starts the time base; RESET_N resets the package with cause 1; the wake that ends a reset goes on
to Walk from Stable, and else starts host core 0. -/
def Obligations.Resets : Prop :=
  (∀ s : State, ∃ t, exec .powerOnReset s = .next t ∧ t.gait.porstN = false ∧ t.alive = false ∧ t.time = 0 ∧ t.gaitN = 0 ∧ t.gait.svn = s.gait.svn
      ∧ t.install = s.install ∧ t.pending = s.pending ∧ t.gait.thermtrip = false ∧ t.halter = State.reset.halter ∧ t.frm = FrameSt.reset
      ∧ (∀ o, o ≠ Reg.sciHitchStat → t.rd o = State.reset.rd o) ∧ t.mem.cells = [] ∧ t.freeCtr = s.freeCtr + 2 ^ 38)
    ∧ (∀ (s : State) (l n : Bool) (b : BitVec 2), s.gait.porstN = false → ∃ t, exec (.porstNRise l n b) s = .next t
      ∧ t.gait = { s.gait with porstN := true, lead := l, testmodeN := n, bootSel := b } ∧ t.time = 0 ∧ t.rd Reg.sciHitchStat = 4 * b2n l
      ∧ t.fld Reg.gaitBootStat 7 6 = b.toNat ∧ t.fld Reg.gaitBootStat 13 8 = s.gait.svn.toNat ∧ t.pcie.endpoint = decide (b.toNat ≠ 2)
      ∧ RegsKept s t [Reg.sciHitchStat, Reg.gaitBootStat])
    ∧ ∀ s : State, s.alive = true → exec .resetNAssert s = .next (s.packageReset 1)
      ∧ (s.gait.inReset = true →
        let s1 := { s with gait := { s.gait with inReset := false } }
        exec .resetWake s = .next (if s.gaitN = 0 then s1.wakeTo 0 else s1.startCore0))

/-- Boot and the identity key (R574 to R580): the ROM checks the slot it reads next; an image that passes is in burrow memory and host core 0 starts
at its entry with the fuse window closed; one that fails leaves its code and the next slot, or recovery, to follow. A command of the key
service ends with its result, or with zeros and the error bit for a point off the curve. -/
def Obligations.BootAndIdentity : Prop :=
  ∀ s : State, s.alive = true →
    (∀ (b e : Bool) (img : List Byte), s.gait.core0 = .rom → b = s.bootSlot →
      let code := if e then 7 else s.imageCode img false
      let s1 := if code = 0 ∨ code = 5 ∨ code = 6 then s.memWrite (leAt img 0xC 4) ((img.drop 0x100).take (leAt img 8 4)) else s
      (code = 0 → exec (.bootImageCheck b e img) s = .next (s1.bootStart (leAt img 0x10 8) b false)
        ∧ (s1.bootStart (leAt img 0x10 8) b false).gait.core0 = .at_ (leAt img 0x10 8)
        ∧ (s1.bootStart (leAt img 0x10 8) b false).gait.fuseOpen = false ∧ (s1.bootStart (leAt img 0x10 8) b false).rd Reg.gaitCoreRun = 1)
      ∧ (code ≠ 0 → ∃ t, exec (.bootImageCheck b e img) s = .next t ∧ t.fld Reg.gaitBootStat 3 0 = code ∧ t.gait.bootTried = s.gait.bootTried + 1
        ∧ t.mem = s1.mem ∧ t.gait.core0 = if s.gait.bootTried = 0 then .rom else if s.gait.bootSel = 2 then .wfi else .recovery))
    ∧ (∀ (c : Nat) (inp : List W32), s.gait.idk = some (c, inp) →
      let bs := inp.flatMap (fun w => toLe w.toNat 4)
      let x := beNat (bs.take 32)
      let y := beNat (bs.drop 32)
      let s1 := { s with gait := { s.gait with idk := none } }
      let done := fun (t : State) (e : Bool) => t.putF Reg.gaitIdkStat 2 0 (2 + 4 * b2n e);
      (c = 1 → ∀ r z, ecdsaSign Config.idkPrivate (bs.take 32) = (r, z) →
        exec .idkCommandDone s = .next (done (s1.idkOut (toBe r 32 ++ toBe z 32)) false))
      ∧ (c ≠ 1 → onCurve x y = false → exec .idkCommandDone s = .next (done s1 true))
      ∧ (c ≠ 1 → onCurve x y = true → ∀ zx zy, ecMul Config.idkPrivate (x, y) = some (zx, zy) →
        exec .idkCommandDone s = .next (done (s1.idkOut (toBe zx 32)) false)))

/-! ### The frame, ingest and Drey -/

/-- Events of a frame's life after its boundary (R49, R51, R54 to R58, R184, R209, R316): the late-arrival window ends, the pose deadline passes, a failed test
starts a rein-back, its steps in the tiles, the scatter stage and Drey are done, and it is released to run again. -/
def Obligations.FrameEvents : Prop :=
  ∀ (s : State) (e : Epoch), s.alive = true →
    (s.frm.live.find? (fun e => e.closed && !e.lateDone) = some e →
      let s1 := { s with time := max s.time (e.closeT + e.lateWin) }.modEpoch e.frame (fun e => { e with lateDone := true });
      exec .lateArrivalWindowClose s =
        .next (if e.ride = true ∧ e.rein = .none then s1.closeAllSectors (e.frame % 2) else s1).tryPromote)
    ∧ (s.frm.live.find? (fun e => e.closed && e.decision == Decision.open) = some e →
      exec .poseDeadline s = .next
        ({ s with time := max s.time (e.closeT + e.poseDl) }.modEpoch e.frame (fun e => { e with decision := .unconfirmed })).tryPromote)
    ∧ (s.frm.live.find? (fun e => e.rein == Rein.wait && e.lateDone) = some e →
      ∃ ts, exec .reinBackStart s = .next (((((s.ingestFlush e.frame).count Cnt.ingCntRein).count Cnt.dreyCntRein)).modEpoch e.frame
          (fun e => { e with rein := .run ts false false, reined := true }))
        ∧ ∀ t : TileId, t ∈ ts ↔ e.frame ∈ s.tiles[t].seen ∨ ∃ w ∈ s.tiles[t].items, w.frame = some e.frame)
    ∧ (∀ (t : TileId) (g : BitVec 8), s.frm.live.find? (fun e => e.frame % 256 == g.toNat
        && (match e.rein with | .run ts _ _ => ts.contains t | _ => false)) = some e →
      exec (.epochReinReceive t g) s = .next ((s.reinTile t e.frame).modEpoch e.frame (fun e => { e with rein := e.rein.dropTile t })))
    ∧ (s.frm.live.find? (fun e => e.rein.running) = some e →
      (∃ t, exec .hoardScatterDiscard s = .next t ∧ t = { s with tiles := t.tiles, frm := t.frm } ∧ t.frm.live.map (·.frame) = s.frm.live.map (·.frame)
        ∧ ∀ u : TileId, t.tiles[u] = { s.tiles[u] with
              scat := s.tiles[u].scat.filter (fun x => x.tag != some (e.frame % 256) || x.accepted)
              fences := t.tiles[u].fences, lastRetire := t.tiles[u].lastRetire }
            ∧ t.tiles[u].fences = s.tiles[u].fences.filter (fun f => !(f.met t.tiles[u])))
      ∧ exec .dreyEpochInvalidate s = .next ((s.dreyInvalidate e.frame).modEpoch e.frame (fun e => { e with rein := e.rein.drey })))
    ∧ (s.frm.live.find? (fun e => e.rein == Rein.run [] true true) = some e →
      exec .reinBackRelease s = .next (((s.modEpoch e.frame (fun e =>
        { e with rein := .rerun, items := [], lostSect := 0, uncovSect := 0, clusterLost := false, clusterUncov := false })).markUnserved e.frame).tryPromote))

/-- The data path of a frame (R68, R126, R139, R161, R164, R186): commit, the next return taken, a held return extrapolated when its wait
ends, the next point inserted, the retirement scan ended, and a new split in force once every epoch before its first has retired and no
scan runs. A corrected pose (R131, R134): for another frame than the last closed it is counted and ignored, one after an accepted one
counts as a duplicate, one after the deadline as late. -/
def Obligations.IngestEvents : Prop :=
  (∀ s : State, s.alive = true →
     exec .commit s = .next s.commitNow
     ∧ (∀ e rest, s.frm.live = e :: rest → e.promoted = false → exec .commit s = .next s)
     ∧ exec .ingestReturn s = .next s.ingestOne.tryPromote
     ∧ (∀ h rest e, s.ingest.waiting = h :: rest → s.epoch? h.frame = some e →
       exec .poseWaitExpiry s = .next
         (({ s with time := max s.time (h.since + 100000 * regN e.conf Reg.ingPoseWait) }.takeHeld h).tryPromote))
     ∧ exec .dreyInsert s = .next s.dreyInsertOne.tryPromote
     ∧ exec .dreyRetirementScanEnd s = .next { s with drey := { s.drey with scanning := none } }
     ∧ (∀ f v rest, s.drey.wantSplit = (f, v) :: rest → (∀ e ∈ s.frm.live, frameFrom f e.frame = true) → s.drey.scanning = none →
       exec .dreyRepartition s = .next { s with drey := { s.drey with split := v, wantSplit := rest } }))
  ∧ (∀ (s : State) (r : ReqId), MayWrite s r → s.gaitN ≠ 0 →
       let f := s.rd Reg.ingCposeFrame
       (s.frm.lastClosed ≠ some f → exec (.ingCposeGo r) s = .next (s.count Cnt.ingCntCposeFrm))
       ∧ (s.frm.lastClosed = some f → s.frm.cposeDone = true → exec (.ingCposeGo r) s = .next (s.count Cnt.ingCntCposeDup))
       ∧ (s.frm.lastClosed = some f → s.frm.cposeDone = false → s.frm.cposeDl < s.time →
         exec (.ingCposeGo r) s = .next (s.count Cnt.ingCntCposeLate)))

/-- Sectors (R175 to R179): a sector closes at its close time with ride-ahead, or once the frame's inserts have ended; its lists start once it and its
neighbours have closed, are written, and then read ready. -/
def Obligations.SectorEvents : Prop :=
  ∀ (s : State) (par : Bool) (k : SectId) (e : Epoch), s.alive = true → s.epochOfParity (b2n par) = some e →
    (s.sectClosed (b2n par) k = false →
      (e.ride = true → e.rein ≠ .rerun →
        (e.lateDone = true → exec (.sectorClose par k) s = .next (s.closeSector (b2n par) k))
        ∧ (e.lateDone = false → e.openT + regN e.conf (Reg.dreySectClose k) * 100000 < e.closeT → s.sectReopened (b2n par) k = false →
          exec (.sectorClose par k) s = .next
            ({ s with time := max s.time (e.openT + regN e.conf (Reg.dreySectClose k) * 100000) }.closeSector (b2n par) k)))
      ∧ (e.ride = false ∨ e.rein = .rerun → e.closed = true → e.lateDone = true → e.mayDeskew = true → s.passEnded e = true →
        exec (.sectorClose par k) s = .next (s.closeSector (b2n par) k)))
    ∧ ((s.closeSector (b2n par) k).sectClosed (b2n par) k = true ∧ (s.closeSector (b2n par) k).sectReopened (b2n par) k = false
      ∧ RegsKept s (s.closeSector (b2n par) k) [Reg.dreySectState])
    ∧ (s.bit Reg.dreyCtrl 0 = true → (∀ j ∈ [(k.val + 7) % 8, k.val, (k.val + 1) % 8], s.sectClosed (b2n par) j = true) →
      bitN e.kmBusy k = false → e.rein.running = false →
      exec (.kernelMapGenerate par k) s = .next (s.modEpoch e.frame (fun e => { e with kmBusy := e.kmBusy ||| 2 ^ k.val })))
    ∧ (bitN e.kmBusy k = true →
      let small := e.isUnset Reg.dreyKmSize 2 || decide (regN64 e.conf Reg.dreyKmSize / 65536 * 65536 < 131072)
      let done := fun (s1 : State) => s1.modEpoch e.frame (fun e => { e with kmBusy := putBits e.kmBusy k k 0 });
      (small = true → exec (.kernelMapReady par k) s = .next (done s))
      ∧ (small = false → exec (.kernelMapReady par k) s = .next ((done (s.writeSector e.frame k)).setReady (b2n par) k e.kdMask true)))

/-- FRAME_BOUNDARY (R32, R62, R93, R145, R223, R563, R599), in its order: the frame in progress closes and one two frames old is abandoned,
the next begins, settings come into force, requests are applied or discarded and the next epoch opens. The frame that begins (R31, R32,
R506): its number and its boundary are the ones given, it lasts the period in the register, on the lead of a hitch a write less than
10 µs old waits, and a wheel that has taken a period from its lead keeps it. -/
def Obligations.FrameBoundary : Prop :=
  (∀ s : State, s.alive = true → s.bit Reg.gaitStat 6 = true →
     let s1 := { s with time := max s.time s.frm.nextB }
     let n := s.frameNum
     let s2 := if s.frm.atOrigin then s1 else (s1.closeFrame n s.frm.nextB).abandonOverrun n
     let s3 := ((s2.beginFrame (if s.frm.atOrigin then n else (n + 1) % 2 ^ 32) s.frm.nextB).adoptNumber s.frm.nextB).tileStates.dropPorts
     let s4 := ({ s3 with inForce := s3.regs, forceWritten := s3.written }.windowEvent s3.lateWindow).requests
     exec .frameBoundary s = .next ((s4.ingestBoundary s4.frameNum).openEpochs.freeSlots.tryPromote.refreshBusy))
  ∧ (∀ (s : State) (m b : Nat), m < 2 ^ 32 →
       let t := s.beginFrame m b
       let per := if s.isWheel = true ∧ s.frm.period ≠ 0 then s.frm.period
         else if s.leadsHitch = true ∧ b < s.frm.perWrite + 10000 then 1000 * s.frm.perPrev else 1000 * s.rd Reg.gaitFrmPeriod
       t.frameNum = m ∧ t.frm.lastB = b ∧ t.frm.prevB = s.frm.lastB ∧ t.frm.period = per ∧ t.frm.nextB = b + per ∧ t.frm.atOrigin = false
         ∧ t.frm.live = s.frm.live ∧ RegsKept s t [Reg.gaitFrmNum] ∧ t = { s with regs := t.regs, frm := t.frm })

/-! ### Head ports -/

/-- Head ports (R75, R88, R94, R104 to R106, R112): a link that comes up takes a head out of absent and clears the sequence reference, one
that goes down leaves HEAD; Sync and Pdelay_Req go out with the time; a hot-join sets its bit and takes the dynamic address ENTDAA gives,
a free value of seven bits (log 118), and an in-band interrupt sets its bit; lit seconds count to minutes, which are written to the head;
a failed life write is counted. ETH_FRAME_RECEIVE (R72, R73): a port that is not on ignores the frame; a bad FCS counts, then a frame past
1,522 bytes or too short for a header, and one of an EtherType the port does not take; one tag is stripped; a frame of the EtherType in
force goes to the range-packet checks, where a header that is not one counts, and one of gPTP to that. -/
def Obligations.PortEvents : Prop :=
  (∀ (s : State) (p : PortId), s.alive = true →
     (∃ t, exec (.linkDown p) s = .next t ∧ t.bit (Reg.portState p) 0 = false ∧ t.headOf p = s.headOf p ∧ t.ports[p].phyUp = false
       ∧ RegsKept s t [Reg.portState p] ∧ (∀ o : PortId, o ≠ p → t.ports[o] = s.ports[o]) ∧ t = { s with regs := t.regs, ports := t.ports })
     ∧ (s.gaitN ≠ 0 →
       (s.bit (Reg.portCtrl p) 0 = true → s.bit (Reg.portState p) 0 = false → ∃ t, exec (.linkUp p) s = .next t ∧ t.bit (Reg.portState p) 0 = true
         ∧ t.headOf p = (if s.headOf p = 0 then 1 else s.headOf p) ∧ t.ports[p].phyUp = true ∧ t.ports[p].seqRef = none
         ∧ RegsKept s t [Reg.portState p] ∧ (∀ o : PortId, o ≠ p → t.ports[o] = s.ports[o]) ∧ t = { s with regs := t.regs, ports := t.ports })
       ∧ (s.bit (Reg.portCtrl p) 0 = false ∨ s.bit (Reg.portState p) 0 = true →
         exec (.linkUp p) s = .next (s.modPort p (fun q => { q with phyUp := true })))
       ∧ (∀ (b : Fin 2) (h : Fin 4), (∃ t a, exec (.i3cHotJoin b h) s = .next t ∧ t = { s with i3c := t.i3c, freeCtr := t.freeCtr } ∧ a < 128
           ∧ t.i3c[b] = { s.i3c[b] with hotJoin := s.i3c[b].hotJoin ||| 2 ^ h.val, addr := s.i3c[b].addr.set h (some a) }
           ∧ ∀ o : Fin 2, o ≠ b → t.i3c[o] = s.i3c[o])
         ∧ ∃ t, exec (.i3cInBandInterrupt b h) s = .next t ∧ t = { s with i3c := t.i3c }
           ∧ t.i3c[b] = { s.i3c[b] with ibi := s.i3c[b].ibi ||| 2 ^ h.val } ∧ ∀ o : Fin 2, o ≠ b → t.i3c[o] = s.i3c[o])
       ∧ (s.ports[p].litNow = true →
         (s.ports[p].litSec + 1 < 60 → exec (.litTimeTick p) s =
           .next (s.modPort p (fun q => { q with litNow := false, litSec := s.ports[p].litSec + 1 })))
         ∧ (60 ≤ s.ports[p].litSec + 1 →
           let m := min 0xFFFFFF (s.fld (Reg.portLifeMin p) 23 0 + 1)
           exec (.litTimeTick p) s = .next ((((s.modPort p (fun q =>
             { q with litNow := false, litSec := s.ports[p].litSec + 1 - 60, lifePend := some m })).put (Reg.portLifeMin p) m).refreshLife p).lifeXfer p m))))
     ∧ (s.portOn p = true →
       exec (.syncTransmit p) s = .next (s.modPort p (fun q =>
         { q with sent := [(1, q.syncSeq, s.time), (0, q.syncSeq, s.time)] ++ q.sent, syncSeq := (q.syncSeq + 1) % 65536 }))
       ∧ exec (.pdelayReqTransmit p) s = .next (s.modPort p (fun q =>
         { q with sent := [(2, q.pdelaySeq, s.time)] ++ q.sent, pdelaySeq := (q.pdelaySeq + 1) % 65536 })))
     ∧ ∀ (nack : Bool) (v : BitVec 24) (m : Nat), s.ports[p].lifePend = some m →
       let s1 := s.modPort p (fun q => { q with lifePend := none });
       (nack = true ∨ v.toNat ≠ m → exec (.lifeWriteComplete p nack v) s = .next (s1.count (Cnt.portCntLifewr p)))
       ∧ (nack = false → v.toNat = m → exec (.lifeWriteComplete p nack v) s = .next s1))
  ∧ (∀ (s : State) (p : PortId) (f : List Byte), s.alive = true →
       let et0 := beNat ((f.drop 12).take 2)
       let et := if et0 = 0x8100 then beNat ((f.drop 16).take 2) else et0
       let pl := f.drop (if et0 = 0x8100 then 18 else 14)
       let srp := bitsN (s.force Reg.portEtype) 15 0
       (s.portOn p = false → ∀ ok, exec (.ethFrameReceive p ok f) s = .next s)
       ∧ (s.portOn p = true → exec (.ethFrameReceive p false f) s = .next (s.count (Cnt.portCntFcs p)))
       ∧ (s.portOn p = true → 1518 < f.length ∨ f.length < 14 → exec (.ethFrameReceive p true f) s = .next (s.count (Cnt.portCntNonsrp p)))
       ∧ (s.portOn p = true → 14 ≤ f.length → f.length ≤ 1518 →
         (et = srp → exec (.ethFrameReceive p true f) s = .next (s.srpReceive p pl)
           ∧ (pl.length < 36 ∨ leAt pl 0 2 ≠ 0x5253 ∨ leAt pl 2 1 ≠ 1 → s.srpReceive p pl = s.count (Cnt.portCntHdr p)))
         ∧ (et ≠ srp → et = 0x88F7 → exec (.ethFrameReceive p true f) s = .next (s.gptpReceive p pl))
         ∧ (et ≠ srp → et ≠ 0x88F7 → exec (.ethFrameReceive p true f) s = .next (s.count (Cnt.portCntNonsrp p)))))

/-! ### The tile scheduler, the stack and memory -/

/-- The tile scheduler and the tiles' own events (R217, R218, R377, R440, R552 to R554, R586, R591): the next item goes to its tile once
that is awake; an ended item whose instructions have all retired is finished; a tile wakes, and clock-gates when it has been idle; its
watchdog fails it; a self-test ends; a TLB invalidation is done once nothing is in flight. Programs and shards (R226, R227, R331, R333): a
program check ends with its buffer's valid bit; a switched shard is applied once nothing is out to its old homes; a window of shard loads
ends. -/
def Obligations.SchedulerEvents : Prop :=
  (∀ (s : State), s.alive = true →
     (2 ≤ s.gaitN → s.gait.trans = .none →
       let s0 := s.frm.live.foldl (fun (s : State) e => s.loseUnreadable e.frame) s
       let work := fun (f : Option Nat) (b : Fin 2) (p : ProgInfo) (i : Nat) (d : ItemDesc) =>
         (⟨f, i, b, bitsN d.pc 21 0, BitVec.ofNat 64 (p.itemBase + 64 * i), BitVec.ofNat 64 d.g2, bitN d.flags 1, 0⟩ : Work);
       (∀ e p i t d s1, s0.nextTagged = some (e, p, i, t, d) →
         (s0.wakeTile t = (true, s1) → exec .itemDispatch s =
           .next ((s1.modEpoch e.frame (fun e => e.setItem i (.held t))).sendItem t (work (some e.frame) e.buf p i d)))
         ∧ (s0.wakeTile t = (false, s1) → exec .itemDispatch s = .next s1))
       ∧ (s0.nextTagged = none → s0.nextUntagged = none → exec .itemDispatch s = .next s0.skipUnserved))
     ∧ ∀ (t : TileId),
       (∀ w, s.tiles[t].ended.find? (fun w => !(s.tiles[t].openU.any (fun u => u.work == some w))) = some w →
         exec (.itemComplete t) s = .next (s.finishItem t w))
       ∧ (s.tiles[t].waking = true →
         let s1 := s.modTile t (fun tl =>
           { tl with waking := false, clocked := true, cycFrom := s.time, idleSince := s.time, lastRetire := s.time });
         exec (.tileWakeComplete t) s = .next ((if s.gaitN = 2 then s1.setGait 3 true else s1).startItem t))
       ∧ (s.tiles[t].clocked = true → s.tiles[t].isIdle = true → s.tiles[t].ended = [] → s.inHandler t = false → s.tiles[t].exc = none →
         let s1 := ({ s with time := max s.time (max s.tiles[t].idleSince s.tiles[t].lastRetire + 1000 * s.rd Reg.gaitTileIdle) }.countCycles t).modTile t
           (fun tl => { tl with clocked := false });
         exec (.tileClockGate t) s = .next (if (∃ x ∈ s1.tiles.toList, (x.clocked || x.waking) = true) ∨ s.gaitN ≠ 3 ∨ s.gait.trans ≠ .none then s1
           else if s1.drained then s1.enterTrot else s1.setTrans .canterToTrot false))
       ∧ (s.tiles[t].clocked = true → s.tiles[t].hasWork = true → s.tileState t ≠ 4 →
         exec (.tileWatchdogExpiry t) s = .next
           (({ s with time := max s.time (s.tiles[t].lastRetire + 1000 * s.rd (Reg.tileWdog t)) }.count (Cnt.tileCntWdog t)).failTile t 1))
       ∧ (s.tiles[t].selfTest = true → ∀ ok, ∃ s', exec (.tileSelfTestEnd t ok) s = .next s' ∧ s'.tiles[t].selfTest = false
         ∧ s'.tileState t = (if ok then 1 else s.tileState t) ∧ s'.tiles[t].nodes = [] ∧ s'.tiles[t].ladder = []
         ∧ (ok = true → s'.bit Reg.evtQuarStat t = false))
       ∧ (s.tiles[t].inFlight = false → exec (.tlbInvPendClear t) s = .next (s.putB (Reg.tileTlbStat t) 0 false))
       ∧ (s.tiles[t].inFlight = true → exec (.tlbInvPendClear t) s = .next s))
  ∧ (∀ (s : State), s.alive = true →
       (∀ b : Bool, let k : Fin 2 := if b then 1 else 0
         s.sched.checking[k] = true → ∃ t step info s1, s.checkProgram k.val = (step, info, s1) ∧ exec (.programCheckEnd b) s = .next t
           ∧ t.sched.progs[k] = (if step = 0 then info else none) ∧ t.sched.checking[k] = false ∧ t.bit Reg.tileSchedStat (2 + k.val) = decide (step = 0)
           ∧ t.tiles = s1.tiles)
       ∧ (∀ (k : Fin 16) (h : Fin 64), (s.shardAt k h).switching = true →
         (∀ t : TileId, s.tiles[t].asksHome k (s.shardAt k h).old = false) →
         let s1 := s.modShard k h (fun x => { x with switching := false, old := [] });
         exec (.shardSwitchApplied k h) s = .next ((s1.setShard k h (s1.fld (Reg.hrdShdState k h) 0 0 + 2)).bumpVersion k))
       ∧ exec .shardLoadWindow s = .next
         (((List.range 1024).foldl (fun (s : State) i => s.shardWindow (i / 64) (i % 64))
           { s with time := max s.time ((s.rd Reg.hrdWinNum + 1) * 1000000000) }).put Reg.hrdWinNum (s.rd Reg.hrdWinNum + 1)))

/-- Uncorrectable SRAM words (R585, Table 18-1): a tile fails and is quarantined; a directory word goes to Drey; a buffer of the base die is
counted and the frame of its parity degraded; a word of the Halter bank, the log or memory is bad from then on. Errors of the wire bond
(R474 to R476, R485): a parity error is counted and kept for the window; one in the data alone poisons the access it belongs to (log 122),
one in the control discards its flit, and an access so lost ends as poisoned 2 µs after; at the end of a second a port with errors on
three tiles is to leave, and a tile with too many on the ports that stay fails; a field test marks the ports that fail it to leave. -/
def Obligations.HardwareErrors : Prop :=
  (∀ s : State, s.alive = true →
     (∀ t, exec (.sramUncorrectableError (.tile t)) s = .next (s.failTile t 0)
       ∧ (s.tileState t ≠ 4 → (s.failTile t 0).tileState t = 4 ∧ (s.failTile t 0).tiles[t].running = none))
     ∧ (∀ p l k, exec (.sramUncorrectableError (.dreyDir p l k)) s = .next (s.dreyBad (b2n p) k.toNat))
     ∧ exec (.sramUncorrectableError (.baseBuffer none)) s = .next (s.count Cnt.evtCntBaseUe)
     ∧ (∀ p e, s.epochOfParity (b2n p) = some e →
       exec (.sramUncorrectableError (.baseBuffer (some p))) s = .next ((s.count Cnt.evtCntBaseUe).degrade e.frame))
     ∧ exec (.sramUncorrectableError .halterBank) s = .next { s with halter := { s.halter with bankBad := true } }
     ∧ (∀ k : Fin 4096, ∃ t, exec (.sramUncorrectableError (.eventLog k)) s = .next t ∧ k.val ∈ t.log.bad ∧ t = { s with log := t.log })
     ∧ (∀ a, s.isMem a = true → (a < 0x8000000 ∨ s.install.inlineEcc = true) →
       ∃ t, exec (.sramUncorrectableError (.memory a)) s = .next t ∧ (∃ b, (eccUnit a, b) ∈ t.mem.bad) ∧ t = { s with mem := t.mem }
         ∧ t.mem.cells = s.mem.cells))
  ∧ (∀ (s : State), s.alive = true →
       (∀ (d : DieId) (p : Fin 8) (t : TileId) (de ce : Bool) (g : Option (BitVec 8)), s.bit (Reg.tileDieStat d) 0 = true →
         s.bit (Reg.tileBondPstat d p) 0 = true → de = true ∨ ce = true → t.val / 16 = d.val →
         let tag := g.map (·.toNat)
         let s1 := s.count (Cnt.tileBondCntPar d p)
         let s2 := { s1 with stack := { s1.stack with winErrs := (d.val, p.val, t.val) :: s1.stack.winErrs } };
         (s2.tagReined tag = true ∨ s2.bondFind t p tag = none → exec (.bondFlitReceive d p t de ce g) s = .next s2)
         ∧ ∀ h, s2.tagReined tag = false → s2.bondFind t p tag = some h →
           exec (.bondFlitReceive d p t de ce g) s = .next (if ce = true then s2.bondLose t h else (s2.degradeTag tag).bondPoison t h))
       ∧ (∀ (d : DieId) (g : Option (BitVec 8)) (t : TileId) (h : BondHit) (at0 : Nat), t.val / 16 = d.val →
         s.tiles[t].lostAccess (g.map (·.toNat)) = some (h, at0) →
         (∀ x : TileId, x < t → x.val / 16 = d.val → s.tiles[x].lostAccess (g.map (·.toNat)) = none) →
         let s1 := { s with time := max s.time (at0 + 2000) }.count (Cnt.tileBondCntTmo d);
         (∀ q, h = .gather q → q.drop = true → exec (.bondTimeout d g) s = .next (s1.dropReq t q))
         ∧ ((∀ q, h = .gather q → q.drop = false) →
           exec (.bondTimeout d g) s = .next ((s1.degradeTag (g.map (·.toNat))).bondPoison t h)))
       ∧ (let thr := max 1 (s.fld Reg.tileBondCfg 7 0)
         let now := max s.time ((s.stack.windows + 1) * 1000000000)
         let bad := fun (i : Nat) => decide (i < 16) && (s.bit (Reg.tileBondPstat (i / 8) (i % 8)) 0
           && decide (thr ≤ (s.portErrs (i / 8) (i % 8)).length ∧ 3 ≤ (s.portErrs (i / 8) (i % 8)).eraseDups.length))
         let errs := fun (t : TileId) => (s.stack.winErrs.filter (fun e => !(bad (8 * e.1 + e.2.1)) && e.2.2 == t.val)).length;
         ((∀ t, errs t < thr) → ∃ t, exec .bondErrorWindow s = .next t
           ∧ t = { s with time := now, regs := t.regs, stack := t.stack, log := t.log } ∧ t.stack.winErrs = [] ∧ t.stack.windows = s.stack.windows + 1
           ∧ ∀ i < 16, (bad i = true → t.bit (Reg.tileBondPstat (i / 8) (i % 8)) 3 = true ∧ (i / 8, i % 8) ∈ t.stack.leaving)
             ∧ (bad i = false → t.bit (Reg.tileBondPstat (i / 8) (i % 8)) 3 = s.bit (Reg.tileBondPstat (i / 8) (i % 8)) 3))
         ∧ ((∀ i < 16, bad i = false) → ∀ t : TileId, thr ≤ errs t → (∀ x, x ≠ t → errs x < thr) →
           exec .bondErrorWindow s =
             .next ({ s with time := now, stack := { s.stack with winErrs := [], windows := s.stack.windows + 1 } }.failTile t 2)))
       ∧ ∀ (fail : BitVec 16) (gs : List (BitVec 7)), s.stack.testing ≠ 0 → s.stack.testing < 4 →
         ∃ t, exec (.bondTestDone fail gs) s = .next t ∧ t.stack.testing = 0 ∧ t.bit Reg.tileBondTest 2 = false ∧ t.bit Reg.tileBondTest 3 = true
           ∧ t = { s with regs := t.regs, stack := t.stack, log := t.log }
           ∧ ∀ i < 16, bitN fail.toNat i = true ∧ bitN s.stack.testing (i / 8) = true ∧ s.bit (Reg.tileBondPstat (i / 8) (i % 8)) 0 = true →
             t.bit (Reg.tileBondPstat (i / 8) (i % 8)) 2 = true ∧ (i / 8, i % 8) ∈ t.stack.leaving)

/-! ### The die stack -/

/-- Die bring-up (R470 to R472): in Walk to Trot a die with a port trained comes into service with those ports that parity and field tests
left, its initialised tiles idle; one declared absent has no port and its tiles are out of service or quarantined; with both settled the
package is in Trot. Test access (R479 to R482): each instruction is held at the base die and at the dies in the chain, and reaches the test
logic alone; BYPASS and IDCODE capture a bit or a word of the base die, then of each die in the chain; SAMPLE/PRELOAD and, where
TESTMODE_N was low, EXTEST and INTEST capture the boundary-scan or the wrapper registers, whose contents the manual leaves open (log 123);
EXTEST and INTEST act as BYPASS and are counted where it was high; a selection captures the one before and keeps no absent die. -/
def Obligations.StackAndTest : Prop :=
  (∀ (s : State) (d : DieId), s.alive = true → s.gait.trans = .walkToTrot → s.stack.bring[d] = 0 →
     let ended := fun (t : State) => t.gaitN = (if s.stack.bring[1 - d] = 0 then s.gaitN else 2);
     (∀ m : BitVec 8, (∃ p : Fin 8, bitN m.toNat p = true ∧ s.bit (Reg.tileBondPstat d p) 2 = false ∧ s.bit (Reg.tileBondPstat d p) 3 = false) →
       ∃ t, exec (.computeDieBringUp d m) s = .next t ∧ t.bit (Reg.tileDieStat d) 0 = true ∧ t.bit (Reg.tileDieStat d) 1 = false ∧ ended t
         ∧ t.stack.bring[d] = 1 ∧ t.stack.bring[1 - d] = s.stack.bring[1 - d] ∧ t.mem = s.mem ∧ t.frm = s.frm
         ∧ (∀ p : Fin 8, let ok := bitN m.toNat p && !(s.bit (Reg.tileBondPstat d p) 2) && !(s.bit (Reg.tileBondPstat d p) 3)
             t.bit (Reg.tileBondPstat d p) 0 = ok ∧ t.bit (Reg.tileBondPstat d p) 1 = bitN m.toNat p ∧ bitN (t.diePorts d) p = ok)
         ∧ ∀ x : TileId, x.val / 16 = d.val → t.tileState x =
             (if s.tileState x = 0 ∨ (s.tileState x = 5 ∧ s.bit (Reg.tileDieStat d) 1 = true) then 1 else s.tileState x))
     ∧ ∀ c : BitVec 5, c ≠ 0 → ∃ t, exec (.dieAbsent d c) s = .next t ∧ t.bit (Reg.tileDieStat d) 0 = false ∧ t.bit (Reg.tileDieStat d) 1 = true
       ∧ t.bit (Reg.tileDieStat d) 2 = !(bitN c.toNat 2) ∧ t.diePorts d = 0 ∧ ended t ∧ t.time = max s.time (s.stack.startT + 42000)
       ∧ t.stack.bring[d] = 2 ∧ t.stack.bring[1 - d] = s.stack.bring[1 - d] ∧ t.mem = s.mem
       ∧ ∀ x : TileId, x.val / 16 = d.val → t.tileState x = 4 ∨ (t.tileState x = 5 ∧ t.bit Reg.evtOosStat x = true))
  ∧ (∀ (s : State),
       let on := fun (d : Nat) => bitN s.stack.sel.toNat d && s.bit (Reg.tileDieStat d) 0
       let chain := (List.range 2).filter on
       let scan := fun (i : Instr) (n : Nat) => ∃ t, exec i s = .next t ∧ t = { s with stack := t.stack, freeCtr := t.freeCtr } ∧ t.stack.jtagIr = n
         ∧ t.stack = { s.stack with jtagIr := n, dieIr := t.stack.dieIr, bscan := t.stack.bscan, wrap := t.stack.wrap }
         ∧ ∀ d : Fin 2, t.stack.dieIr[d] = if on d then n else s.stack.dieIr[d]
       let plain := fun (t : State) (n : Nat) (ws : List W32) => t = { s with stack := t.stack } ∧ t.stack.jtagIr = n ∧ t.stack.dr = ws
         ∧ (∀ d : Fin 2, t.stack.dieIr[d] = if on d then n else s.stack.dieIr[d])
         ∧ t.stack = { s.stack with jtagIr := t.stack.jtagIr, dieIr := t.stack.dieIr, dr := t.stack.dr, sel := t.stack.sel };
       (∃ t, exec .jtagBypass s = .next t ∧ plain t 0 (List.replicate (1 + chain.length) 0) ∧ t.stack.sel = s.stack.sel
         ∧ (s.gait.testmodeN = true → ∀ i ∈ [Instr.jtagExtest, .jtagIntest], exec i s = .next (t.count Cnt.tileBondCntRefuse)))
       ∧ scan .jtagSamplePreload 2
       ∧ (s.gait.testmodeN = false → scan .jtagExtest 3 ∧ scan .jtagIntest 4)
       ∧ (∃ t w ws, exec .jtagIdcode s = .next t ∧ plain t 1 (w :: ws) ∧ t.stack.sel = s.stack.sel
         ∧ w.toNat = 1 + 2 * Config.jtagMfr.toNat + 2 ^ 12 * 0x3296 + 2 ^ 28 * s.install.baseRev.toNat ∧ ws.length = chain.length
         ∧ ∀ x ∈ ws, x.toNat = 1 + 2 * Config.jtagMfr.toNat + 2 ^ 12 * 0x32C0 + 2 ^ 28 * s.install.cmpRev.toNat)
       ∧ ∀ v : BitVec 2, ∃ t w, exec (.stackSel v) s = .next t ∧ plain t 5 [w]
         ∧ ∀ d < 2, bitN t.stack.sel.toNat d = (bitN v.toNat d && s.bit (Reg.tileDieStat d) 0) ∧ bitN w.toNat d = on d)

/-! ### Memory, the copy engine and PCI Express -/

/-- A write to device memory while no word of memory holds an error (R417, R431): its bytes and no other byte of memory change, as every agent
reads them; nothing else of the machine changes. -/
def Obligations.MemoryWrites : Prop :=
  ∀ (s : State) (a : Nat) (bs : List Byte), s.mem.bad = [] → s.mem.soft = [] →
    (∀ k, (s.memWrite a bs).mem.byte k = if h : a ≤ k ∧ k - a < bs.length then bs[k - a]'h.2 else s.mem.byte k)
      ∧ (s.memWrite a bs).mem.bad = [] ∧ (s.memWrite a bs).mem.soft = [] ∧ s.memWrite a bs = { s with mem := (s.memWrite a bs).mem }
      ∧ (s.memWrite a bs).mem.burFill = s.mem.burFill ∧ (s.memWrite a bs).mem.ddrFill = s.mem.ddrFill

/-- The memory system's events (R424, R430, R444, R460, R652): the descriptor at a channel's TAIL runs; one that cannot be read sets the
error bit; one between two memories of this package, alone and with no error to meet, moves its bytes and TAIL; the scrubber reads a
line of each half, which then holds no correctable error (those that come in are free, log 121); a refresh rate is kept; drift past 4/64
UI retrains. Inbound PCI Express (R419, R447, R452): once the boot ROM has the endpoint ready, BAR2 and BAR4 reach burrow memory and
LPDDR5X, and BAR0 control space as requester 8; what no area holds is Unsupported; before that a request has no effect. -/
def Obligations.MemoryEvents : Prop :=
  (∀ (s : State) (c : Fin 4), s.alive = true → s.gaitN ≠ 0 →
     (s.cpyWaiting c ≠ 0 → (c.val = 0 → s.copy[c].fill ≠ []) → ∀ (data : List Byte) (err : Bool),
       exec (.copyDescriptorComplete c data err) s = .next (s.cpyRun c data err)
       ∧ (s.cpyDesc c 0 = none → s.copy[c].moved = 0 → s.copy[c].begun = false → s.mem.soft = [] →
         (s.cpyRun c data err).bit (Reg.hrdCpyErr c) 0 = true ∧ (s.cpyRun c data err).mem = s.mem)
       ∧ ∀ (d : CpyDesc) (a b : Nat), s.cpyDesc c 0 = some d → s.copy[c].fill = [] → s.copy[c].moved = 0 → s.copy[c].begun = false →
         s.copy[c].err = 0 → s.copy[c].reads = [] → s.copy[c].awaits = [] → (∀ x : Fin 4, x ≠ c → s.cpyWaiting x = 0) →
         d.len ≠ 0 → d.len ≤ 67108864 → d.flags / 2 ^ 10 = 0 → d.cpl = 0 →
         s.cpySide (bitN d.flags 0) d.src d.len = .memory a → s.cpySide (bitN d.flags 1) d.dst d.len = .memory b → s.mem.bad = [] →
         s.mem.soft = [] → s.rd (Reg.hrdCpySize c) ≤ 4096 → (a + d.len ≤ b ∨ b + d.len ≤ a) →
         (let e := s.cpySlot c 0 % 2 ^ 42; b + d.len ≤ e ∨ e + 32 ≤ b) →
         let t := s.cpyRun c data err
         t.mem = (s.memWrite b (s.mem.bytes a d.len)).mem ∧ t.rd64 (Reg.hrdCpyCntBytes c) = (s.rd64 (Reg.hrdCpyCntBytes c) + d.len) % 2 ^ 64
           ∧ t.rd (Reg.hrdCpyTail c) = (s.fld (Reg.hrdCpyTail c) 12 0 + 1) % (2 * s.rd (Reg.hrdCpySize c))
           ∧ RegsKept s t [Reg.hrdCpyCntBytes c, Reg.hrdCpyCntBytes c + 4, Reg.hrdCpyTail c, Reg.hrdCpyStat c])
     ∧ (let l := 64 * s.ddr.scrub
       let s1 := (s.upsets.readMeets l 64).readMeets (0x4000000 + l) 64
       exec .patrolScrub s = .next { s1 with ddr := { s1.ddr with scrub := (s1.ddr.scrub + 1) % 2 ^ 20 } }
         ∧ s1 = { s with regs := s1.regs, mem := { s.mem with soft := s1.mem.soft }, freeCtr := s1.freeCtr }
         ∧ s1.mem.softIn l 64 = [] ∧ s1.mem.softIn (0x4000000 + l) 64 = [])
     ∧ (∀ (k : Fin 2) (r : BitVec 8), exec (.refreshRateRead k r) s = .next { s with ddr := { s.ddr with rate := s.ddr.rate.set k r.toNat } }
       ∧ (r.toNat ≤ 4 → exec (.dqsOscillatorCheck k r) s = .next s)
       ∧ (4 < r.toNat → exec (.dqsOscillatorCheck k r) s = .next { s with ddr := { s.ddr with retrains := s.ddr.retrains.set k (s.ddr.retrains[k] + 1) } })))
  ∧ (∀ (s : State), s.alive = true → s.gaitN ≠ 0 → s.pcie.endpoint = true →
       (s.pcie.ready = false → ∀ b w a n d, exec (.pcieInboundRequest b w a n d) s = .next s)
       ∧ (s.pcie.ready = true →
         let cpl := fun (t : State) (st : Nat) (bs : List Byte) => { t with pcie := { t.pcie with lastCpl := (st, bs, []) } };
         (∀ (b : BitVec 3) (a l n : Nat) (d : List Byte), b = 2 ∧ l = a ∧ (∀ w, a + (if w = true then d.length else n) ≤ 0x8000000) ∨ b = 4 ∧ l = 0x1000000000 + a →
           (exec (.pcieInboundRequest b true a n d) s = .next (if s.memRange l d.length then cpl (s.memWrite l d) 0 [] else cpl s 1 []))
           ∧ (s.mem.bad = [] → s.mem.soft = [] →
             exec (.pcieInboundRequest b false a n d) s = .next (if s.memRange l n then cpl s 0 (s.mem.bytes l n) else cpl s 1 [])))
         ∧ (∀ (a n : Nat) (d : List Byte), 0x8000000 < a + d.length → exec (.pcieInboundRequest 2 true a n d) s = .next (cpl s 1 []))
         ∧ (∀ (a n : Nat) (d : List Byte), a < 2 ^ 28 → selOf a d.length ≠ .reserved →
           exec (.pcieInboundRequest 0 true a n d) s = .next (cpl (s.csWrite 8 a d.length (leNat d)) 0 []))
         ∧ ∀ (a n : Nat) (d : List Byte), a < 2 ^ 28 → selOf a n ≠ .reserved →
           let t := s.csRead 8 a n false
           exec (.pcieInboundRequest 0 false a n d) s = .next (cpl t 0 (toLe (spGet (fun _ => 0) t.rdata 8).toNat n))))

/-! ### The Cascade Interface -/

/-- A message that reaches an active port (Table 15-5, R500, R501, R513, R514): each row is that message handled, then what is due sent.
One for another package is passed on through the other port or dropped and counted; here a read answers with its bytes, a write is
performed and acknowledged, or answered with STATUS 2 where it is none, an OWN_VER raises the version, an MSI is delivered, and a
response no request waits for is discarded. Ownership pushes and contributions (R508, R509, R512): OWN_DONE marks its source in the
step's state; a push to a full inbox is dropped and counted, one with room takes the next slot, and one to an inbox whose base is unset is
an access to a reserved address (R660); the lead keeps a member's contribution to a frame still to commit and counts a late one. -/
def Obligations.SciArrivals : Prop :=
  (∀ (s : State) (p : Fin 2) (h : SciHdr) (data : List Byte),
     (SciActive s p → ∀ x ∈ [(0x00, [], Instr.rd p h), (0x01, data, .wr p h data), (0x10, data, .rdr p h data), (0x11, [], .wra p h)
       , (0x20, data, .ownPush p h data), (0x21, [], .ownDone p h), (0x22, [], .ownVer p h), (0x30, data, .msi p h data), (0x31, data, .contrib p h data)
       , (0x40, [], .crd p h), (0x41, data, .cwr p h data), (0x50, data, .crr p h data), (0x51, [], .cwa p h)],
       exec x.2.2 s = .next (s.handleMsg p ⟨x.1, h, x.2.1⟩).settleBcasts.sciPump)
     ∧ (s.sciOn = true → s.sciSt p ≠ 7 → exec (.rd p h) s = .next s.settleBcasts.sciPump)
     ∧ (h.dst.toNat ≠ s.ownPkg → ∀ op, let m : SciMsg := ⟨op, h, data⟩
       let o : Fin 2 := 1 - p;
       (bitN (s.rd (Reg.sciRoute o)) h.dst.toNat = true → (s.handleMsg p m).hitch.ports[o].queue = s.hitch.ports[o].queue ++ [(1, m)]
         ∧ (s.handleMsg p m).rd64 (Reg.sciCntFwd o) = (s.rd64 (Reg.sciCntFwd o) + 1) % 2 ^ 64 ∧ (s.handleMsg p m).mem = s.mem)
       ∧ (bitN (s.rd (Reg.sciRoute o)) h.dst.toNat = false → m.asks = false → s.handleMsg p m = s.count (Cnt.sciCntNoroute p)))
     ∧ (h.dst.toNat = s.ownPkg →
       let a := h.operand.toNat % 2 ^ 42
       let n := 2 ^ h.size.toNat
       let rd : SciMsg := ⟨0x00, h, []⟩
       let wr : SciMsg := ⟨0x01, h, data⟩;
       (h.size.toNat < 3 ∨ 8 < h.size.toNat ∨ s.memRange a n = false → s.handleMsg p rd = s.replyTo rd 2 [])
       ∧ (3 ≤ h.size.toNat → h.size.toNat ≤ 8 → s.memRange a n = true → s.mem.bad = [] → s.mem.soft = [] →
         s.handleMsg p rd = s.replyTo rd 0 (s.mem.bytes a n))
       ∧ (3 ≤ h.size.toNat → h.size.toNat ≤ 8 → n ≤ data.length → s.memRange a n = true → h.status ≠ 1 →
         let s1 := s.memWrite a (data.take n)
         s.handleMsg p wr = if h.ackReq = true then s1.replyTo wr 0 [] else s1)
       ∧ (h.size.toNat < 3 ∨ 8 < h.size.toNat ∨ data.length < n ∨ s.memRange a n = false →
         s.handleMsg p wr = if h.ackReq = true then s.replyTo wr 2 [] else s)
       ∧ (let t := s.handleMsg p ⟨0x22, h, []⟩
         let k := h.operand.toNat % 16
         t.fld (Reg.hrdTblVer k) 15 0 = (s.fld (Reg.hrdTblVer k) 15 0 + 1) % 2 ^ 16 ∧ RegsKept s t [Reg.hrdTblVer k] ∧ t = { s with regs := t.regs })
       ∧ s.handleMsg p ⟨0x30, h, data⟩ = { s with hitch := { s.hitch with msis := s.hitch.msis ++ [(h.operand.toNat, leAt data 0 8)] } }
       ∧ (s.hitch.ports[p].reqs.find? (fun r => r.tag == h.tag.toNat && r.dst == h.src.toNat) = none →
         ∀ op ∈ [0x10, 0x11, 0x50, 0x51], s.handleMsg p ⟨op, h, data⟩ = s)
       ∧ ∀ (m : SciMsg) (st : Nat) (bs : List Byte), ∃ r, s.replyTo m st bs = { s with hitch := { s.hitch with outbox := s.hitch.outbox ++ [r] } }
           ∧ r.op = replyOp m.op ∧ r.hdr.dst = m.hdr.src ∧ r.hdr.tag = m.hdr.tag ∧ r.data = bs))
  ∧ (∀ (s : State) (p : Fin 2) (h : SciHdr) (data : List Byte), h.dst.toNat = s.ownPkg →
       let o := h.operand.toNat
       let k := bitsN o 3 0
       let s1 := s.inboxStep k (bitsN o 15 4)
       let slots := bitsN (s1.rd64 (Reg.sciInboxBase k)) 63 48
       let used := spGet (fun _ => 0) s1.hitch.inboxCnt k
       let w := s1.rd (Reg.sciInboxStat k);
       (let t := s.handleMsg p ⟨0x21, h, []⟩;
         bitN (t.rd (Reg.sciInboxStat k)) (20 + h.src.toNat) = true ∧ bitsN (t.rd (Reg.sciInboxStat k)) 31 24 = bitsN o 15 4 % 256
           ∧ RegsKept s t [Reg.sciInboxStat k] ∧ t.mem = s.mem)
       ∧ (s1.hitch.halfLost = [] → s1.isUnset (Reg.sciInboxBase k) 2 = false →
         (slots ≤ used → let t := s.handleMsg p ⟨0x20, h, data⟩;
           t.mem = s.mem ∧ t.rd (Reg.sciInboxStat k) = w ∧ t.rd Cnt.sciCntInboxLost.reg = min 0xFFFFFFFF (s.rd Cnt.sciCntInboxLost.reg + 1))
         ∧ (used < slots → let t := s.handleMsg p ⟨0x20, h, data⟩;
           bitsN (t.rd (Reg.sciInboxStat k)) 12 0 = (bitsN w 12 0 + 1) % slots % 2 ^ 13
             ∧ spGet (fun _ => 0) t.hitch.inboxCnt k = used + 1))
       ∧ (s1.hitch.halfLost = [] → s1.isUnset (Reg.sciInboxBase k) 2 = true → let t := s.handleMsg p ⟨0x20, h, data⟩;
         t.mem = s.mem ∧ t.rd (Reg.sciInboxStat k) = w ∧ t.rd Cnt.evtCntEngAddr.reg = min 0xFFFFFFFF (s.rd Cnt.evtCntEngAddr.reg + 1))
       ∧ (let f := o % 2 ^ 32
         let t := s.handleMsg p ⟨0x31, h, data⟩;
         (s.bit Reg.sciHitchStat 2 = false → t = s)
         ∧ (s.bit Reg.sciHitchStat 2 = true → s.epoch? f = none → f < s.frameNum → s.frm.nextOpen = none → t = s.count Cnt.sciCntContribLate)
         ∧ (s.bit Reg.sciHitchStat 2 = true → s.frameNum ≤ f → s.hitch.verdict = none →
           t = { s with hitch := { s.hitch with contribs := s.hitch.contribs.filter (fun x => ¬ (x.member = h.src.toNat ∧ x.frame = f))
             ++ [(⟨h.src.toNat, f, leAt data 0 6, leAt data 6 3, leAt data 9 1⟩ : Contribution)] } })))

/-- Link-control records (R489, R490, R502, R503, R505, R506, R518): a record that reaches a negotiating or active port is that record handled, then
what is due sent. A wheel with no lead keeps a CAP; the lead gives the first reason that refuses a device, or assigns it its number; a
wheel takes time and the next boundary from its lead, and one told to detach leaves the hitch. A frame in progress then lasts until that
boundary, the model's reading (log 46). -/
def Obligations.SciRecords : Prop :=
  ∀ (s : State) (p : Fin 2) (l : LinkRec),
    (s.sciOn = true → s.sciSt p = 6 ∨ s.sciSt p = 7 → ∀ d : Nat, ∀ x ∈ [(s.recCap p l, Instr.cap p l), (s.recAssign p l, .assign p l), (s.recAccept p l, .accept p l)
      , (s.recRefuse p l, .refuse p l), (s.recTime p l d, .time p l d), (s.recDetach p l, .detach p l)], exec x.2 s = .next x.1.settleBcasts.sciPump)
    ∧ (s.bit Reg.sciHitchStat 2 = false → s.hitch.up = none → s.recCap p l = s.modSci p (fun q => { q with cap := some l }))
    ∧ (s.bit Reg.sciHitchStat 2 = true →
      let hops := (s.hitch.members.filter (fun (m : Member) => m.attached && m.port == p)).length + 1
      let n := wheelNumber p hops
      let why := s.refusal p l hops;
      (why = 0 → ∃ m ∈ (s.recCap p l).hitch.members, m.num = n ∧ m.serial = l.serial.toNat ∧ m.port = p ∧ m.hops = hops ∧ m.attached = false
          ∧ (s.recCap p l).regs = s.regs ∧ (s.recCap p l).hitch.ports[p].ctl.length = s.hitch.ports[p].ctl.length + 1)
      ∧ (why ≠ 0 → (s.sciSt p = 6 → (s.recCap p l).sciSt p = 9) ∧ (s.recCap p l).hitch.members = s.hitch.members)
      ∧ (bitsN l.rev.toNat 7 4 ≠ 1 ∨ bitsN l.rev.toNat 3 0 < 2 → why = 1)
      ∧ (bitsN l.rev.toNat 7 4 = 1 → 2 ≤ bitsN l.rev.toNat 3 0 → bitN l.classes.toNat 3 = false ∨ bitN l.classes.toNat 4 = false → why = 2)
      ∧ (why = 0 → hops ≤ 3 ∧ l.serial ≠ s.install.serial ∧ ∀ m ∈ s.hitch.members, m.attached = true → m.num ≠ n ∧ m.serial ≠ l.serial.toNat))
    ∧ (s.hitch.up = some p → ∀ d : Nat,
      let t := s.recTime p l d
      t.time = max s.time (l.leadTime.toNat + d) ∧ t.mem = s.mem ∧ t.frameNum = s.frameNum
        ∧ (l.nextBoundary ≠ 0 → t.frm.nextB = l.nextBoundary.toNat ∧ t.bit Reg.gaitStat 6 = true) ∧ (l.nextBoundary = 0 → t.frm = s.frm)
        ∧ (l.nextBoundary ≠ 0 → s.bit Reg.gaitStat 6 = true → s.frm.atOrigin = false → s.frm.lastB < l.nextBoundary.toNat →
          t.frm.period = l.nextBoundary.toNat - s.frm.lastB))
    ∧ (s.hitch.up ≠ some p → ∀ d : Nat, s.recTime p l d = s)
    ∧ (s.bit Reg.sciHitchStat 2 = false → s.hitch.up = some p → l.number.toNat % 4 = s.ownPkg →
      let t := s.recDetach p l
      t.fld Reg.sciHitchStat 15 0 = 0 ∧ t.hitch.up = none ∧ t.rd (Reg.sciRoute p) = 0 ∧ t.sciSt p = 6)

/-- The link below its messages (R492, R495, R496, R501, R505, R509, R516): training goes through the states of Table 15-1 event by event and out of
them by its timeouts, at their instants; a flit with a bad CRC is counted and a replay asked for; without acknowledgement for 2 µs the
flits are sent again, and after four such tries the link retrains; a request, a contribution or a broadcast that gets no answer in time
ends. A device in no hitch logs that it waits at each whole second of the time base, the model's reading of R490 (log 124). -/
def Obligations.SciLink : Prop :=
  ∀ (s : State) (p : Fin 2), s.sciOn = true →
    (∀ e, exec (.sciTrainingSet p e) s = .next (s.trainEvent p e).settleBcasts.sciPump)
    ∧ (∀ lanes : BitVec 4, lanes ≠ 0 → s.sciSt p = 1 → (s.trainEvent p (.laneDetected lanes)).sciSt p = 2
        ∧ (s.trainEvent p (.laneDetected lanes)).hitch.ports[p].lanes = lanes.toNat)
    ∧ (s.sciSt p = 4 → (s.trainEvent p .presetsSettled).sciSt p = 5 ∧ (s.trainEvent p .presetsSettled).bit (Reg.sciState p) 6 = true)
    ∧ (s.sciSt p = 5 → (s.trainEvent p .creditsReceived).sciSt p = 6 ∧ (s.trainEvent p .creditsReceived).hitch.ports[p].credits = vcUnits
        ∧ (s.trainEvent p .creditsReceived).hitch.ports[p].ctl = [recBytes 1 s.ownRec])
    ∧ (s.sciSt p = 8 → (s.trainEvent p .lockRegained).sciSt p = 7)
    ∧ (let s1 := match sciLimit (s.sciSt p) with
        | some n => { s with time := max s.time (s.hitch.ports[p].entered + n) }
        | none => s
      let t := match s.sciSt p with
        | 1 => s1.modSci p (fun q => { q with entered := s1.time })
        | 2 => s1.setSciSt p 1 | 3 => s1.setSciSt p 1 | 5 => s1.setSciSt p 1 | 4 => (s1.putB (Reg.sciState p) 6 false).setSciSt p 5
        | 6 => s1.setSciSt p 9 | 8 => s1.sciDown p | _ => s1
      exec (.sciStateTimeout p) s = .next t.settleBcasts.sciPump)
    ∧ (∀ f : List Byte, exec (.sciFlitReceive p f) s = .next (s.flitIn p f).settleBcasts.sciPump
      ∧ (s.sciSt p = 6 ∨ s.sciSt p = 7 → f.length = 256 → leAt f 0xFC 4 ≠ crc32c (f.take 0xFC) →
        s.flitIn p f = (s.count (Cnt.sciCntCrc p)).modSci p (fun q => { q with discarding := true, nakDue := true })))
    ∧ (let q := s.hitch.ports[p]
      let s1 := { s with time := max s.time (q.since + 2000) };
      (s.sciSt p = 6 ∨ s.sciSt p = 7 → q.unacked ≠ [] →
        (q.replays < 4 → exec (.sciAckTimeout p) s = .next (s1.replay p).settleBcasts.sciPump
          ∧ (s1.replay p).hitch.ports[p].sent.length = q.sent.length + q.unacked.length)
        ∧ (4 ≤ q.replays → exec (.sciAckTimeout p) s = .next (s1.sciRetrain p).settleBcasts.sciPump)))
    ∧ (∀ (tag : BitVec 16) (r : SciReq), s.hitch.ports[p].reqs.find? (fun r => r.tag == tag.toNat) = some r →
      exec (.sciRequestTimeout p tag) s =
        .next (({ s with time := max s.time r.due }.count (Cnt.sciCntTmo p)).completeReq p r.tag 3 r.dst []).settleBcasts.sciPump)
    ∧ (s.bit Reg.sciHitchStat 2 = true ∨ s.bit Reg.sciHitchStat 3 = true → exec (.sciTimeSend p) s = .next (s.sendTime p).settleBcasts.sciPump)
    ∧ (∀ v e, s.hitch.verdict = some v → s.epoch? v.frame = some e →
      exec .contribWaitExpiry s =
        .next ({ s with time := max s.time (v.since + 1000 * s.rd Reg.sciContribWait) }.commitMerged e v).settleBcasts.sciPump)
    ∧ (∀ b bs, s.hitch.bcasts = b :: bs → exec .hitchBroadcastTimeout s = .next ({ s with time := max s.time b.until_ }.bcastFinish b))
    ∧ (s.bit Reg.sciHitchStat 2 = false → s.bit Reg.sciHitchStat 3 = false →
      exec .wheelAwaitLog s = .next ({ s with time := max s.time ((s.time / 1000000000 + 1) * 1000000000) }.logEvent 0x50 pkgUnit 0 3))

/-- Events of the head ports, of the tiles and their scheduler, of the die stack and of memory complete, under conditions on the state and
the operands alone, with the effect that makes them what they are, and leave the parts of the machine named here as they were. -/
def Obligations.EventsComplete : Prop :=
  (∀ (s : State) (p : PortId), s.alive = true → s.gaitN ≠ 0 →
     let rest := fun (t : State) => t.tiles = s.tiles ∧ t.mem = s.mem ∧ t.frm = s.frm ∧ t.gait = s.gait ∧ t.hitch = s.hitch ∧ t.time = s.time;
     (s.bit (Reg.portCtrl p) 0 = true → s.bit (Reg.portState p) 0 = false →
       ∃ t, exec (.linkUp p) s = .next t ∧ t.bit (Reg.portState p) 0 = true ∧ t.ports[p].seqRef = none ∧ rest t)
     ∧ (∃ t, exec (.linkDown p) s = .next t ∧ t.bit (Reg.portState p) 0 = false ∧ rest t)
     ∧ (∀ (b : Fin 2) (h : Fin 4), (∃ t, exec (.i3cHotJoin b h) s = .next t ∧ bitN t.i3c[b].hotJoin h = true ∧ t.i3c[b].addr[h].isSome = true
         ∧ t.regs = s.regs ∧ rest t)
       ∧ ∃ t, exec (.i3cInBandInterrupt b h) s = .next t ∧ bitN t.i3c[b].ibi h = true ∧ t.regs = s.regs ∧ rest t)
     ∧ (s.ports[p].litNow = true → ∃ t, exec (.litTimeTick p) s = .next t ∧ t.ports[p].litNow = false ∧ rest t
       ∧ (s.ports[p].litSec < 60 → s.fld (Reg.portLifeMin p) 23 0 < 0xFFFFFF →
         60 * t.fld (Reg.portLifeMin p) 23 0 + t.ports[p].litSec = 60 * s.fld (Reg.portLifeMin p) 23 0 + s.ports[p].litSec + 1))
     ∧ (s.portOn p = true →
       (∃ t, exec (.syncTransmit p) s = .next t ∧ t.ports[p].sent = [(1, s.ports[p].syncSeq, s.time), (0, s.ports[p].syncSeq, s.time)] ++ s.ports[p].sent
         ∧ t.ports[p].syncSeq = (s.ports[p].syncSeq + 1) % 65536 ∧ t.regs = s.regs ∧ rest t)
       ∧ ∃ t, exec (.pdelayReqTransmit p) s = .next t ∧ t.ports[p].sent = [(2, s.ports[p].pdelaySeq, s.time)] ++ s.ports[p].sent
         ∧ t.ports[p].pdelaySeq = (s.ports[p].pdelaySeq + 1) % 65536 ∧ t.regs = s.regs ∧ rest t)
     ∧ (∀ (m : Nat) (nack : Bool) (v : BitVec 24), s.ports[p].lifePend = some m →
       ∃ t, exec (.lifeWriteComplete p nack v) s = .next t ∧ t.ports[p].lifePend = none ∧ rest t
         ∧ t.rd (Cnt.portCntLifewr p).reg = min 0xFFFFFFFF (s.rd (Cnt.portCntLifewr p).reg + b2n (nack || v.toNat != m)))
     ∧ ∀ f : List Byte, let pl := f.drop 14
       let n := srpCount pl
       let d := seqDelta s.ports[p].seqRef (leAt pl 0x18 4)
       s.portOn p = true → 50 ≤ f.length → f.length ≤ 1518 → beNat ((f.drop 12).take 2) = bitsN (s.force Reg.portEtype) 15 0 →
       bitsN (s.force Reg.portEtype) 15 0 ≠ 0x8100 → leAt pl 0 2 = 0x5253 → leAt pl 2 1 = 1 → n ≤ 180 → 36 + 8 * n ≤ pl.length →
       crc32c (pl.take (32 + 8 * n)) = leAt pl (32 + 8 * n) 4 → s.headOf p = 2 → leAt pl 8 8 = s.rd64 (Reg.portHeadSerial p) →
       bitN (leAt pl 0x1C 2) 3 = false → d ≠ 0 → d < 2 ^ 31 →
       ∃ t, exec (.ethFrameReceive p true f) s = .next t ∧ t.ports[p].seqRef = some (leAt pl 0x18 4) ∧ t.bit (Reg.portState p) 6 = false
         ∧ t.tiles = s.tiles ∧ t.gait = s.gait ∧ t.time = s.time)
  ∧ (∀ (s : State) (t : TileId), s.alive = true →
       (2 ≤ s.gaitN → s.gait.trans = .none →
         let s0 := s.frm.live.foldl (fun (s : State) e => s.loseUnreadable e.frame) s;
         (∀ e p i k d s1, s0.nextTagged = some (e, p, i, k, d) → s0.wakeTile k = (true, s1) →
           ∃ s', exec .itemDispatch s = .next s' ∧ ∃ w ∈ s'.tiles[k].items, w.frame = some e.frame ∧ w.idx = i)
         ∧ ∀ kick b i k d p s1, s0.nextTagged = none → s0.nextUntagged = some (kick, b, i, k, d, p) → s0.wakeTile k = (true, s1) →
           ∃ s', exec .itemDispatch s = .next s' ∧ ∃ w ∈ s'.tiles[k].items, w.frame = none ∧ w.idx = i)
       ∧ (∀ w, s.tiles[t].ended.find? (fun w => !(s.tiles[t].openU.any (fun u => u.work == some w))) = some w →
         ∃ s', exec (.itemComplete t) s = .next s' ∧ s'.tiles[t].ended = s.tiles[t].ended.erase w ∧ s'.mem = s.mem
           ∧ ∀ u : TileId, u ≠ t → s'.tiles[u] = s.tiles[u])
       ∧ (s.tiles[t].waking = true → ∃ s', exec (.tileWakeComplete t) s = .next s' ∧ s'.tiles[t].waking = false ∧ s'.tiles[t].clocked = true
         ∧ s'.gaitN = (if s.gaitN = 2 then 3 else s.gaitN) ∧ s'.mem = s.mem ∧ ∀ u : TileId, u ≠ t → s'.tiles[u] = s.tiles[u])
       ∧ (s.tiles[t].clocked = true → s.tiles[t].isIdle = true → s.tiles[t].ended = [] → s.inHandler t = false → s.tiles[t].exc = none →
         ∃ s', exec (.tileClockGate t) s = .next s' ∧ s'.tiles[t].clocked = false ∧ s'.mem = s.mem
           ∧ ∀ u : TileId, u ≠ t → s'.tiles[u] = s.tiles[u])
       ∧ (s.tiles[t].clocked = true → s.tiles[t].hasWork = true → s.tileState t ≠ 4 →
         ∃ s', exec (.tileWatchdogExpiry t) s = .next s' ∧ s'.tileState t = 4 ∧ s'.tiles[t].running = none)
       ∧ (s.tileState t ≠ 4 → ∃ s', exec (.sramUncorrectableError (.tile t)) s = .next s' ∧ s'.tileState t = 4 ∧ s'.tiles[t].running = none)
       ∧ (s.tiles[t].selfTest = true → ∀ ok, ∃ s', exec (.tileSelfTestEnd t ok) s = .next s' ∧ s'.tiles[t].selfTest = false
         ∧ s'.tileState t = (if ok then 1 else s.tileState t) ∧ s'.mem = s.mem)
       ∧ (s.tiles[t].inFlight = false → ∃ s', exec (.tlbInvPendClear t) s = .next s' ∧ s'.bit (Reg.tileTlbStat t) 0 = false
         ∧ RegsKept s s' [Reg.tileTlbStat t] ∧ s' = { s with regs := s'.regs })
       ∧ (∀ b : Bool, let k : Fin 2 := if b then 1 else 0
         s.sched.checking[k] = true → ∃ s', exec (.programCheckEnd b) s = .next s' ∧ s'.sched.checking[k] = false
           ∧ s'.bit Reg.tileSchedStat 5 = s.sched.checking[1 - k]
           ∧ (s'.fld Reg.tileSchedStat 10 8 ≠ 0 → s'.bit Reg.tileSchedStat (2 + k.val) = false))
       ∧ (∀ (k : Fin 16) (h : Fin 64), (s.shardAt k h).switching = true → (∀ u : TileId, s.tiles[u].asksHome k (s.shardAt k h).old = false) →
         ∃ s', exec (.shardSwitchApplied k h) s = .next s' ∧ (s'.shardAt k h).switching = false ∧ s'.bit (Reg.hrdShdState k h) 1 = true
           ∧ s'.tiles = s.tiles ∧ s'.mem = s.mem ∧ s'.frm = s.frm)
       ∧ ∃ s', exec .shardLoadWindow s = .next s' ∧ s'.rd Reg.hrdWinNum = (s.rd Reg.hrdWinNum + 1) % 2 ^ 32 ∧ s'.tiles = s.tiles ∧ s'.mem = s.mem
         ∧ s'.time = max s.time ((s.rd Reg.hrdWinNum + 1) * 1000000000)
         ∧ ∀ (k : Fin 16) (h : Fin 64), s'.rd (Reg.hrdShdLoad k h) = s.fld (Reg.hrdShdLoad k h) 31 16)
  ∧ (∀ (s : State) (d : DieId), s.alive = true →
       (∀ (p : Fin 8) (t : TileId) (de ce : Bool), s.bit (Reg.tileDieStat d) 0 = true → s.bit (Reg.tileBondPstat d p) 0 = true →
         de = true ∨ ce = true → t.val / 16 = d.val →
         let s1 := s.count (Cnt.tileBondCntPar d p)
         let s2 := { s1 with stack := { s1.stack with winErrs := (d.val, p.val, t.val) :: s1.stack.winErrs } };
         (s2.bondFind t p none = none → exec (.bondFlitReceive d p t de ce none) s = .next s2)
         ∧ ∀ q, s2.bondFind t p none = some (.load q) → ce = true → ∃ s', exec (.bondFlitReceive d p t de ce none) s = .next s'
           ∧ s' = { s2 with tiles := s'.tiles } ∧ (∀ u : TileId, u ≠ t → s'.tiles[u] = s.tiles[u])
           ∧ s'.tiles[t] = { s.tiles[t] with loads := s.tiles[t].loads.map (fun x => if x = q then { x with lost := some s.time } else x) })
       ∧ (∀ (t : TileId) (q : LoadReq) (at0 : Nat), t.val / 16 = d.val → s.tiles[t].lostAccess none = some (.load q, at0) → q.vec = none →
         (∀ x : TileId, x < t → x.val / 16 = d.val → s.tiles[x].lostAccess none = none) →
         ∃ s', exec (.bondTimeout d none) s = .next s' ∧ s'.time = max s.time (at0 + 2000)
           ∧ s'.rd (Cnt.tileBondCntTmo d).reg = min 0xFFFFFFFF (s.rd (Cnt.tileBondCntTmo d).reg + 1)
           ∧ s'.tiles[t] = { s.tiles[t] with loads := s.tiles[t].loads.erase q }.setG q.dst
             (BitVec.ofNat 64 (leNat (mergeFwd (List.replicate q.len 0) q.fwd)))
           ∧ ∀ u : TileId, u ≠ t → s'.tiles[u] = s.tiles[u])
       ∧ (s.stack.winErrs = [] → exec .bondErrorWindow s = .next { s with
           time := max s.time ((s.stack.windows + 1) * 1000000000), stack := { s.stack with windows := s.stack.windows + 1 } })
       ∧ (∀ (fail : BitVec 16) (gs : List (BitVec 7)), s.stack.testing ≠ 0 → ∃ s', exec (.bondTestDone fail gs) s = .next s'
         ∧ s'.stack.testing = 0 ∧ s'.bit Reg.tileBondTest 2 = false ∧ s'.bit Reg.tileBondTest 3 = true ∧ s'.tiles = s.tiles ∧ s'.mem = s.mem)
       ∧ (s.gait.trans = .walkToTrot → s.stack.bring[d] = 0 →
         (∀ m : BitVec 8, (∃ p : Fin 8, bitN m.toNat p = true ∧ s.bit (Reg.tileBondPstat d p) 2 = false ∧ s.bit (Reg.tileBondPstat d p) 3 = false) →
           ∃ s', exec (.computeDieBringUp d m) s = .next s' ∧ s'.bit (Reg.tileDieStat d) 0 = true ∧ s'.stack.bring[d] = 1 ∧ s'.mem = s.mem)
         ∧ ∀ c : BitVec 5, c ≠ 0 → ∃ s', exec (.dieAbsent d c) s = .next s' ∧ s'.bit (Reg.tileDieStat d) 0 = false
           ∧ s'.bit (Reg.tileDieStat d) 1 = true ∧ s'.stack.bring[d] = 2 ∧ s'.mem = s.mem))
  ∧ (∀ (s : State),
       let held := fun (i : Instr) (n : Nat) => ∃ t, exec i s = .next t ∧ t.stack.jtagIr = n ∧ t = { s with stack := t.stack, freeCtr := t.freeCtr };
       held .jtagBypass 0 ∧ held .jtagIdcode 1 ∧ held .jtagSamplePreload 2
         ∧ (s.gait.testmodeN = false → held .jtagExtest 3 ∧ held .jtagIntest 4)
         ∧ ∀ v : BitVec 2, held (.stackSel v) 5 ∧ ∃ t, exec (.stackSel v) s = .next t
           ∧ ∀ d < 2, bitN t.stack.sel.toNat d = (bitN v.toNat d && s.bit (Reg.tileDieStat d) 0))
  ∧ ∀ (s : State), s.alive = true → s.gaitN ≠ 0 →
       (∃ t, exec .patrolScrub s = .next t ∧ t.ddr.scrub = (s.ddr.scrub + 1) % 2 ^ 20 ∧ t.tiles = s.tiles ∧ t.time = s.time
         ∧ t.mem.cells = s.mem.cells)
       ∧ (∀ (k : Fin 2) (r : BitVec 8), (∃ t, exec (.refreshRateRead k r) s = .next t ∧ t.ddr.rate[k] = r.toNat ∧ t = { s with ddr := t.ddr })
         ∧ (4 < r.toNat → ∃ t, exec (.dqsOscillatorCheck k r) s = .next t ∧ t.ddr.retrains[k] = s.ddr.retrains[k] + 1 ∧ t = { s with ddr := t.ddr }))
       ∧ ∀ (a : Nat) (d : List Byte), s.pcie.endpoint = true → s.pcie.ready = true → a + d.length ≤ 0x8000000 → s.memRange a d.length = true →
         ∃ t, exec (.pcieInboundRequest 2 true a 0 d) s = .next t ∧ t.mem = (s.memWrite a d).mem ∧ t.pcie.lastCpl = (0, [], [])
           ∧ t.tiles = s.tiles ∧ t.time = s.time

/-- What arrives over the hitch at a port in ACTIVE, or NEGOTIATE for a record, completes, with nothing else waiting to be sent or
answered: the effect of the message, record or timeout, spelled out, and then what is due sent. -/
def Obligations.HitchCompletes : Prop :=
  (∀ (s : State) (p : Fin 2) (h : SciHdr) (data : List Byte), SciActive s p → h.dst.toNat = s.ownPkg → s.hitch.bcasts = [] →
     let a := h.operand.toNat % 2 ^ 42
     let n := 2 ^ h.size.toNat
     let k := h.operand.toNat % 16;
     (3 ≤ h.size.toNat → h.size.toNat ≤ 8 → s.memRange a n = true → s.mem.bad = [] → s.mem.soft = [] →
       exec (.rd p h) s = .next (s.replyTo ⟨0x00, h, []⟩ 0 (s.mem.bytes a n)).sciPump
       ∧ (n ≤ data.length → h.status ≠ 1 → h.ackReq = true →
         exec (.wr p h data) s = .next ((s.memWrite a (data.take n)).replyTo ⟨0x01, h, data⟩ 0 []).sciPump))
     ∧ (∀ r, s.hitch.ports[p].reqs.find? (fun r => r.tag == h.tag.toNat && r.dst == h.src.toNat) = some r →
       let s1 := s.modSci p (fun q => { q with reqs := q.reqs.erase r });
       (r.op = 0x00 → exec (.rdr p h data) s = .next (s1.readDone h.tag.toNat h.status.toNat data).settleBcasts.sciPump)
       ∧ (r.op = 0x01 → h.status = 0 → exec (.wra p h) s = .next (s1.writeDone h.tag.toNat 0).settleBcasts.sciPump)
       ∧ (r.op = 0x40 → h.status = 0 → exec (.crr p h data) s = .next (s1.bcastAnswer h.tag.toNat h.src.toNat (some (leAt data 0 8))).sciPump)
       ∧ (r.op = 0x41 → h.status = 0 → exec (.cwa p h) s = .next (s1.bcastAnswer h.tag.toNat h.src.toNat (some (leAt [] 0 8))).sciPump))
     ∧ (exec (.ownPush p h data) s = .next (s.ownPush ⟨0x20, h, data⟩).settleBcasts.sciPump
       ∧ exec (.ownDone p h) s = .next (s.ownDone ⟨0x21, h, []⟩).settleBcasts.sciPump
       ∧ exec (.ownVer p h) s = .next (s.putF (Reg.hrdTblVer k) 15 0 (s.fld (Reg.hrdTblVer k) 15 0 + 1)).sciPump
       ∧ exec (.msi p h data) s = .next { s with hitch := { s.hitch with msis := s.hitch.msis ++ [(h.operand.toNat, leAt data 0 8)] } }.sciPump)
     ∧ (s.bit Reg.sciHitchStat 2 = true → s.frameNum ≤ h.operand.toNat % 2 ^ 32 → s.hitch.verdict = none → ∃ cs,
       exec (.contrib p h data) s = .next { s with hitch := { s.hitch with contribs := cs } }.sciPump
         ∧ cs.getLast? = some ⟨h.src.toNat, h.operand.toNat % 2 ^ 32, leAt data 0 6, leAt data 6 3, leAt data 9 1⟩)
     ∧ ∀ off : Nat, off < 2 ^ 28 → isMirror off = false → a = 0xE0000000 + off → s.area a = .control → h.size = 3 → selOf off 8 ≠ .reserved →
       selWords (selOf off 8) 8 ≠ [] →
       (s.accCheck 9 true (selOf off 8) 8 = none →
         exec (.cwr p h data) s = .next ((s.regWrite 9 (selWords (selOf off 8) 8) (leAt data 0 8)).replyTo ⟨0x41, h, data⟩ 0 []).settleBcasts.sciPump)
       ∧ (s.accCheck 9 false (selOf off 8) 8 = none →
         let x := s.regRead 9 (selWords (selOf off 8) 8) (!(bitN h.operand.toNat 63)) false
         exec (.crd p h) s = .next (x.2.replyTo ⟨0x40, h, []⟩ 0 (toLe x.1 8)).settleBcasts.sciPump))
  ∧ (∀ (s : State) (p : Fin 2) (l : LinkRec), s.sciOn = true → s.sciSt p = 6 → s.hitch.bcasts = [] →
       (s.bit Reg.sciHitchStat 2 = false → s.hitch.up = none →
         exec (.cap p l) s = .next (s.modSci p (fun q => { q with cap := some l })).sciPump
         ∧ (l.serial = s.install.serial → exec (.assign p l) s = .next (s.takeAssign p l).settleBcasts.sciPump))
       ∧ (s.bit Reg.sciHitchStat 2 = true → exec (.accept p l) s = .next (s.leadAccept p l).settleBcasts.sciPump)
       ∧ exec (.refuse p l) s = .next (s.setSciSt p 9).sciPump)
  ∧ (∀ (s : State) (p : Fin 2) (l : LinkRec) (d : Nat), s.sciOn = true → s.sciSt p = 7 → s.hitch.bcasts = [] → s.hitch.outbox = [] →
       s.hitch.up = some p → s.bit Reg.sciHitchStat 2 = false →
       (∃ t, exec (.time p l d) s = .next t ∧ t.time = max s.time (l.leadTime.toNat + d) ∧ t.tiles = s.tiles ∧ t.mem = s.mem
         ∧ (l.nextBoundary ≠ 0 → t.frm.nextB = l.nextBoundary.toNat))
       ∧ (l.number.toNat % 4 = s.ownPkg → exec (.detach p l) s = .next (s.recDetach p l).sciPump))
  ∧ ∀ (s : State) (p : Fin 2), s.sciOn = true → s.hitch.bcasts = [] →
       (∀ lanes : BitVec 4, lanes ≠ 0 → s.sciSt p = 1 →
         exec (.sciTrainingSet p (.laneDetected lanes)) s = .next ((s.modSci p (fun q => { q with lanes := lanes.toNat })).setSciSt p 2).sciPump)
       ∧ (s.sciSt p = 5 → exec (.sciStateTimeout p) s = .next ({ s with time := max s.time (s.hitch.ports[p].entered + 100000) }.setSciSt p 1).sciPump)
       ∧ (∀ f : List Byte, s.sciSt p = 7 → f.length = 256 → leAt f 0xFC 4 ≠ crc32c (f.take 0xFC) → exec (.sciFlitReceive p f) s =
         .next ((s.count (Cnt.sciCntCrc p)).modSci p (fun q => { q with discarding := true, nakDue := true })).sciPump)
       ∧ (s.sciSt p = 7 → s.hitch.ports[p].unacked ≠ [] → s.hitch.ports[p].replays < 4 →
         exec (.sciAckTimeout p) s = .next ({ s with time := max s.time (s.hitch.ports[p].since + 2000) }.replay p).settleBcasts.sciPump)
       ∧ (s.bit Reg.sciHitchStat 2 = true → s.sciSt p = 7 → s.hitch.up ≠ some p → exec (.sciTimeSend p) s = .next (s.sendRec p 5 { s.ownRec with
           leadTime := BitVec.ofNat 64 s.time, nextBoundary := BitVec.ofNat 64 (if s.bit Reg.gaitStat 6 then s.frm.nextB else 0) }).sciPump)
       ∧ (∀ (tag : BitVec 16) (r : SciReq), s.hitch.ports[p].reqs.find? (fun r => r.tag == tag.toNat) = some r →
         let s1 := ({ s with time := max s.time r.due }.count (Cnt.sciCntTmo p)).modSci p (fun q => { q with reqs := q.reqs.erase r });
         (r.op = 0x00 → exec (.sciRequestTimeout p tag) s = .next (s1.readDone r.tag 3 []).settleBcasts.sciPump)
         ∧ (r.op = 0x01 → exec (.sciRequestTimeout p tag) s = .next ((s1.count (Cnt.sciCntLost p)).writeDone r.tag 3).settleBcasts.sciPump))
  ∧ ∀ (s : State), s.sciOn = true →
       (∀ v e, s.hitch.verdict = some v → s.epoch? v.frame = some e → exec .contribWaitExpiry s =
         .next ({ s with time := max s.time (v.since + 1000 * s.rd Reg.sciContribWait) }.commitMerged e v).settleBcasts.sciPump)
       ∧ (∀ b bs, s.hitch.bcasts = b :: bs → ∃ t, exec .hitchBroadcastTimeout s = .next t ∧ t.hitch.bcasts = bs ∧ t.time = max s.time b.until_
         ∧ t.tiles = s.tiles ∧ t.mem = s.mem)
       ∧ (s.bit Reg.sciHitchStat 2 = false → s.bit Reg.sciHitchStat 3 = false → ∃ t, exec .wheelAwaitLog s = .next t
         ∧ t.time = max s.time ((s.time / 1000000000 + 1) * 1000000000) ∧ t = { s with time := t.time, regs := t.regs, log := t.log })
end

