-- ==== Sys2Proof/Laws/Bits.lean ====
section
/-! SUPPORT. Laws of bit fields and of little-endian bytes: a field read after it was written, the fields a write leaves alone, and the
number that bytes made from a number spell. -/

namespace Sys2Proof

theorem bitN_eq (n i : Nat) : bitN n i = n.testBit i := by
  rw [Nat.testBit_eq_decide_div_mod_eq, bitN, Nat.shiftRight_eq_div_pow]
  rfl

/-- A field's bits are the word's own. -/
theorem bitN_bitsN (n hi lo i : Nat) : bitN (bitsN n hi lo) i = (decide (i < hi + 1 - lo) && bitN n (lo + i)) := by
  simp [bitN_eq, bitsN, Nat.testBit_mod_two_pow, Nat.testBit_shiftRight]

theorem bitsN_lt (n hi lo : Nat) : bitsN n hi lo < 2 ^ (hi + 1 - lo) := Nat.mod_lt _ (Nat.two_pow_pos _)

/-- A word written as the bits above a field, the field, and those below it. -/
theorem putBits_parts {n hi lo v : Nat} (h : lo ≤ hi + 1) :
    putBits n hi lo v = 2 ^ (hi + 1) * (n / 2 ^ (hi + 1)) + (2 ^ lo * (v % 2 ^ (hi + 1 - lo)) + n % 2 ^ lo) := by
  have e : 2 ^ (hi + 1) = 2 ^ lo * 2 ^ (hi + 1 - lo) := by rw [← Nat.pow_add]; congr 1; omega
  have h1 : n / 2 ^ (hi + 1) = n / 2 ^ lo / 2 ^ (hi + 1 - lo) := by rw [e, Nat.div_div_eq_div_mul]
  have h2 := Nat.div_add_mod n (2 ^ lo)
  have h3 := Nat.div_add_mod (n / 2 ^ lo) (2 ^ (hi + 1 - lo))
  unfold putBits
  simp only [Nat.shiftRight_eq_div_pow]
  rw [h1, e]
  generalize n / 2 ^ lo / 2 ^ (hi + 1 - lo) = A at *
  generalize n / 2 ^ lo % 2 ^ (hi + 1 - lo) = F at *
  rw [← h3] at h2
  generalize 2 ^ (hi + 1 - lo) = M at *
  generalize 2 ^ lo = L at *
  have : n - F * L = L * (M * A) + n % L := by
    have : n = L * (M * A) + F * L + n % L := by rw [← h2]; ring_nf; simp [Nat.add_mod, Nat.mul_mod, mul_comm]
    omega
  rw [this]; ring

theorem bitN_putBits {n hi lo v : Nat} (h : lo ≤ hi + 1) (i : Nat) :
    bitN (putBits n hi lo v) i = if lo ≤ i ∧ i ≤ hi then bitN v (i - lo) else bitN n i := by
  have e : 2 ^ (hi + 1) = 2 ^ lo * 2 ^ (hi + 1 - lo) := by rw [← Nat.pow_add]; congr 1; omega
  have hb : 2 ^ lo * (v % 2 ^ (hi + 1 - lo)) + n % 2 ^ lo < 2 ^ (hi + 1) := by
    have h1 := Nat.mod_lt v (Nat.two_pow_pos (hi + 1 - lo))
    have h2 := Nat.mod_lt n (Nat.two_pow_pos lo)
    calc _ < 2 ^ lo * (v % 2 ^ (hi + 1 - lo)) + 2 ^ lo := by omega
      _ = 2 ^ lo * (v % 2 ^ (hi + 1 - lo) + 1) := by ring
      _ ≤ 2 ^ lo * 2 ^ (hi + 1 - lo) := Nat.mul_le_mul_left _ h1
      _ = _ := e.symm
  simp only [bitN_eq]
  rw [putBits_parts h, Nat.testBit_two_pow_mul_add _ hb]
  split
  · rw [Nat.testBit_two_pow_mul_add _ (Nat.mod_lt _ (Nat.two_pow_pos _))]
    split
    · next h2 => simp [Nat.testBit_mod_two_pow, h2, Nat.not_le.2 h2]
    · next h1 h2 =>
      have : lo ≤ i ∧ i ≤ hi := ⟨by omega, by omega⟩
      have h3 : i - lo < hi + 1 - lo := by omega
      simp [Nat.testBit_mod_two_pow, this, h3]
  · next h1 =>
    have : ¬ (lo ≤ i ∧ i ≤ hi) := by omega
    rw [if_neg this, Nat.testBit_div_two_pow]
    congr 1
    omega

/-- A word is known by its bits. -/
theorem bits_ext {a b : Nat} (h : ∀ i, bitN a i = bitN b i) : a = b := Nat.eq_of_testBit_eq (fun i => by simpa [bitN_eq] using h i)

theorem bitN_of_lt {n k i : Nat} (h : n < 2 ^ k) (hi : k ≤ i) : bitN n i = false := by
  rw [bitN_eq]; exact Nat.testBit_lt_two_pow (lt_of_lt_of_le h (Nat.pow_le_pow_right (by decide) hi))

theorem bitN_mod (n k i : Nat) : bitN (n % 2 ^ k) i = (decide (i < k) && bitN n i) := by simp [bitN_eq, Nat.testBit_mod_two_pow]

/-- The field written reads as the value's low bits. -/
theorem bitsN_putBits_self {n hi lo v : Nat} (h : lo ≤ hi + 1) : bitsN (putBits n hi lo v) hi lo = v % 2 ^ (hi + 1 - lo) := by
  refine bits_ext fun i => ?_
  rw [bitN_bitsN, bitN_putBits h, bitN_mod]
  by_cases hi' : i < hi + 1 - lo
  · have : lo ≤ lo + i ∧ lo + i ≤ hi := ⟨by omega, by omega⟩
    simp [hi', this]
  · simp [hi']

/-- Any field apart from the one written reads as before. -/
theorem bitsN_putBits_ne {n hi lo v a b : Nat} (h : lo ≤ hi + 1) (hd : hi < b ∨ a < lo) : bitsN (putBits n hi lo v) a b = bitsN n a b := by
  refine bits_ext fun i => ?_
  rw [bitN_bitsN, bitN_bitsN, bitN_putBits h]
  by_cases hi' : i < a + 1 - b
  · have : ¬ (lo ≤ b + i ∧ b + i ≤ hi) := by omega
    simp only [this, if_false]
  · simp [hi']

/-- A word stays within a width that holds the field. -/
theorem putBits_lt {n hi lo v k : Nat} (h : lo ≤ hi + 1) (hn : n < 2 ^ k) (hk : hi < k) : putBits n hi lo v < 2 ^ k := by
  refine Nat.lt_pow_two_of_testBit _ fun i hi' => ?_
  have : ¬ (lo ≤ i ∧ i ≤ hi) := by omega
  rw [← bitN_eq, bitN_putBits h, if_neg this, bitN_of_lt hn hi']

@[simp] theorem bitN_b2n_zero (b : Bool) : bitN (b2n b) 0 = b := by cases b <;> rfl

theorem bitN_or (a b i : Nat) : bitN (a ||| b) i = (bitN a i || bitN b i) := by simp [bitN_eq]

theorem bitN_two_pow (k i : Nat) : bitN (2 ^ k) i = decide (k = i) := by rw [bitN_eq, Nat.testBit_two_pow]

/-! ### Little-endian bytes -/

@[simp] theorem toLe_length (n k : Nat) : (toLe n k).length = k := by
  induction k generalizing n with
  | zero => rfl
  | succ k ih => simp [toLe, ih]

/-- Bytes made from a number spell its low bytes. -/
theorem leNat_toLe (n k : Nat) : leNat (toLe n k) = n % 256 ^ k := by
  induction k generalizing n with
  | zero => simp [toLe, leNat, Nat.mod_one]
  | succ k ih =>
    have : (BitVec.ofNat 8 n).toNat = n % 256 := by simp
    rw [toLe, leNat, ih, this, Nat.pow_succ', Nat.mod_mul]

theorem leNat_lt (l : List Byte) : leNat l < 256 ^ l.length := by
  induction l with
  | nil => simp [leNat]
  | cons b r ih =>
    have := b.isLt
    simp only [leNat, List.length_cons, Nat.pow_succ']
    omega

end Sys2Proof
end

