-- ==== Sys2Proof/Laws/Sparse.lean ====
section
/-! SUPPORT. Laws of sparse maps: what a write makes its key and every other key read as, and that a write keeps the canonical form.
Device memory and the register file inherit them. -/

namespace Sys2Proof.Machine

variable {α : Type} {d : Nat → α}

theorem spGet_del_ne {m : List (Nat × α)} {j k : Nat} (h : j ≠ k) : spGet d (spDel k m) j = spGet d m j := by
  induction m with
  | nil => rfl
  | cons e r ih =>
    obtain ⟨i, w⟩ := e
    by_cases hi : i = k
    · subst hi; simp [spDel, spGet, ih, Ne.symm h]
    · simp [spDel, spGet, hi, ih]

theorem spGet_del_self (m : List (Nat × α)) (k : Nat) : spGet d (spDel k m) k = d k := by
  induction m with
  | nil => rfl
  | cons e r ih =>
    obtain ⟨i, w⟩ := e
    by_cases hi : i = k <;> simp [spDel, spGet, hi, ih]

theorem spGet_ins_ne {m : List (Nat × α)} {j k : Nat} {v : α} (h : j ≠ k) : spGet d (spIns k v m) j = spGet d m j := by
  induction m with
  | nil => simp [spIns, spGet, Ne.symm h]
  | cons e r ih =>
    obtain ⟨i, w⟩ := e
    by_cases hi : i < k
    · simp [spIns, spGet, hi, ih]
    · simp [spIns, spGet, hi, Ne.symm h]

theorem spGet_ins_self {m : List (Nat × α)} {k : Nat} {v : α} : spGet d (spIns k v (spDel k m)) k = v := by
  induction m with
  | nil => simp [spIns, spDel, spGet]
  | cons e r ih =>
    obtain ⟨i, w⟩ := e
    by_cases hi : i = k
    · simpa [spDel, hi] using ih
    · by_cases hl : i < k
      · simpa [spDel, hi, spIns, hl, spGet] using ih
      · simp [spDel, hi, spIns, hl, spGet]

variable [DecidableEq α]

/-- The key written reads as what was written. -/
@[simp] theorem spGet_set_self (m : List (Nat × α)) (k : Nat) (v : α) : spGet d (spSet d m k v) k = v := by
  unfold spSet
  split
  · next h => rw [spGet_del_self, h]
  · exact spGet_ins_self

/-- Every other key reads as before. -/
@[simp] theorem spGet_set_ne (m : List (Nat × α)) {j k : Nat} (v : α) (h : j ≠ k) : spGet d (spSet d m k v) j = spGet d m j := by
  unfold spSet
  split
  · exact spGet_del_ne h
  · rw [spGet_ins_ne h, spGet_del_ne h]

theorem spWfFrom_mono {m : List (Nat × α)} {a b : Nat} (h : a ≤ b) (hw : spWfFrom d b m = true) : spWfFrom d a m = true := by
  cases m with
  | nil => rfl
  | cons e r =>
    obtain ⟨i, w⟩ := e
    simp only [spWfFrom, Bool.and_eq_true, decide_eq_true_eq] at hw ⊢
    exact ⟨⟨le_trans h hw.1.1, hw.1.2⟩, hw.2⟩

theorem spWfFrom_del {m : List (Nat × α)} {a k : Nat} (hw : spWfFrom d a m = true) : spWfFrom d a (spDel k m) = true := by
  induction m generalizing a with
  | nil => rfl
  | cons e r ih =>
    obtain ⟨i, w⟩ := e
    simp only [spWfFrom, Bool.and_eq_true, decide_eq_true_eq] at hw
    by_cases hi : i = k
    · simpa [spDel, hi] using spWfFrom_mono (Nat.le_succ_of_le hw.1.1) (ih hw.2)
    · simp [spDel, hi, spWfFrom, hw.1.1, hw.1.2, ih hw.2]

theorem spWfFrom_ins {m : List (Nat × α)} {a k : Nat} {v : α} (hw : spWfFrom d a (spDel k m) = true) (ha : a ≤ k)
    (hv : v ≠ d k) : spWfFrom d a (spIns k v (spDel k m)) = true := by
  induction m generalizing a with
  | nil => simp [spDel, spIns, spWfFrom, ha, hv]
  | cons e r ih =>
    obtain ⟨i, w⟩ := e
    by_cases hi : i = k
    · simp only [spDel, hi, if_true] at hw ⊢
      exact ih hw ha
    · simp only [spDel, hi, if_false, spWfFrom, Bool.and_eq_true, decide_eq_true_eq] at hw
      by_cases hl : i < k
      · have h2 := ih hw.2 (Nat.succ_le_of_lt hl)
        simp [spDel, hi, spIns, hl, spWfFrom, hw.1.1, hw.1.2, h2]
      · have hk : k + 1 ≤ i := by omega
        simp [spDel, hi, spIns, hl, spWfFrom, ha, hv, hk, hw.1.2, hw.2]

/-- A write keeps the canonical form. -/
theorem spWf_set {m : List (Nat × α)} (k : Nat) (v : α) (hw : spWf d m = true) : spWf d (spSet d m k v) = true := by
  unfold spSet spWf at *
  split
  · exact spWfFrom_del hw
  · next h => exact spWfFrom_ins (spWfFrom_del hw) (Nat.zero_le _) h

/-- Entries of a canonical map that a filter keeps are canonical still. -/
theorem spWfFrom_filter {m : List (Nat × α)} {a : Nat} {p : Nat × α → Bool} {d' : Nat → α} (hd : ∀ e, p e = true → d' e.1 = d e.1)
    (hw : spWfFrom d a m = true) : spWfFrom d' a (m.filter p) = true := by
  induction m generalizing a with
  | nil => rfl
  | cons e r ih =>
    obtain ⟨i, w⟩ := e
    simp only [spWfFrom, Bool.and_eq_true, decide_eq_true_eq] at hw
    by_cases hp : p (i, w) = true
    · have := hd _ hp
      simp only at this
      simp [hp, spWfFrom, hw.1.1, this, hw.1.2, ih hw.2]
    · simp only [List.filter_cons, hp]
      exact spWfFrom_mono (Nat.le_succ_of_le hw.1.1) (ih hw.2)

/-! ### Device memory -/

/-- A byte written reads as written. -/
@[simp] theorem Mem.dflt_setByte (m : Mem) (a : Nat) (v : Byte) : (m.setByte a v).dflt = m.dflt := rfl

theorem Mem.wf_setByte {m : Mem} (a : Nat) (v : Byte) (h : m.wf = true) : (m.setByte a v).wf = true := spWf_set a v h

theorem Mem.wf_setBytes {m : Mem} (a : Nat) (l : List Byte) (h : m.wf = true) : (m.setBytes a l).wf = true := by
  induction l generalizing m a with
  | nil => exact h
  | cons b r ih => exact ih _ (Mem.wf_setByte a b h)

/-! ### The register file -/

/-- A register word written reads as written. -/
@[simp] theorem State.rd_put_self (s : State) (o v : Nat) : (s.put o v).rd o = v % 2 ^ 32 := by
  simp [State.rd, State.put, regN, regWord]

/-- Every other register word reads as before. -/
@[simp] theorem State.rd_put_ne (s : State) {o o' : Nat} (v : Nat) (h : o' ≠ o) : (s.put o v).rd o' = s.rd o' := by
  simp [State.rd, State.put, regN, regWord, h]

/-- A register write keeps the register file's canonical form. -/
theorem State.regs_put_wf {s : State} (o v : Nat) (h : spWf regReset s.regs = true) : spWf regReset (s.put o v).regs = true :=
  spWf_set o _ h

end Sys2Proof.Machine
end

