-- ==== Sys2Proof/Laws/State.lean ====
section
/-! SUPPORT. One lemma per field per basic update of the machine: what the update leaves alone reads as before. With these no later
proof unfolds a record update. The writes of a register are followed by what the written word reads as. -/

namespace Sys2Proof.Machine

/-- A count changes nothing but the register file. -/
theorem State.count_eq (s : State) (c : Ctr) (n : Nat) : s.count c n = { s with regs := (s.count c n).regs } := by
  unfold State.count
  split
  · rfl
  · dsimp only
    split <;> rfl


@[simp] theorem State.put_time (s : State) (o v : Nat) : (s.put o v).time = s.time := rfl
@[simp] theorem State.put_freeCtr (s : State) (o v : Nat) : (s.put o v).freeCtr = s.freeCtr := rfl
@[simp] theorem State.put_pending (s : State) (o v : Nat) : (s.put o v).pending = s.pending := rfl
@[simp] theorem State.put_written (s : State) (o v : Nat) : (s.put o v).written = s.written := rfl
@[simp] theorem State.put_inForce (s : State) (o v : Nat) : (s.put o v).inForce = s.inForce := rfl
@[simp] theorem State.put_forceWritten (s : State) (o v : Nat) : (s.put o v).forceWritten = s.forceWritten := rfl
@[simp] theorem State.put_rdata (s : State) (o v : Nat) : (s.put o v).rdata = s.rdata := rfl
@[simp] theorem State.put_install (s : State) (o v : Nat) : (s.put o v).install = s.install := rfl
@[simp] theorem State.put_mem (s : State) (o v : Nat) : (s.put o v).mem = s.mem := rfl
@[simp] theorem State.put_ddr (s : State) (o v : Nat) : (s.put o v).ddr = s.ddr := rfl
@[simp] theorem State.put_gait (s : State) (o v : Nat) : (s.put o v).gait = s.gait := rfl
@[simp] theorem State.put_frm (s : State) (o v : Nat) : (s.put o v).frm = s.frm := rfl
@[simp] theorem State.put_ports (s : State) (o v : Nat) : (s.put o v).ports = s.ports := rfl
@[simp] theorem State.put_i3c (s : State) (o v : Nat) : (s.put o v).i3c = s.i3c := rfl
@[simp] theorem State.put_ingest (s : State) (o v : Nat) : (s.put o v).ingest = s.ingest := rfl
@[simp] theorem State.put_drey (s : State) (o v : Nat) : (s.put o v).drey = s.drey := rfl
@[simp] theorem State.put_sched (s : State) (o v : Nat) : (s.put o v).sched = s.sched := rfl
@[simp] theorem State.put_copy (s : State) (o v : Nat) : (s.put o v).copy = s.copy := rfl
@[simp] theorem State.put_shards (s : State) (o v : Nat) : (s.put o v).shards = s.shards := rfl
@[simp] theorem State.put_pcie (s : State) (o v : Nat) : (s.put o v).pcie = s.pcie := rfl
@[simp] theorem State.put_hitch (s : State) (o v : Nat) : (s.put o v).hitch = s.hitch := rfl
@[simp] theorem State.put_stack (s : State) (o v : Nat) : (s.put o v).stack = s.stack := rfl
@[simp] theorem State.put_halter (s : State) (o v : Nat) : (s.put o v).halter = s.halter := rfl
@[simp] theorem State.put_log (s : State) (o v : Nat) : (s.put o v).log = s.log := rfl
@[simp] theorem State.put_walker (s : State) (o v : Nat) : (s.put o v).walker = s.walker := rfl
@[simp] theorem State.put_tiles (s : State) (o v : Nat) : (s.put o v).tiles = s.tiles := rfl

@[simp] theorem State.put64_time (s : State) (o v : Nat) : (s.put64 o v).time = s.time := rfl
@[simp] theorem State.put64_freeCtr (s : State) (o v : Nat) : (s.put64 o v).freeCtr = s.freeCtr := rfl
@[simp] theorem State.put64_pending (s : State) (o v : Nat) : (s.put64 o v).pending = s.pending := rfl
@[simp] theorem State.put64_written (s : State) (o v : Nat) : (s.put64 o v).written = s.written := rfl
@[simp] theorem State.put64_inForce (s : State) (o v : Nat) : (s.put64 o v).inForce = s.inForce := rfl
@[simp] theorem State.put64_forceWritten (s : State) (o v : Nat) : (s.put64 o v).forceWritten = s.forceWritten := rfl
@[simp] theorem State.put64_rdata (s : State) (o v : Nat) : (s.put64 o v).rdata = s.rdata := rfl
@[simp] theorem State.put64_install (s : State) (o v : Nat) : (s.put64 o v).install = s.install := rfl
@[simp] theorem State.put64_mem (s : State) (o v : Nat) : (s.put64 o v).mem = s.mem := rfl
@[simp] theorem State.put64_ddr (s : State) (o v : Nat) : (s.put64 o v).ddr = s.ddr := rfl
@[simp] theorem State.put64_gait (s : State) (o v : Nat) : (s.put64 o v).gait = s.gait := rfl
@[simp] theorem State.put64_frm (s : State) (o v : Nat) : (s.put64 o v).frm = s.frm := rfl
@[simp] theorem State.put64_ports (s : State) (o v : Nat) : (s.put64 o v).ports = s.ports := rfl
@[simp] theorem State.put64_i3c (s : State) (o v : Nat) : (s.put64 o v).i3c = s.i3c := rfl
@[simp] theorem State.put64_ingest (s : State) (o v : Nat) : (s.put64 o v).ingest = s.ingest := rfl
@[simp] theorem State.put64_drey (s : State) (o v : Nat) : (s.put64 o v).drey = s.drey := rfl
@[simp] theorem State.put64_sched (s : State) (o v : Nat) : (s.put64 o v).sched = s.sched := rfl
@[simp] theorem State.put64_copy (s : State) (o v : Nat) : (s.put64 o v).copy = s.copy := rfl
@[simp] theorem State.put64_shards (s : State) (o v : Nat) : (s.put64 o v).shards = s.shards := rfl
@[simp] theorem State.put64_pcie (s : State) (o v : Nat) : (s.put64 o v).pcie = s.pcie := rfl
@[simp] theorem State.put64_hitch (s : State) (o v : Nat) : (s.put64 o v).hitch = s.hitch := rfl
@[simp] theorem State.put64_stack (s : State) (o v : Nat) : (s.put64 o v).stack = s.stack := rfl
@[simp] theorem State.put64_halter (s : State) (o v : Nat) : (s.put64 o v).halter = s.halter := rfl
@[simp] theorem State.put64_log (s : State) (o v : Nat) : (s.put64 o v).log = s.log := rfl
@[simp] theorem State.put64_walker (s : State) (o v : Nat) : (s.put64 o v).walker = s.walker := rfl
@[simp] theorem State.put64_tiles (s : State) (o v : Nat) : (s.put64 o v).tiles = s.tiles := rfl

@[simp] theorem State.putF_time (s : State) (o hi lo v : Nat) : (s.putF o hi lo v).time = s.time := rfl
@[simp] theorem State.putF_freeCtr (s : State) (o hi lo v : Nat) : (s.putF o hi lo v).freeCtr = s.freeCtr := rfl
@[simp] theorem State.putF_pending (s : State) (o hi lo v : Nat) : (s.putF o hi lo v).pending = s.pending := rfl
@[simp] theorem State.putF_written (s : State) (o hi lo v : Nat) : (s.putF o hi lo v).written = s.written := rfl
@[simp] theorem State.putF_inForce (s : State) (o hi lo v : Nat) : (s.putF o hi lo v).inForce = s.inForce := rfl
@[simp] theorem State.putF_forceWritten (s : State) (o hi lo v : Nat) : (s.putF o hi lo v).forceWritten = s.forceWritten := rfl
@[simp] theorem State.putF_rdata (s : State) (o hi lo v : Nat) : (s.putF o hi lo v).rdata = s.rdata := rfl
@[simp] theorem State.putF_install (s : State) (o hi lo v : Nat) : (s.putF o hi lo v).install = s.install := rfl
@[simp] theorem State.putF_mem (s : State) (o hi lo v : Nat) : (s.putF o hi lo v).mem = s.mem := rfl
@[simp] theorem State.putF_ddr (s : State) (o hi lo v : Nat) : (s.putF o hi lo v).ddr = s.ddr := rfl
@[simp] theorem State.putF_gait (s : State) (o hi lo v : Nat) : (s.putF o hi lo v).gait = s.gait := rfl
@[simp] theorem State.putF_frm (s : State) (o hi lo v : Nat) : (s.putF o hi lo v).frm = s.frm := rfl
@[simp] theorem State.putF_ports (s : State) (o hi lo v : Nat) : (s.putF o hi lo v).ports = s.ports := rfl
@[simp] theorem State.putF_i3c (s : State) (o hi lo v : Nat) : (s.putF o hi lo v).i3c = s.i3c := rfl
@[simp] theorem State.putF_ingest (s : State) (o hi lo v : Nat) : (s.putF o hi lo v).ingest = s.ingest := rfl
@[simp] theorem State.putF_drey (s : State) (o hi lo v : Nat) : (s.putF o hi lo v).drey = s.drey := rfl
@[simp] theorem State.putF_sched (s : State) (o hi lo v : Nat) : (s.putF o hi lo v).sched = s.sched := rfl
@[simp] theorem State.putF_copy (s : State) (o hi lo v : Nat) : (s.putF o hi lo v).copy = s.copy := rfl
@[simp] theorem State.putF_shards (s : State) (o hi lo v : Nat) : (s.putF o hi lo v).shards = s.shards := rfl
@[simp] theorem State.putF_pcie (s : State) (o hi lo v : Nat) : (s.putF o hi lo v).pcie = s.pcie := rfl
@[simp] theorem State.putF_hitch (s : State) (o hi lo v : Nat) : (s.putF o hi lo v).hitch = s.hitch := rfl
@[simp] theorem State.putF_stack (s : State) (o hi lo v : Nat) : (s.putF o hi lo v).stack = s.stack := rfl
@[simp] theorem State.putF_halter (s : State) (o hi lo v : Nat) : (s.putF o hi lo v).halter = s.halter := rfl
@[simp] theorem State.putF_log (s : State) (o hi lo v : Nat) : (s.putF o hi lo v).log = s.log := rfl
@[simp] theorem State.putF_walker (s : State) (o hi lo v : Nat) : (s.putF o hi lo v).walker = s.walker := rfl
@[simp] theorem State.putF_tiles (s : State) (o hi lo v : Nat) : (s.putF o hi lo v).tiles = s.tiles := rfl

@[simp] theorem State.putB_time (s : State) (o i : Nat) (b : Bool) : (s.putB o i b).time = s.time := rfl
@[simp] theorem State.putB_freeCtr (s : State) (o i : Nat) (b : Bool) : (s.putB o i b).freeCtr = s.freeCtr := rfl
@[simp] theorem State.putB_pending (s : State) (o i : Nat) (b : Bool) : (s.putB o i b).pending = s.pending := rfl
@[simp] theorem State.putB_written (s : State) (o i : Nat) (b : Bool) : (s.putB o i b).written = s.written := rfl
@[simp] theorem State.putB_inForce (s : State) (o i : Nat) (b : Bool) : (s.putB o i b).inForce = s.inForce := rfl
@[simp] theorem State.putB_forceWritten (s : State) (o i : Nat) (b : Bool) : (s.putB o i b).forceWritten = s.forceWritten := rfl
@[simp] theorem State.putB_rdata (s : State) (o i : Nat) (b : Bool) : (s.putB o i b).rdata = s.rdata := rfl
@[simp] theorem State.putB_install (s : State) (o i : Nat) (b : Bool) : (s.putB o i b).install = s.install := rfl
@[simp] theorem State.putB_mem (s : State) (o i : Nat) (b : Bool) : (s.putB o i b).mem = s.mem := rfl
@[simp] theorem State.putB_ddr (s : State) (o i : Nat) (b : Bool) : (s.putB o i b).ddr = s.ddr := rfl
@[simp] theorem State.putB_gait (s : State) (o i : Nat) (b : Bool) : (s.putB o i b).gait = s.gait := rfl
@[simp] theorem State.putB_frm (s : State) (o i : Nat) (b : Bool) : (s.putB o i b).frm = s.frm := rfl
@[simp] theorem State.putB_ports (s : State) (o i : Nat) (b : Bool) : (s.putB o i b).ports = s.ports := rfl
@[simp] theorem State.putB_i3c (s : State) (o i : Nat) (b : Bool) : (s.putB o i b).i3c = s.i3c := rfl
@[simp] theorem State.putB_ingest (s : State) (o i : Nat) (b : Bool) : (s.putB o i b).ingest = s.ingest := rfl
@[simp] theorem State.putB_drey (s : State) (o i : Nat) (b : Bool) : (s.putB o i b).drey = s.drey := rfl
@[simp] theorem State.putB_sched (s : State) (o i : Nat) (b : Bool) : (s.putB o i b).sched = s.sched := rfl
@[simp] theorem State.putB_copy (s : State) (o i : Nat) (b : Bool) : (s.putB o i b).copy = s.copy := rfl
@[simp] theorem State.putB_shards (s : State) (o i : Nat) (b : Bool) : (s.putB o i b).shards = s.shards := rfl
@[simp] theorem State.putB_pcie (s : State) (o i : Nat) (b : Bool) : (s.putB o i b).pcie = s.pcie := rfl
@[simp] theorem State.putB_hitch (s : State) (o i : Nat) (b : Bool) : (s.putB o i b).hitch = s.hitch := rfl
@[simp] theorem State.putB_stack (s : State) (o i : Nat) (b : Bool) : (s.putB o i b).stack = s.stack := rfl
@[simp] theorem State.putB_halter (s : State) (o i : Nat) (b : Bool) : (s.putB o i b).halter = s.halter := rfl
@[simp] theorem State.putB_log (s : State) (o i : Nat) (b : Bool) : (s.putB o i b).log = s.log := rfl
@[simp] theorem State.putB_walker (s : State) (o i : Nat) (b : Bool) : (s.putB o i b).walker = s.walker := rfl
@[simp] theorem State.putB_tiles (s : State) (o i : Nat) (b : Bool) : (s.putB o i b).tiles = s.tiles := rfl

@[simp] theorem State.orReg_time (s : State) (o v : Nat) : (s.orReg o v).time = s.time := rfl
@[simp] theorem State.orReg_freeCtr (s : State) (o v : Nat) : (s.orReg o v).freeCtr = s.freeCtr := rfl
@[simp] theorem State.orReg_pending (s : State) (o v : Nat) : (s.orReg o v).pending = s.pending := rfl
@[simp] theorem State.orReg_written (s : State) (o v : Nat) : (s.orReg o v).written = s.written := rfl
@[simp] theorem State.orReg_inForce (s : State) (o v : Nat) : (s.orReg o v).inForce = s.inForce := rfl
@[simp] theorem State.orReg_forceWritten (s : State) (o v : Nat) : (s.orReg o v).forceWritten = s.forceWritten := rfl
@[simp] theorem State.orReg_rdata (s : State) (o v : Nat) : (s.orReg o v).rdata = s.rdata := rfl
@[simp] theorem State.orReg_install (s : State) (o v : Nat) : (s.orReg o v).install = s.install := rfl
@[simp] theorem State.orReg_mem (s : State) (o v : Nat) : (s.orReg o v).mem = s.mem := rfl
@[simp] theorem State.orReg_ddr (s : State) (o v : Nat) : (s.orReg o v).ddr = s.ddr := rfl
@[simp] theorem State.orReg_gait (s : State) (o v : Nat) : (s.orReg o v).gait = s.gait := rfl
@[simp] theorem State.orReg_frm (s : State) (o v : Nat) : (s.orReg o v).frm = s.frm := rfl
@[simp] theorem State.orReg_ports (s : State) (o v : Nat) : (s.orReg o v).ports = s.ports := rfl
@[simp] theorem State.orReg_i3c (s : State) (o v : Nat) : (s.orReg o v).i3c = s.i3c := rfl
@[simp] theorem State.orReg_ingest (s : State) (o v : Nat) : (s.orReg o v).ingest = s.ingest := rfl
@[simp] theorem State.orReg_drey (s : State) (o v : Nat) : (s.orReg o v).drey = s.drey := rfl
@[simp] theorem State.orReg_sched (s : State) (o v : Nat) : (s.orReg o v).sched = s.sched := rfl
@[simp] theorem State.orReg_copy (s : State) (o v : Nat) : (s.orReg o v).copy = s.copy := rfl
@[simp] theorem State.orReg_shards (s : State) (o v : Nat) : (s.orReg o v).shards = s.shards := rfl
@[simp] theorem State.orReg_pcie (s : State) (o v : Nat) : (s.orReg o v).pcie = s.pcie := rfl
@[simp] theorem State.orReg_hitch (s : State) (o v : Nat) : (s.orReg o v).hitch = s.hitch := rfl
@[simp] theorem State.orReg_stack (s : State) (o v : Nat) : (s.orReg o v).stack = s.stack := rfl
@[simp] theorem State.orReg_halter (s : State) (o v : Nat) : (s.orReg o v).halter = s.halter := rfl
@[simp] theorem State.orReg_log (s : State) (o v : Nat) : (s.orReg o v).log = s.log := rfl
@[simp] theorem State.orReg_walker (s : State) (o v : Nat) : (s.orReg o v).walker = s.walker := rfl
@[simp] theorem State.orReg_tiles (s : State) (o v : Nat) : (s.orReg o v).tiles = s.tiles := rfl

@[simp] theorem State.count64_time (s : State) (o n : Nat) : (s.count64 o n).time = s.time := rfl
@[simp] theorem State.count64_freeCtr (s : State) (o n : Nat) : (s.count64 o n).freeCtr = s.freeCtr := rfl
@[simp] theorem State.count64_pending (s : State) (o n : Nat) : (s.count64 o n).pending = s.pending := rfl
@[simp] theorem State.count64_written (s : State) (o n : Nat) : (s.count64 o n).written = s.written := rfl
@[simp] theorem State.count64_inForce (s : State) (o n : Nat) : (s.count64 o n).inForce = s.inForce := rfl
@[simp] theorem State.count64_forceWritten (s : State) (o n : Nat) : (s.count64 o n).forceWritten = s.forceWritten := rfl
@[simp] theorem State.count64_rdata (s : State) (o n : Nat) : (s.count64 o n).rdata = s.rdata := rfl
@[simp] theorem State.count64_install (s : State) (o n : Nat) : (s.count64 o n).install = s.install := rfl
@[simp] theorem State.count64_mem (s : State) (o n : Nat) : (s.count64 o n).mem = s.mem := rfl
@[simp] theorem State.count64_ddr (s : State) (o n : Nat) : (s.count64 o n).ddr = s.ddr := rfl
@[simp] theorem State.count64_gait (s : State) (o n : Nat) : (s.count64 o n).gait = s.gait := rfl
@[simp] theorem State.count64_frm (s : State) (o n : Nat) : (s.count64 o n).frm = s.frm := rfl
@[simp] theorem State.count64_ports (s : State) (o n : Nat) : (s.count64 o n).ports = s.ports := rfl
@[simp] theorem State.count64_i3c (s : State) (o n : Nat) : (s.count64 o n).i3c = s.i3c := rfl
@[simp] theorem State.count64_ingest (s : State) (o n : Nat) : (s.count64 o n).ingest = s.ingest := rfl
@[simp] theorem State.count64_drey (s : State) (o n : Nat) : (s.count64 o n).drey = s.drey := rfl
@[simp] theorem State.count64_sched (s : State) (o n : Nat) : (s.count64 o n).sched = s.sched := rfl
@[simp] theorem State.count64_copy (s : State) (o n : Nat) : (s.count64 o n).copy = s.copy := rfl
@[simp] theorem State.count64_shards (s : State) (o n : Nat) : (s.count64 o n).shards = s.shards := rfl
@[simp] theorem State.count64_pcie (s : State) (o n : Nat) : (s.count64 o n).pcie = s.pcie := rfl
@[simp] theorem State.count64_hitch (s : State) (o n : Nat) : (s.count64 o n).hitch = s.hitch := rfl
@[simp] theorem State.count64_stack (s : State) (o n : Nat) : (s.count64 o n).stack = s.stack := rfl
@[simp] theorem State.count64_halter (s : State) (o n : Nat) : (s.count64 o n).halter = s.halter := rfl
@[simp] theorem State.count64_log (s : State) (o n : Nat) : (s.count64 o n).log = s.log := rfl
@[simp] theorem State.count64_walker (s : State) (o n : Nat) : (s.count64 o n).walker = s.walker := rfl
@[simp] theorem State.count64_tiles (s : State) (o n : Nat) : (s.count64 o n).tiles = s.tiles := rfl

@[simp] theorem State.count_time (s : State) (c : Ctr) (n : Nat) : (s.count c n).time = s.time := by rw [State.count_eq]
@[simp] theorem State.count_freeCtr (s : State) (c : Ctr) (n : Nat) : (s.count c n).freeCtr = s.freeCtr := by rw [State.count_eq]
@[simp] theorem State.count_pending (s : State) (c : Ctr) (n : Nat) : (s.count c n).pending = s.pending := by rw [State.count_eq]
@[simp] theorem State.count_written (s : State) (c : Ctr) (n : Nat) : (s.count c n).written = s.written := by rw [State.count_eq]
@[simp] theorem State.count_inForce (s : State) (c : Ctr) (n : Nat) : (s.count c n).inForce = s.inForce := by rw [State.count_eq]
@[simp] theorem State.count_forceWritten (s : State) (c : Ctr) (n : Nat) : (s.count c n).forceWritten = s.forceWritten := by rw [State.count_eq]
@[simp] theorem State.count_rdata (s : State) (c : Ctr) (n : Nat) : (s.count c n).rdata = s.rdata := by rw [State.count_eq]
@[simp] theorem State.count_install (s : State) (c : Ctr) (n : Nat) : (s.count c n).install = s.install := by rw [State.count_eq]
@[simp] theorem State.count_mem (s : State) (c : Ctr) (n : Nat) : (s.count c n).mem = s.mem := by rw [State.count_eq]
@[simp] theorem State.count_ddr (s : State) (c : Ctr) (n : Nat) : (s.count c n).ddr = s.ddr := by rw [State.count_eq]
@[simp] theorem State.count_gait (s : State) (c : Ctr) (n : Nat) : (s.count c n).gait = s.gait := by rw [State.count_eq]
@[simp] theorem State.count_frm (s : State) (c : Ctr) (n : Nat) : (s.count c n).frm = s.frm := by rw [State.count_eq]
@[simp] theorem State.count_ports (s : State) (c : Ctr) (n : Nat) : (s.count c n).ports = s.ports := by rw [State.count_eq]
@[simp] theorem State.count_i3c (s : State) (c : Ctr) (n : Nat) : (s.count c n).i3c = s.i3c := by rw [State.count_eq]
@[simp] theorem State.count_ingest (s : State) (c : Ctr) (n : Nat) : (s.count c n).ingest = s.ingest := by rw [State.count_eq]
@[simp] theorem State.count_drey (s : State) (c : Ctr) (n : Nat) : (s.count c n).drey = s.drey := by rw [State.count_eq]
@[simp] theorem State.count_sched (s : State) (c : Ctr) (n : Nat) : (s.count c n).sched = s.sched := by rw [State.count_eq]
@[simp] theorem State.count_copy (s : State) (c : Ctr) (n : Nat) : (s.count c n).copy = s.copy := by rw [State.count_eq]
@[simp] theorem State.count_shards (s : State) (c : Ctr) (n : Nat) : (s.count c n).shards = s.shards := by rw [State.count_eq]
@[simp] theorem State.count_pcie (s : State) (c : Ctr) (n : Nat) : (s.count c n).pcie = s.pcie := by rw [State.count_eq]
@[simp] theorem State.count_hitch (s : State) (c : Ctr) (n : Nat) : (s.count c n).hitch = s.hitch := by rw [State.count_eq]
@[simp] theorem State.count_stack (s : State) (c : Ctr) (n : Nat) : (s.count c n).stack = s.stack := by rw [State.count_eq]
@[simp] theorem State.count_halter (s : State) (c : Ctr) (n : Nat) : (s.count c n).halter = s.halter := by rw [State.count_eq]
@[simp] theorem State.count_log (s : State) (c : Ctr) (n : Nat) : (s.count c n).log = s.log := by rw [State.count_eq]
@[simp] theorem State.count_walker (s : State) (c : Ctr) (n : Nat) : (s.count c n).walker = s.walker := by rw [State.count_eq]
@[simp] theorem State.count_tiles (s : State) (c : Ctr) (n : Nat) : (s.count c n).tiles = s.tiles := by rw [State.count_eq]

@[simp] theorem State.at_freeCtr (s : State) (t : Nat) : (s.at_ t).freeCtr = s.freeCtr := rfl
@[simp] theorem State.at_pending (s : State) (t : Nat) : (s.at_ t).pending = s.pending := rfl
@[simp] theorem State.at_regs (s : State) (t : Nat) : (s.at_ t).regs = s.regs := rfl
@[simp] theorem State.at_written (s : State) (t : Nat) : (s.at_ t).written = s.written := rfl
@[simp] theorem State.at_inForce (s : State) (t : Nat) : (s.at_ t).inForce = s.inForce := rfl
@[simp] theorem State.at_forceWritten (s : State) (t : Nat) : (s.at_ t).forceWritten = s.forceWritten := rfl
@[simp] theorem State.at_rdata (s : State) (t : Nat) : (s.at_ t).rdata = s.rdata := rfl
@[simp] theorem State.at_install (s : State) (t : Nat) : (s.at_ t).install = s.install := rfl
@[simp] theorem State.at_mem (s : State) (t : Nat) : (s.at_ t).mem = s.mem := rfl
@[simp] theorem State.at_ddr (s : State) (t : Nat) : (s.at_ t).ddr = s.ddr := rfl
@[simp] theorem State.at_gait (s : State) (t : Nat) : (s.at_ t).gait = s.gait := rfl
@[simp] theorem State.at_frm (s : State) (t : Nat) : (s.at_ t).frm = s.frm := rfl
@[simp] theorem State.at_ports (s : State) (t : Nat) : (s.at_ t).ports = s.ports := rfl
@[simp] theorem State.at_i3c (s : State) (t : Nat) : (s.at_ t).i3c = s.i3c := rfl
@[simp] theorem State.at_ingest (s : State) (t : Nat) : (s.at_ t).ingest = s.ingest := rfl
@[simp] theorem State.at_drey (s : State) (t : Nat) : (s.at_ t).drey = s.drey := rfl
@[simp] theorem State.at_sched (s : State) (t : Nat) : (s.at_ t).sched = s.sched := rfl
@[simp] theorem State.at_copy (s : State) (t : Nat) : (s.at_ t).copy = s.copy := rfl
@[simp] theorem State.at_shards (s : State) (t : Nat) : (s.at_ t).shards = s.shards := rfl
@[simp] theorem State.at_pcie (s : State) (t : Nat) : (s.at_ t).pcie = s.pcie := rfl
@[simp] theorem State.at_hitch (s : State) (t : Nat) : (s.at_ t).hitch = s.hitch := rfl
@[simp] theorem State.at_stack (s : State) (t : Nat) : (s.at_ t).stack = s.stack := rfl
@[simp] theorem State.at_halter (s : State) (t : Nat) : (s.at_ t).halter = s.halter := rfl
@[simp] theorem State.at_log (s : State) (t : Nat) : (s.at_ t).log = s.log := rfl
@[simp] theorem State.at_walker (s : State) (t : Nat) : (s.at_ t).walker = s.walker := rfl
@[simp] theorem State.at_tiles (s : State) (t : Nat) : (s.at_ t).tiles = s.tiles := rfl

@[simp] theorem State.give_time (s : State) (r : ReqId) (v : Nat) : (s.give r v).time = s.time := rfl
@[simp] theorem State.give_freeCtr (s : State) (r : ReqId) (v : Nat) : (s.give r v).freeCtr = s.freeCtr := rfl
@[simp] theorem State.give_pending (s : State) (r : ReqId) (v : Nat) : (s.give r v).pending = s.pending := rfl
@[simp] theorem State.give_regs (s : State) (r : ReqId) (v : Nat) : (s.give r v).regs = s.regs := rfl
@[simp] theorem State.give_written (s : State) (r : ReqId) (v : Nat) : (s.give r v).written = s.written := rfl
@[simp] theorem State.give_inForce (s : State) (r : ReqId) (v : Nat) : (s.give r v).inForce = s.inForce := rfl
@[simp] theorem State.give_forceWritten (s : State) (r : ReqId) (v : Nat) : (s.give r v).forceWritten = s.forceWritten := rfl
@[simp] theorem State.give_install (s : State) (r : ReqId) (v : Nat) : (s.give r v).install = s.install := rfl
@[simp] theorem State.give_mem (s : State) (r : ReqId) (v : Nat) : (s.give r v).mem = s.mem := rfl
@[simp] theorem State.give_ddr (s : State) (r : ReqId) (v : Nat) : (s.give r v).ddr = s.ddr := rfl
@[simp] theorem State.give_gait (s : State) (r : ReqId) (v : Nat) : (s.give r v).gait = s.gait := rfl
@[simp] theorem State.give_frm (s : State) (r : ReqId) (v : Nat) : (s.give r v).frm = s.frm := rfl
@[simp] theorem State.give_ports (s : State) (r : ReqId) (v : Nat) : (s.give r v).ports = s.ports := rfl
@[simp] theorem State.give_i3c (s : State) (r : ReqId) (v : Nat) : (s.give r v).i3c = s.i3c := rfl
@[simp] theorem State.give_ingest (s : State) (r : ReqId) (v : Nat) : (s.give r v).ingest = s.ingest := rfl
@[simp] theorem State.give_drey (s : State) (r : ReqId) (v : Nat) : (s.give r v).drey = s.drey := rfl
@[simp] theorem State.give_sched (s : State) (r : ReqId) (v : Nat) : (s.give r v).sched = s.sched := rfl
@[simp] theorem State.give_copy (s : State) (r : ReqId) (v : Nat) : (s.give r v).copy = s.copy := rfl
@[simp] theorem State.give_shards (s : State) (r : ReqId) (v : Nat) : (s.give r v).shards = s.shards := rfl
@[simp] theorem State.give_pcie (s : State) (r : ReqId) (v : Nat) : (s.give r v).pcie = s.pcie := rfl
@[simp] theorem State.give_hitch (s : State) (r : ReqId) (v : Nat) : (s.give r v).hitch = s.hitch := rfl
@[simp] theorem State.give_stack (s : State) (r : ReqId) (v : Nat) : (s.give r v).stack = s.stack := rfl
@[simp] theorem State.give_halter (s : State) (r : ReqId) (v : Nat) : (s.give r v).halter = s.halter := rfl
@[simp] theorem State.give_log (s : State) (r : ReqId) (v : Nat) : (s.give r v).log = s.log := rfl
@[simp] theorem State.give_walker (s : State) (r : ReqId) (v : Nat) : (s.give r v).walker = s.walker := rfl
@[simp] theorem State.give_tiles (s : State) (r : ReqId) (v : Nat) : (s.give r v).tiles = s.tiles := rfl

@[simp] theorem State.modTile_time (s : State) (t : TileId) (f : Tile → Tile) : (s.modTile t f).time = s.time := rfl
@[simp] theorem State.modTile_freeCtr (s : State) (t : TileId) (f : Tile → Tile) : (s.modTile t f).freeCtr = s.freeCtr := rfl
@[simp] theorem State.modTile_pending (s : State) (t : TileId) (f : Tile → Tile) : (s.modTile t f).pending = s.pending := rfl
@[simp] theorem State.modTile_regs (s : State) (t : TileId) (f : Tile → Tile) : (s.modTile t f).regs = s.regs := rfl
@[simp] theorem State.modTile_written (s : State) (t : TileId) (f : Tile → Tile) : (s.modTile t f).written = s.written := rfl
@[simp] theorem State.modTile_inForce (s : State) (t : TileId) (f : Tile → Tile) : (s.modTile t f).inForce = s.inForce := rfl
@[simp] theorem State.modTile_forceWritten (s : State) (t : TileId) (f : Tile → Tile) : (s.modTile t f).forceWritten = s.forceWritten := rfl
@[simp] theorem State.modTile_rdata (s : State) (t : TileId) (f : Tile → Tile) : (s.modTile t f).rdata = s.rdata := rfl
@[simp] theorem State.modTile_install (s : State) (t : TileId) (f : Tile → Tile) : (s.modTile t f).install = s.install := rfl
@[simp] theorem State.modTile_mem (s : State) (t : TileId) (f : Tile → Tile) : (s.modTile t f).mem = s.mem := rfl
@[simp] theorem State.modTile_ddr (s : State) (t : TileId) (f : Tile → Tile) : (s.modTile t f).ddr = s.ddr := rfl
@[simp] theorem State.modTile_gait (s : State) (t : TileId) (f : Tile → Tile) : (s.modTile t f).gait = s.gait := rfl
@[simp] theorem State.modTile_frm (s : State) (t : TileId) (f : Tile → Tile) : (s.modTile t f).frm = s.frm := rfl
@[simp] theorem State.modTile_ports (s : State) (t : TileId) (f : Tile → Tile) : (s.modTile t f).ports = s.ports := rfl
@[simp] theorem State.modTile_i3c (s : State) (t : TileId) (f : Tile → Tile) : (s.modTile t f).i3c = s.i3c := rfl
@[simp] theorem State.modTile_ingest (s : State) (t : TileId) (f : Tile → Tile) : (s.modTile t f).ingest = s.ingest := rfl
@[simp] theorem State.modTile_drey (s : State) (t : TileId) (f : Tile → Tile) : (s.modTile t f).drey = s.drey := rfl
@[simp] theorem State.modTile_sched (s : State) (t : TileId) (f : Tile → Tile) : (s.modTile t f).sched = s.sched := rfl
@[simp] theorem State.modTile_copy (s : State) (t : TileId) (f : Tile → Tile) : (s.modTile t f).copy = s.copy := rfl
@[simp] theorem State.modTile_shards (s : State) (t : TileId) (f : Tile → Tile) : (s.modTile t f).shards = s.shards := rfl
@[simp] theorem State.modTile_pcie (s : State) (t : TileId) (f : Tile → Tile) : (s.modTile t f).pcie = s.pcie := rfl
@[simp] theorem State.modTile_hitch (s : State) (t : TileId) (f : Tile → Tile) : (s.modTile t f).hitch = s.hitch := rfl
@[simp] theorem State.modTile_stack (s : State) (t : TileId) (f : Tile → Tile) : (s.modTile t f).stack = s.stack := rfl
@[simp] theorem State.modTile_halter (s : State) (t : TileId) (f : Tile → Tile) : (s.modTile t f).halter = s.halter := rfl
@[simp] theorem State.modTile_log (s : State) (t : TileId) (f : Tile → Tile) : (s.modTile t f).log = s.log := rfl
@[simp] theorem State.modTile_walker (s : State) (t : TileId) (f : Tile → Tile) : (s.modTile t f).walker = s.walker := rfl

@[simp] theorem State.modPort_time (s : State) (p : PortId) (f : PortSt → PortSt) : (s.modPort p f).time = s.time := rfl
@[simp] theorem State.modPort_freeCtr (s : State) (p : PortId) (f : PortSt → PortSt) : (s.modPort p f).freeCtr = s.freeCtr := rfl
@[simp] theorem State.modPort_pending (s : State) (p : PortId) (f : PortSt → PortSt) : (s.modPort p f).pending = s.pending := rfl
@[simp] theorem State.modPort_regs (s : State) (p : PortId) (f : PortSt → PortSt) : (s.modPort p f).regs = s.regs := rfl
@[simp] theorem State.modPort_written (s : State) (p : PortId) (f : PortSt → PortSt) : (s.modPort p f).written = s.written := rfl
@[simp] theorem State.modPort_inForce (s : State) (p : PortId) (f : PortSt → PortSt) : (s.modPort p f).inForce = s.inForce := rfl
@[simp] theorem State.modPort_forceWritten (s : State) (p : PortId) (f : PortSt → PortSt) : (s.modPort p f).forceWritten = s.forceWritten := rfl
@[simp] theorem State.modPort_rdata (s : State) (p : PortId) (f : PortSt → PortSt) : (s.modPort p f).rdata = s.rdata := rfl
@[simp] theorem State.modPort_install (s : State) (p : PortId) (f : PortSt → PortSt) : (s.modPort p f).install = s.install := rfl
@[simp] theorem State.modPort_mem (s : State) (p : PortId) (f : PortSt → PortSt) : (s.modPort p f).mem = s.mem := rfl
@[simp] theorem State.modPort_ddr (s : State) (p : PortId) (f : PortSt → PortSt) : (s.modPort p f).ddr = s.ddr := rfl
@[simp] theorem State.modPort_gait (s : State) (p : PortId) (f : PortSt → PortSt) : (s.modPort p f).gait = s.gait := rfl
@[simp] theorem State.modPort_frm (s : State) (p : PortId) (f : PortSt → PortSt) : (s.modPort p f).frm = s.frm := rfl
@[simp] theorem State.modPort_i3c (s : State) (p : PortId) (f : PortSt → PortSt) : (s.modPort p f).i3c = s.i3c := rfl
@[simp] theorem State.modPort_ingest (s : State) (p : PortId) (f : PortSt → PortSt) : (s.modPort p f).ingest = s.ingest := rfl
@[simp] theorem State.modPort_drey (s : State) (p : PortId) (f : PortSt → PortSt) : (s.modPort p f).drey = s.drey := rfl
@[simp] theorem State.modPort_sched (s : State) (p : PortId) (f : PortSt → PortSt) : (s.modPort p f).sched = s.sched := rfl
@[simp] theorem State.modPort_copy (s : State) (p : PortId) (f : PortSt → PortSt) : (s.modPort p f).copy = s.copy := rfl
@[simp] theorem State.modPort_shards (s : State) (p : PortId) (f : PortSt → PortSt) : (s.modPort p f).shards = s.shards := rfl
@[simp] theorem State.modPort_pcie (s : State) (p : PortId) (f : PortSt → PortSt) : (s.modPort p f).pcie = s.pcie := rfl
@[simp] theorem State.modPort_hitch (s : State) (p : PortId) (f : PortSt → PortSt) : (s.modPort p f).hitch = s.hitch := rfl
@[simp] theorem State.modPort_stack (s : State) (p : PortId) (f : PortSt → PortSt) : (s.modPort p f).stack = s.stack := rfl
@[simp] theorem State.modPort_halter (s : State) (p : PortId) (f : PortSt → PortSt) : (s.modPort p f).halter = s.halter := rfl
@[simp] theorem State.modPort_log (s : State) (p : PortId) (f : PortSt → PortSt) : (s.modPort p f).log = s.log := rfl
@[simp] theorem State.modPort_walker (s : State) (p : PortId) (f : PortSt → PortSt) : (s.modPort p f).walker = s.walker := rfl
@[simp] theorem State.modPort_tiles (s : State) (p : PortId) (f : PortSt → PortSt) : (s.modPort p f).tiles = s.tiles := rfl

@[simp] theorem State.modFrm_time (s : State) (f : FrameSt → FrameSt) : (s.modFrm f).time = s.time := rfl
@[simp] theorem State.modFrm_freeCtr (s : State) (f : FrameSt → FrameSt) : (s.modFrm f).freeCtr = s.freeCtr := rfl
@[simp] theorem State.modFrm_pending (s : State) (f : FrameSt → FrameSt) : (s.modFrm f).pending = s.pending := rfl
@[simp] theorem State.modFrm_regs (s : State) (f : FrameSt → FrameSt) : (s.modFrm f).regs = s.regs := rfl
@[simp] theorem State.modFrm_written (s : State) (f : FrameSt → FrameSt) : (s.modFrm f).written = s.written := rfl
@[simp] theorem State.modFrm_inForce (s : State) (f : FrameSt → FrameSt) : (s.modFrm f).inForce = s.inForce := rfl
@[simp] theorem State.modFrm_forceWritten (s : State) (f : FrameSt → FrameSt) : (s.modFrm f).forceWritten = s.forceWritten := rfl
@[simp] theorem State.modFrm_rdata (s : State) (f : FrameSt → FrameSt) : (s.modFrm f).rdata = s.rdata := rfl
@[simp] theorem State.modFrm_install (s : State) (f : FrameSt → FrameSt) : (s.modFrm f).install = s.install := rfl
@[simp] theorem State.modFrm_mem (s : State) (f : FrameSt → FrameSt) : (s.modFrm f).mem = s.mem := rfl
@[simp] theorem State.modFrm_ddr (s : State) (f : FrameSt → FrameSt) : (s.modFrm f).ddr = s.ddr := rfl
@[simp] theorem State.modFrm_gait (s : State) (f : FrameSt → FrameSt) : (s.modFrm f).gait = s.gait := rfl
@[simp] theorem State.modFrm_ports (s : State) (f : FrameSt → FrameSt) : (s.modFrm f).ports = s.ports := rfl
@[simp] theorem State.modFrm_i3c (s : State) (f : FrameSt → FrameSt) : (s.modFrm f).i3c = s.i3c := rfl
@[simp] theorem State.modFrm_ingest (s : State) (f : FrameSt → FrameSt) : (s.modFrm f).ingest = s.ingest := rfl
@[simp] theorem State.modFrm_drey (s : State) (f : FrameSt → FrameSt) : (s.modFrm f).drey = s.drey := rfl
@[simp] theorem State.modFrm_sched (s : State) (f : FrameSt → FrameSt) : (s.modFrm f).sched = s.sched := rfl
@[simp] theorem State.modFrm_copy (s : State) (f : FrameSt → FrameSt) : (s.modFrm f).copy = s.copy := rfl
@[simp] theorem State.modFrm_shards (s : State) (f : FrameSt → FrameSt) : (s.modFrm f).shards = s.shards := rfl
@[simp] theorem State.modFrm_pcie (s : State) (f : FrameSt → FrameSt) : (s.modFrm f).pcie = s.pcie := rfl
@[simp] theorem State.modFrm_hitch (s : State) (f : FrameSt → FrameSt) : (s.modFrm f).hitch = s.hitch := rfl
@[simp] theorem State.modFrm_stack (s : State) (f : FrameSt → FrameSt) : (s.modFrm f).stack = s.stack := rfl
@[simp] theorem State.modFrm_halter (s : State) (f : FrameSt → FrameSt) : (s.modFrm f).halter = s.halter := rfl
@[simp] theorem State.modFrm_log (s : State) (f : FrameSt → FrameSt) : (s.modFrm f).log = s.log := rfl
@[simp] theorem State.modFrm_walker (s : State) (f : FrameSt → FrameSt) : (s.modFrm f).walker = s.walker := rfl
@[simp] theorem State.modFrm_tiles (s : State) (f : FrameSt → FrameSt) : (s.modFrm f).tiles = s.tiles := rfl

@[simp] theorem State.modGait_time (s : State) (f : GaitSt → GaitSt) : (s.modGait f).time = s.time := rfl
@[simp] theorem State.modGait_freeCtr (s : State) (f : GaitSt → GaitSt) : (s.modGait f).freeCtr = s.freeCtr := rfl
@[simp] theorem State.modGait_pending (s : State) (f : GaitSt → GaitSt) : (s.modGait f).pending = s.pending := rfl
@[simp] theorem State.modGait_regs (s : State) (f : GaitSt → GaitSt) : (s.modGait f).regs = s.regs := rfl
@[simp] theorem State.modGait_written (s : State) (f : GaitSt → GaitSt) : (s.modGait f).written = s.written := rfl
@[simp] theorem State.modGait_inForce (s : State) (f : GaitSt → GaitSt) : (s.modGait f).inForce = s.inForce := rfl
@[simp] theorem State.modGait_forceWritten (s : State) (f : GaitSt → GaitSt) : (s.modGait f).forceWritten = s.forceWritten := rfl
@[simp] theorem State.modGait_rdata (s : State) (f : GaitSt → GaitSt) : (s.modGait f).rdata = s.rdata := rfl
@[simp] theorem State.modGait_install (s : State) (f : GaitSt → GaitSt) : (s.modGait f).install = s.install := rfl
@[simp] theorem State.modGait_mem (s : State) (f : GaitSt → GaitSt) : (s.modGait f).mem = s.mem := rfl
@[simp] theorem State.modGait_ddr (s : State) (f : GaitSt → GaitSt) : (s.modGait f).ddr = s.ddr := rfl
@[simp] theorem State.modGait_frm (s : State) (f : GaitSt → GaitSt) : (s.modGait f).frm = s.frm := rfl
@[simp] theorem State.modGait_ports (s : State) (f : GaitSt → GaitSt) : (s.modGait f).ports = s.ports := rfl
@[simp] theorem State.modGait_i3c (s : State) (f : GaitSt → GaitSt) : (s.modGait f).i3c = s.i3c := rfl
@[simp] theorem State.modGait_ingest (s : State) (f : GaitSt → GaitSt) : (s.modGait f).ingest = s.ingest := rfl
@[simp] theorem State.modGait_drey (s : State) (f : GaitSt → GaitSt) : (s.modGait f).drey = s.drey := rfl
@[simp] theorem State.modGait_sched (s : State) (f : GaitSt → GaitSt) : (s.modGait f).sched = s.sched := rfl
@[simp] theorem State.modGait_copy (s : State) (f : GaitSt → GaitSt) : (s.modGait f).copy = s.copy := rfl
@[simp] theorem State.modGait_shards (s : State) (f : GaitSt → GaitSt) : (s.modGait f).shards = s.shards := rfl
@[simp] theorem State.modGait_pcie (s : State) (f : GaitSt → GaitSt) : (s.modGait f).pcie = s.pcie := rfl
@[simp] theorem State.modGait_hitch (s : State) (f : GaitSt → GaitSt) : (s.modGait f).hitch = s.hitch := rfl
@[simp] theorem State.modGait_stack (s : State) (f : GaitSt → GaitSt) : (s.modGait f).stack = s.stack := rfl
@[simp] theorem State.modGait_halter (s : State) (f : GaitSt → GaitSt) : (s.modGait f).halter = s.halter := rfl
@[simp] theorem State.modGait_log (s : State) (f : GaitSt → GaitSt) : (s.modGait f).log = s.log := rfl
@[simp] theorem State.modGait_walker (s : State) (f : GaitSt → GaitSt) : (s.modGait f).walker = s.walker := rfl
@[simp] theorem State.modGait_tiles (s : State) (f : GaitSt → GaitSt) : (s.modGait f).tiles = s.tiles := rfl

@[simp] theorem State.modEpoch_time (s : State) (f : Nat) (g : Epoch → Epoch) : (s.modEpoch f g).time = s.time := rfl
@[simp] theorem State.modEpoch_freeCtr (s : State) (f : Nat) (g : Epoch → Epoch) : (s.modEpoch f g).freeCtr = s.freeCtr := rfl
@[simp] theorem State.modEpoch_pending (s : State) (f : Nat) (g : Epoch → Epoch) : (s.modEpoch f g).pending = s.pending := rfl
@[simp] theorem State.modEpoch_regs (s : State) (f : Nat) (g : Epoch → Epoch) : (s.modEpoch f g).regs = s.regs := rfl
@[simp] theorem State.modEpoch_written (s : State) (f : Nat) (g : Epoch → Epoch) : (s.modEpoch f g).written = s.written := rfl
@[simp] theorem State.modEpoch_inForce (s : State) (f : Nat) (g : Epoch → Epoch) : (s.modEpoch f g).inForce = s.inForce := rfl
@[simp] theorem State.modEpoch_forceWritten (s : State) (f : Nat) (g : Epoch → Epoch) : (s.modEpoch f g).forceWritten = s.forceWritten := rfl
@[simp] theorem State.modEpoch_rdata (s : State) (f : Nat) (g : Epoch → Epoch) : (s.modEpoch f g).rdata = s.rdata := rfl
@[simp] theorem State.modEpoch_install (s : State) (f : Nat) (g : Epoch → Epoch) : (s.modEpoch f g).install = s.install := rfl
@[simp] theorem State.modEpoch_mem (s : State) (f : Nat) (g : Epoch → Epoch) : (s.modEpoch f g).mem = s.mem := rfl
@[simp] theorem State.modEpoch_ddr (s : State) (f : Nat) (g : Epoch → Epoch) : (s.modEpoch f g).ddr = s.ddr := rfl
@[simp] theorem State.modEpoch_gait (s : State) (f : Nat) (g : Epoch → Epoch) : (s.modEpoch f g).gait = s.gait := rfl
@[simp] theorem State.modEpoch_ports (s : State) (f : Nat) (g : Epoch → Epoch) : (s.modEpoch f g).ports = s.ports := rfl
@[simp] theorem State.modEpoch_i3c (s : State) (f : Nat) (g : Epoch → Epoch) : (s.modEpoch f g).i3c = s.i3c := rfl
@[simp] theorem State.modEpoch_ingest (s : State) (f : Nat) (g : Epoch → Epoch) : (s.modEpoch f g).ingest = s.ingest := rfl
@[simp] theorem State.modEpoch_drey (s : State) (f : Nat) (g : Epoch → Epoch) : (s.modEpoch f g).drey = s.drey := rfl
@[simp] theorem State.modEpoch_sched (s : State) (f : Nat) (g : Epoch → Epoch) : (s.modEpoch f g).sched = s.sched := rfl
@[simp] theorem State.modEpoch_copy (s : State) (f : Nat) (g : Epoch → Epoch) : (s.modEpoch f g).copy = s.copy := rfl
@[simp] theorem State.modEpoch_shards (s : State) (f : Nat) (g : Epoch → Epoch) : (s.modEpoch f g).shards = s.shards := rfl
@[simp] theorem State.modEpoch_pcie (s : State) (f : Nat) (g : Epoch → Epoch) : (s.modEpoch f g).pcie = s.pcie := rfl
@[simp] theorem State.modEpoch_hitch (s : State) (f : Nat) (g : Epoch → Epoch) : (s.modEpoch f g).hitch = s.hitch := rfl
@[simp] theorem State.modEpoch_stack (s : State) (f : Nat) (g : Epoch → Epoch) : (s.modEpoch f g).stack = s.stack := rfl
@[simp] theorem State.modEpoch_halter (s : State) (f : Nat) (g : Epoch → Epoch) : (s.modEpoch f g).halter = s.halter := rfl
@[simp] theorem State.modEpoch_log (s : State) (f : Nat) (g : Epoch → Epoch) : (s.modEpoch f g).log = s.log := rfl
@[simp] theorem State.modEpoch_walker (s : State) (f : Nat) (g : Epoch → Epoch) : (s.modEpoch f g).walker = s.walker := rfl
@[simp] theorem State.modEpoch_tiles (s : State) (f : Nat) (g : Epoch → Epoch) : (s.modEpoch f g).tiles = s.tiles := rfl

@[simp] theorem State.mapLive_time (s : State) (f : Epoch → Epoch) : (s.mapLive f).time = s.time := rfl
@[simp] theorem State.mapLive_freeCtr (s : State) (f : Epoch → Epoch) : (s.mapLive f).freeCtr = s.freeCtr := rfl
@[simp] theorem State.mapLive_pending (s : State) (f : Epoch → Epoch) : (s.mapLive f).pending = s.pending := rfl
@[simp] theorem State.mapLive_regs (s : State) (f : Epoch → Epoch) : (s.mapLive f).regs = s.regs := rfl
@[simp] theorem State.mapLive_written (s : State) (f : Epoch → Epoch) : (s.mapLive f).written = s.written := rfl
@[simp] theorem State.mapLive_inForce (s : State) (f : Epoch → Epoch) : (s.mapLive f).inForce = s.inForce := rfl
@[simp] theorem State.mapLive_forceWritten (s : State) (f : Epoch → Epoch) : (s.mapLive f).forceWritten = s.forceWritten := rfl
@[simp] theorem State.mapLive_rdata (s : State) (f : Epoch → Epoch) : (s.mapLive f).rdata = s.rdata := rfl
@[simp] theorem State.mapLive_install (s : State) (f : Epoch → Epoch) : (s.mapLive f).install = s.install := rfl
@[simp] theorem State.mapLive_mem (s : State) (f : Epoch → Epoch) : (s.mapLive f).mem = s.mem := rfl
@[simp] theorem State.mapLive_ddr (s : State) (f : Epoch → Epoch) : (s.mapLive f).ddr = s.ddr := rfl
@[simp] theorem State.mapLive_gait (s : State) (f : Epoch → Epoch) : (s.mapLive f).gait = s.gait := rfl
@[simp] theorem State.mapLive_ports (s : State) (f : Epoch → Epoch) : (s.mapLive f).ports = s.ports := rfl
@[simp] theorem State.mapLive_i3c (s : State) (f : Epoch → Epoch) : (s.mapLive f).i3c = s.i3c := rfl
@[simp] theorem State.mapLive_ingest (s : State) (f : Epoch → Epoch) : (s.mapLive f).ingest = s.ingest := rfl
@[simp] theorem State.mapLive_drey (s : State) (f : Epoch → Epoch) : (s.mapLive f).drey = s.drey := rfl
@[simp] theorem State.mapLive_sched (s : State) (f : Epoch → Epoch) : (s.mapLive f).sched = s.sched := rfl
@[simp] theorem State.mapLive_copy (s : State) (f : Epoch → Epoch) : (s.mapLive f).copy = s.copy := rfl
@[simp] theorem State.mapLive_shards (s : State) (f : Epoch → Epoch) : (s.mapLive f).shards = s.shards := rfl
@[simp] theorem State.mapLive_pcie (s : State) (f : Epoch → Epoch) : (s.mapLive f).pcie = s.pcie := rfl
@[simp] theorem State.mapLive_hitch (s : State) (f : Epoch → Epoch) : (s.mapLive f).hitch = s.hitch := rfl
@[simp] theorem State.mapLive_stack (s : State) (f : Epoch → Epoch) : (s.mapLive f).stack = s.stack := rfl
@[simp] theorem State.mapLive_halter (s : State) (f : Epoch → Epoch) : (s.mapLive f).halter = s.halter := rfl
@[simp] theorem State.mapLive_log (s : State) (f : Epoch → Epoch) : (s.mapLive f).log = s.log := rfl
@[simp] theorem State.mapLive_walker (s : State) (f : Epoch → Epoch) : (s.mapLive f).walker = s.walker := rfl
@[simp] theorem State.mapLive_tiles (s : State) (f : Epoch → Epoch) : (s.mapLive f).tiles = s.tiles := rfl

@[simp] theorem State.modSci_time (s : State) (p : Fin 2) (f : SciPort → SciPort) : (s.modSci p f).time = s.time := rfl
@[simp] theorem State.modSci_freeCtr (s : State) (p : Fin 2) (f : SciPort → SciPort) : (s.modSci p f).freeCtr = s.freeCtr := rfl
@[simp] theorem State.modSci_pending (s : State) (p : Fin 2) (f : SciPort → SciPort) : (s.modSci p f).pending = s.pending := rfl
@[simp] theorem State.modSci_regs (s : State) (p : Fin 2) (f : SciPort → SciPort) : (s.modSci p f).regs = s.regs := rfl
@[simp] theorem State.modSci_written (s : State) (p : Fin 2) (f : SciPort → SciPort) : (s.modSci p f).written = s.written := rfl
@[simp] theorem State.modSci_inForce (s : State) (p : Fin 2) (f : SciPort → SciPort) : (s.modSci p f).inForce = s.inForce := rfl
@[simp] theorem State.modSci_forceWritten (s : State) (p : Fin 2) (f : SciPort → SciPort) : (s.modSci p f).forceWritten = s.forceWritten := rfl
@[simp] theorem State.modSci_rdata (s : State) (p : Fin 2) (f : SciPort → SciPort) : (s.modSci p f).rdata = s.rdata := rfl
@[simp] theorem State.modSci_install (s : State) (p : Fin 2) (f : SciPort → SciPort) : (s.modSci p f).install = s.install := rfl
@[simp] theorem State.modSci_mem (s : State) (p : Fin 2) (f : SciPort → SciPort) : (s.modSci p f).mem = s.mem := rfl
@[simp] theorem State.modSci_ddr (s : State) (p : Fin 2) (f : SciPort → SciPort) : (s.modSci p f).ddr = s.ddr := rfl
@[simp] theorem State.modSci_gait (s : State) (p : Fin 2) (f : SciPort → SciPort) : (s.modSci p f).gait = s.gait := rfl
@[simp] theorem State.modSci_frm (s : State) (p : Fin 2) (f : SciPort → SciPort) : (s.modSci p f).frm = s.frm := rfl
@[simp] theorem State.modSci_ports (s : State) (p : Fin 2) (f : SciPort → SciPort) : (s.modSci p f).ports = s.ports := rfl
@[simp] theorem State.modSci_i3c (s : State) (p : Fin 2) (f : SciPort → SciPort) : (s.modSci p f).i3c = s.i3c := rfl
@[simp] theorem State.modSci_ingest (s : State) (p : Fin 2) (f : SciPort → SciPort) : (s.modSci p f).ingest = s.ingest := rfl
@[simp] theorem State.modSci_drey (s : State) (p : Fin 2) (f : SciPort → SciPort) : (s.modSci p f).drey = s.drey := rfl
@[simp] theorem State.modSci_sched (s : State) (p : Fin 2) (f : SciPort → SciPort) : (s.modSci p f).sched = s.sched := rfl
@[simp] theorem State.modSci_copy (s : State) (p : Fin 2) (f : SciPort → SciPort) : (s.modSci p f).copy = s.copy := rfl
@[simp] theorem State.modSci_shards (s : State) (p : Fin 2) (f : SciPort → SciPort) : (s.modSci p f).shards = s.shards := rfl
@[simp] theorem State.modSci_pcie (s : State) (p : Fin 2) (f : SciPort → SciPort) : (s.modSci p f).pcie = s.pcie := rfl
@[simp] theorem State.modSci_stack (s : State) (p : Fin 2) (f : SciPort → SciPort) : (s.modSci p f).stack = s.stack := rfl
@[simp] theorem State.modSci_halter (s : State) (p : Fin 2) (f : SciPort → SciPort) : (s.modSci p f).halter = s.halter := rfl
@[simp] theorem State.modSci_log (s : State) (p : Fin 2) (f : SciPort → SciPort) : (s.modSci p f).log = s.log := rfl
@[simp] theorem State.modSci_walker (s : State) (p : Fin 2) (f : SciPort → SciPort) : (s.modSci p f).walker = s.walker := rfl
@[simp] theorem State.modSci_tiles (s : State) (p : Fin 2) (f : SciPort → SciPort) : (s.modSci p f).tiles = s.tiles := rfl

@[simp] theorem State.modHlt_time (s : State) (q : Fin 2) (f : HaltPort → HaltPort) : (s.modHlt q f).time = s.time := rfl
@[simp] theorem State.modHlt_freeCtr (s : State) (q : Fin 2) (f : HaltPort → HaltPort) : (s.modHlt q f).freeCtr = s.freeCtr := rfl
@[simp] theorem State.modHlt_pending (s : State) (q : Fin 2) (f : HaltPort → HaltPort) : (s.modHlt q f).pending = s.pending := rfl
@[simp] theorem State.modHlt_regs (s : State) (q : Fin 2) (f : HaltPort → HaltPort) : (s.modHlt q f).regs = s.regs := rfl
@[simp] theorem State.modHlt_written (s : State) (q : Fin 2) (f : HaltPort → HaltPort) : (s.modHlt q f).written = s.written := rfl
@[simp] theorem State.modHlt_inForce (s : State) (q : Fin 2) (f : HaltPort → HaltPort) : (s.modHlt q f).inForce = s.inForce := rfl
@[simp] theorem State.modHlt_forceWritten (s : State) (q : Fin 2) (f : HaltPort → HaltPort) : (s.modHlt q f).forceWritten = s.forceWritten := rfl
@[simp] theorem State.modHlt_rdata (s : State) (q : Fin 2) (f : HaltPort → HaltPort) : (s.modHlt q f).rdata = s.rdata := rfl
@[simp] theorem State.modHlt_install (s : State) (q : Fin 2) (f : HaltPort → HaltPort) : (s.modHlt q f).install = s.install := rfl
@[simp] theorem State.modHlt_mem (s : State) (q : Fin 2) (f : HaltPort → HaltPort) : (s.modHlt q f).mem = s.mem := rfl
@[simp] theorem State.modHlt_ddr (s : State) (q : Fin 2) (f : HaltPort → HaltPort) : (s.modHlt q f).ddr = s.ddr := rfl
@[simp] theorem State.modHlt_gait (s : State) (q : Fin 2) (f : HaltPort → HaltPort) : (s.modHlt q f).gait = s.gait := rfl
@[simp] theorem State.modHlt_frm (s : State) (q : Fin 2) (f : HaltPort → HaltPort) : (s.modHlt q f).frm = s.frm := rfl
@[simp] theorem State.modHlt_ports (s : State) (q : Fin 2) (f : HaltPort → HaltPort) : (s.modHlt q f).ports = s.ports := rfl
@[simp] theorem State.modHlt_i3c (s : State) (q : Fin 2) (f : HaltPort → HaltPort) : (s.modHlt q f).i3c = s.i3c := rfl
@[simp] theorem State.modHlt_ingest (s : State) (q : Fin 2) (f : HaltPort → HaltPort) : (s.modHlt q f).ingest = s.ingest := rfl
@[simp] theorem State.modHlt_drey (s : State) (q : Fin 2) (f : HaltPort → HaltPort) : (s.modHlt q f).drey = s.drey := rfl
@[simp] theorem State.modHlt_sched (s : State) (q : Fin 2) (f : HaltPort → HaltPort) : (s.modHlt q f).sched = s.sched := rfl
@[simp] theorem State.modHlt_copy (s : State) (q : Fin 2) (f : HaltPort → HaltPort) : (s.modHlt q f).copy = s.copy := rfl
@[simp] theorem State.modHlt_shards (s : State) (q : Fin 2) (f : HaltPort → HaltPort) : (s.modHlt q f).shards = s.shards := rfl
@[simp] theorem State.modHlt_pcie (s : State) (q : Fin 2) (f : HaltPort → HaltPort) : (s.modHlt q f).pcie = s.pcie := rfl
@[simp] theorem State.modHlt_hitch (s : State) (q : Fin 2) (f : HaltPort → HaltPort) : (s.modHlt q f).hitch = s.hitch := rfl
@[simp] theorem State.modHlt_stack (s : State) (q : Fin 2) (f : HaltPort → HaltPort) : (s.modHlt q f).stack = s.stack := rfl
@[simp] theorem State.modHlt_log (s : State) (q : Fin 2) (f : HaltPort → HaltPort) : (s.modHlt q f).log = s.log := rfl
@[simp] theorem State.modHlt_walker (s : State) (q : Fin 2) (f : HaltPort → HaltPort) : (s.modHlt q f).walker = s.walker := rfl
@[simp] theorem State.modHlt_tiles (s : State) (q : Fin 2) (f : HaltPort → HaltPort) : (s.modHlt q f).tiles = s.tiles := rfl

@[simp] theorem State.at_rd (s : State) (t : Nat) (k : Nat) : (s.at_ t).rd k = s.rd k := rfl
@[simp] theorem State.at_rd64 (s : State) (t : Nat) (k : Nat) : (s.at_ t).rd64 k = s.rd64 k := rfl
@[simp] theorem State.at_fld (s : State) (t : Nat) (k hi lo : Nat) : (s.at_ t).fld k hi lo = s.fld k hi lo := rfl
@[simp] theorem State.at_bit (s : State) (t : Nat) (k i : Nat) : (s.at_ t).bit k i = s.bit k i := rfl
@[simp] theorem State.give_rd (s : State) (r : ReqId) (v : Nat) (k : Nat) : (s.give r v).rd k = s.rd k := rfl
@[simp] theorem State.give_rd64 (s : State) (r : ReqId) (v : Nat) (k : Nat) : (s.give r v).rd64 k = s.rd64 k := rfl
@[simp] theorem State.give_fld (s : State) (r : ReqId) (v : Nat) (k hi lo : Nat) : (s.give r v).fld k hi lo = s.fld k hi lo := rfl
@[simp] theorem State.give_bit (s : State) (r : ReqId) (v : Nat) (k i : Nat) : (s.give r v).bit k i = s.bit k i := rfl
@[simp] theorem State.modTile_rd (s : State) (t : TileId) (f : Tile → Tile) (k : Nat) : (s.modTile t f).rd k = s.rd k := rfl
@[simp] theorem State.modTile_rd64 (s : State) (t : TileId) (f : Tile → Tile) (k : Nat) : (s.modTile t f).rd64 k = s.rd64 k := rfl
@[simp] theorem State.modTile_fld (s : State) (t : TileId) (f : Tile → Tile) (k hi lo : Nat) : (s.modTile t f).fld k hi lo = s.fld k hi lo := rfl
@[simp] theorem State.modTile_bit (s : State) (t : TileId) (f : Tile → Tile) (k i : Nat) : (s.modTile t f).bit k i = s.bit k i := rfl
@[simp] theorem State.modPort_rd (s : State) (p : PortId) (f : PortSt → PortSt) (k : Nat) : (s.modPort p f).rd k = s.rd k := rfl
@[simp] theorem State.modPort_rd64 (s : State) (p : PortId) (f : PortSt → PortSt) (k : Nat) : (s.modPort p f).rd64 k = s.rd64 k := rfl
@[simp] theorem State.modPort_fld (s : State) (p : PortId) (f : PortSt → PortSt) (k hi lo : Nat) : (s.modPort p f).fld k hi lo = s.fld k hi lo := rfl
@[simp] theorem State.modPort_bit (s : State) (p : PortId) (f : PortSt → PortSt) (k i : Nat) : (s.modPort p f).bit k i = s.bit k i := rfl
@[simp] theorem State.modFrm_rd (s : State) (f : FrameSt → FrameSt) (k : Nat) : (s.modFrm f).rd k = s.rd k := rfl
@[simp] theorem State.modFrm_rd64 (s : State) (f : FrameSt → FrameSt) (k : Nat) : (s.modFrm f).rd64 k = s.rd64 k := rfl
@[simp] theorem State.modFrm_fld (s : State) (f : FrameSt → FrameSt) (k hi lo : Nat) : (s.modFrm f).fld k hi lo = s.fld k hi lo := rfl
@[simp] theorem State.modFrm_bit (s : State) (f : FrameSt → FrameSt) (k i : Nat) : (s.modFrm f).bit k i = s.bit k i := rfl
@[simp] theorem State.modGait_rd (s : State) (f : GaitSt → GaitSt) (k : Nat) : (s.modGait f).rd k = s.rd k := rfl
@[simp] theorem State.modGait_rd64 (s : State) (f : GaitSt → GaitSt) (k : Nat) : (s.modGait f).rd64 k = s.rd64 k := rfl
@[simp] theorem State.modGait_fld (s : State) (f : GaitSt → GaitSt) (k hi lo : Nat) : (s.modGait f).fld k hi lo = s.fld k hi lo := rfl
@[simp] theorem State.modGait_bit (s : State) (f : GaitSt → GaitSt) (k i : Nat) : (s.modGait f).bit k i = s.bit k i := rfl
@[simp] theorem State.modEpoch_rd (s : State) (f : Nat) (g : Epoch → Epoch) (k : Nat) : (s.modEpoch f g).rd k = s.rd k := rfl
@[simp] theorem State.modEpoch_rd64 (s : State) (f : Nat) (g : Epoch → Epoch) (k : Nat) : (s.modEpoch f g).rd64 k = s.rd64 k := rfl
@[simp] theorem State.modEpoch_fld (s : State) (f : Nat) (g : Epoch → Epoch) (k hi lo : Nat) : (s.modEpoch f g).fld k hi lo = s.fld k hi lo := rfl
@[simp] theorem State.modEpoch_bit (s : State) (f : Nat) (g : Epoch → Epoch) (k i : Nat) : (s.modEpoch f g).bit k i = s.bit k i := rfl
@[simp] theorem State.mapLive_rd (s : State) (f : Epoch → Epoch) (k : Nat) : (s.mapLive f).rd k = s.rd k := rfl
@[simp] theorem State.mapLive_rd64 (s : State) (f : Epoch → Epoch) (k : Nat) : (s.mapLive f).rd64 k = s.rd64 k := rfl
@[simp] theorem State.mapLive_fld (s : State) (f : Epoch → Epoch) (k hi lo : Nat) : (s.mapLive f).fld k hi lo = s.fld k hi lo := rfl
@[simp] theorem State.mapLive_bit (s : State) (f : Epoch → Epoch) (k i : Nat) : (s.mapLive f).bit k i = s.bit k i := rfl
@[simp] theorem State.modSci_rd (s : State) (p : Fin 2) (f : SciPort → SciPort) (k : Nat) : (s.modSci p f).rd k = s.rd k := rfl
@[simp] theorem State.modSci_rd64 (s : State) (p : Fin 2) (f : SciPort → SciPort) (k : Nat) : (s.modSci p f).rd64 k = s.rd64 k := rfl
@[simp] theorem State.modSci_fld (s : State) (p : Fin 2) (f : SciPort → SciPort) (k hi lo : Nat) : (s.modSci p f).fld k hi lo = s.fld k hi lo := rfl
@[simp] theorem State.modSci_bit (s : State) (p : Fin 2) (f : SciPort → SciPort) (k i : Nat) : (s.modSci p f).bit k i = s.bit k i := rfl
@[simp] theorem State.modHlt_rd (s : State) (q : Fin 2) (f : HaltPort → HaltPort) (k : Nat) : (s.modHlt q f).rd k = s.rd k := rfl
@[simp] theorem State.modHlt_rd64 (s : State) (q : Fin 2) (f : HaltPort → HaltPort) (k : Nat) : (s.modHlt q f).rd64 k = s.rd64 k := rfl
@[simp] theorem State.modHlt_fld (s : State) (q : Fin 2) (f : HaltPort → HaltPort) (k hi lo : Nat) : (s.modHlt q f).fld k hi lo = s.fld k hi lo := rfl
@[simp] theorem State.modHlt_bit (s : State) (q : Fin 2) (f : HaltPort → HaltPort) (k i : Nat) : (s.modHlt q f).bit k i = s.bit k i := rfl

end Sys2Proof.Machine
end

