-- ==== Sys2Proof/Laws/Regs.lean ====
section
/-! SUPPORT. Laws of the register file: what each way of writing a word makes that word, its fields and every other word read as; all that
a count, an access error and a log entry can change. -/

namespace Sys2Proof.Machine

variable (s : State)

theorem State.rd_lt (o : Nat) : s.rd o < 2 ^ 32 := (regWord s.regs o).isLt

theorem State.rd_put (o o' v : Nat) : (s.put o v).rd o' = if o' = o then v % 2 ^ 32 else s.rd o' := by
  split
  · next h => subst h; exact State.rd_put_self s _ _
  · next h => exact State.rd_put_ne s v h

theorem State.fld_put_ne {o o' : Nat} (v hi lo : Nat) (h : o' ≠ o) : (s.put o v).fld o' hi lo = s.fld o' hi lo := by
  simp [State.fld, h]

theorem State.bit_put_ne {o o' : Nat} (v i : Nat) (h : o' ≠ o) : (s.put o v).bit o' i = s.bit o' i := by
  simp [State.bit, h]

@[simp] theorem State.rd_putF_ne {o o' : Nat} (hi lo v : Nat) (h : o' ≠ o) : (s.putF o hi lo v).rd o' = s.rd o' := by
  simp [State.putF, h]

theorem State.rd_putF_self {o hi lo v : Nat} (h : lo ≤ hi + 1) (hk : hi < 32) : (s.putF o hi lo v).rd o = putBits (s.rd o) hi lo v := by
  rw [State.putF, State.rd_put_self, Nat.mod_eq_of_lt (putBits_lt h (s.rd_lt o) hk)]

@[simp] theorem State.rd_putB_ne {o o' : Nat} (i : Nat) (b : Bool) (h : o' ≠ o) : (s.putB o i b).rd o' = s.rd o' := by
  simp [State.putB, h]

@[simp] theorem State.rd_orReg_ne {o o' : Nat} (v : Nat) (h : o' ≠ o) : (s.orReg o v).rd o' = s.rd o' := by
  simp [State.orReg, h]

/-- A field written reads as the value's low bits. -/
theorem State.fld_putF_self {o hi lo v : Nat} (h : lo ≤ hi + 1) (hk : hi < 32) : (s.putF o hi lo v).fld o hi lo = v % 2 ^ (hi + 1 - lo) := by
  rw [State.fld, State.rd_putF_self s h hk, bitsN_putBits_self h]

/-- A bit of a word with a field written. -/
theorem State.bit_putF {o hi lo v : Nat} (h : lo ≤ hi + 1) (hk : hi < 32) (i : Nat) :
    (s.putF o hi lo v).bit o i = if lo ≤ i ∧ i ≤ hi then bitN v (i - lo) else s.bit o i := by
  rw [State.bit, State.rd_putF_self s h hk, bitN_putBits h]; rfl

theorem State.bit_putB {o i : Nat} (b : Bool) (hk : i < 32) (j : Nat) : (s.putB o i b).bit o j = if j = i then b else s.bit o j := by
  rw [State.putB, State.bit_putF s (by omega) hk]
  by_cases h : j = i
  · subst h; simp
  · rw [if_neg h, if_neg (by omega)]

theorem State.bit_putB_ne {o o' : Nat} (i j : Nat) (b : Bool) (h : o' ≠ o) : (s.putB o i b).bit o' j = s.bit o' j := by
  simp [State.bit, h]

theorem State.fld_putB_ne {o o' : Nat} (i hi lo : Nat) (b : Bool) (h : o' ≠ o) : (s.putB o i b).fld o' hi lo = s.fld o' hi lo := by
  simp [State.fld, h]

theorem State.bit_orReg {o v : Nat} (hv : v < 2 ^ 32) (j : Nat) : (s.orReg o v).bit o j = (s.bit o j || bitN v j) := by
  rw [State.orReg, State.bit, State.rd_put_self, Nat.mod_eq_of_lt (Nat.or_lt_two_pow (s.rd_lt o) hv), bitN_or]; rfl

theorem State.bit_orReg_ne {o o' : Nat} (v j : Nat) (h : o' ≠ o) : (s.orReg o v).bit o' j = s.bit o' j := by
  simp [State.bit, h]

@[simp] theorem State.rd_put64_ne {o o' : Nat} (v : Nat) (h : o' ≠ o) (h' : o' ≠ o + 4) : (s.put64 o v).rd o' = s.rd o' := by
  simp [State.put64, h, h']

/-- A 64-bit register written reads as written. -/
theorem State.rd64_put64 (o v : Nat) : (s.put64 o v).rd64 o = v % 2 ^ 64 := by
  have h : (s.put64 o v).rd64 o = (s.put64 o v).rd o + 2 ^ 32 * (s.put64 o v).rd (o + 4) := rfl
  rw [h, State.put64, State.rd_put_self, State.rd_put_ne _ _ (by omega), State.rd_put_self]
  omega

theorem State.rd64_eq (o : Nat) : s.rd64 o = s.rd o + 2 ^ 32 * s.rd (o + 4) := rfl

/-! ### What is kept -/

theorem RegsKept.refl (l : List Nat) : RegsKept s s l := fun _ _ => rfl

theorem RegsKept.trans {s t u : State} {l : List Nat} (h : RegsKept s t l) (h' : RegsKept t u l) : RegsKept s u l :=
  fun o ho => (h' o ho).trans (h o ho)

theorem RegsKept.mono {s t : State} {l l' : List Nat} (h : RegsKept s t l) (hs : l ⊆ l') : RegsKept s t l' := fun o ho => h o (fun x => ho (hs x))

theorem State.put_kept (o v : Nat) : RegsKept s (s.put o v) [o] := fun k hk => State.rd_put_ne s v (by simpa using hk)

theorem State.putF_kept (o hi lo v : Nat) : RegsKept s (s.putF o hi lo v) [o] := s.put_kept o _

theorem State.putB_kept (o i : Nat) (b : Bool) : RegsKept s (s.putB o i b) [o] := s.put_kept o _

theorem State.put64_kept (o v : Nat) : RegsKept s (s.put64 o v) [o, o + 4] := fun k hk => by
  simp only [List.mem_cons, List.not_mem_nil, or_false, not_or] at hk
  exact State.rd_put64_ne s v hk.1 hk.2

/-! ### Counters (R607) -/

/-- A count changes its counter and its overflow word only. -/
theorem State.count_kept (c : Ctr) (n : Nat) : RegsKept s (s.count c n) (ctrWords c) := by
  intro o ho
  simp only [ctrWords, List.mem_cons, List.not_mem_nil, or_false, not_or] at ho
  unfold State.count
  split
  · rfl
  · dsimp only
    split
    · exact State.rd_put_ne _ _ ho.1
    · rw [State.rd_orReg_ne _ _ ho.2, State.rd_put_ne _ _ ho.1]

/-- A word that is neither the counter nor its overflow word reads as before. -/
theorem State.rd_count_ne {o : Nat} (c : Ctr) (n : Nat) (h : o ≠ c.reg) (h' : o ≠ c.ovf + 4 * (c.bit / 32)) : (s.count c n).rd o = s.rd o :=
  s.count_kept c n o (by simp [ctrWords, h, h'])

/-- The counter counts up to 0xFFFF_FFFF and stays there. -/
theorem State.rd_count (c : Ctr) (n : Nat) (h : c.reg ≠ c.ovf + 4 * (c.bit / 32)) : (s.count c n).rd c.reg = min 0xFFFFFFFF (s.rd c.reg + n) := by
  have := s.rd_lt c.reg
  unfold State.count
  split
  · next h0 => subst h0; omega
  · dsimp only
    split
    · rw [State.rd_put_self]; omega
    · rw [State.rd_orReg_ne _ _ h, State.rd_put_self]; omega

/-! ### Access errors (R630) -/

/-- An access error changes the register file only. -/
theorem State.accErr_eq (r : ReqId) (off : Nat) (c : AccCause) : s.accErr r off c = { s with regs := (s.accErr r off c).regs } := by
  unfold State.accErr State.put64 State.put
  rw [State.count_eq s]

/-! ### The log (R602, R603) -/

theorem State.put_regs (o v : Nat) : ∃ g, s.put o v = { s with regs := g } := ⟨_, rfl⟩

theorem State.put64_regs (o v : Nat) : ∃ g, s.put64 o v = { s with regs := g } := ⟨_, rfl⟩

theorem State.count_regs (c : Ctr) (n : Nat) : ∃ g, s.count c n = { s with regs := g } := ⟨_, s.count_eq c n⟩

/-- Words written from one state to another compose. -/
theorem regs_trans {s t u : State} (h : ∃ g, t = { s with regs := g }) (h' : ∃ g, u = { t with regs := g }) : ∃ g, u = { s with regs := g } := by
  obtain ⟨g, rfl⟩ := h
  obtain ⟨g', rfl⟩ := h'
  exact ⟨g', rfl⟩

theorem State.logPut_regs (n frm w4 data : Nat) : ∃ g, s.logPut n frm w4 data = { s with regs := g } := by
  unfold State.logPut
  exact regs_trans (regs_trans (regs_trans (regs_trans (regs_trans (regs_trans (s.put64_regs _ _) (State.put_regs _ _ _))
    (State.put_regs _ _ _)) (State.put_regs _ _ _)) (State.put_regs _ _ _)) (State.put64_regs _ _ _)) (State.put_regs _ _ _)

theorem State.logEvent_regs (code unit src data : Nat) : ∃ g l, s.logEvent code unit src data = { s with regs := g, log := l } := by
  unfold State.logEvent
  dsimp only
  split
  · exact ⟨_, _, rfl⟩
  · have h : ∀ (n frm w4 : Nat), ∃ g, (if 4096 ≤ s.log.used then s.count Cnt.evtLogOvwr else s).logPut n frm w4 data = { s with regs := g } := by
      intro n frm w4
      refine regs_trans ?_ (State.logPut_regs _ _ _ _ _)
      split
      · exact s.count_regs _ _
      · exact ⟨_, rfl⟩
    obtain ⟨g, hg⟩ := h _ _ _
    rw [hg]
    exact ⟨_, _, rfl⟩

/-- A log entry changes the register file and the log only. -/
theorem State.logEvent_eq (code unit src data : Nat) :
    s.logEvent code unit src data = { s with regs := (s.logEvent code unit src data).regs, log := (s.logEvent code unit src data).log } := by
  obtain ⟨g, l, h⟩ := s.logEvent_regs code unit src data
  rw [h]

end Sys2Proof.Machine
end

