-- ==== Sys2Proof/Laws/Issue.lean ====
section
/-! SUPPORT. What the issue of a Berbo instruction, a register access and an SCI arrival can answer: always a next state, and, where the
conditions of Safety hold, the instruction's own effect. -/

namespace Sys2Proof.Machine

variable (s : State)

theorem Goes.next (t : State) : Goes (.next t) := ⟨t, rfl⟩

/-- The issue of a control-core instruction answers a next state. -/
theorem State.ccIssue_goes (t : TileId) (a : CcArgs) (m : ModeGroup) (ok : Bool) (fc : FenceClass) (r w : List Nat) (body : State → State) :
    Goes (s.ccIssue t a m ok fc r w body) := by
  unfold State.ccIssue
  repeat' (first | exact Goes.next _ | split)

/-- A control-core instruction that issues has its effect. -/
theorem State.ccIssue_go {t : TileId} {a : CcArgs} {m : ModeGroup} {fc : FenceClass} {r w : List Nat} (body : State → State)
    (h : CcGo s t a m fc r w) : s.ccIssue t a m true fc r w body = .next (body s) := by
  obtain ⟨⟨h1, h2⟩, h3, h4, h5, h6, h7⟩ := h
  simp only [State.ccIssue, h1, h2, h3, h4, h5, h6, h7, not_true_eq_false, if_false, or_self, Bool.or_self, Bool.false_eq_true]

/-- The issue of a unit instruction answers a next state. -/
theorem State.uIssue_goes (t : TileId) (op : UOp) (a : UArgs) (ok : Bool) (qs gs : List Nat) (tagOk : Bool) :
    Goes (s.uIssue t op a ok qs gs tagOk) := by
  unfold State.uIssue
  dsimp only
  repeat' (first | exact Goes.next _ | split)

/-- A unit instruction that issues enters the window. -/
theorem State.uIssue_go {t : TileId} {op : UOp} {a : UArgs} {ok : Bool} {qs gs : List Nat} {tagOk : Bool} (h : UGo s t op a ok qs gs tagOk) :
    s.uIssue t op a ok qs gs tagOk = .next (s.enterWindow t op a qs) := by
  obtain ⟨⟨h1, h2⟩, h3, h4, h5, h6, h7, h8, h9, h10, h11, h12, h13, h14⟩ := h
  have h9' : (op.scalar && decide (a.rd ≠ 0) && decide (8 ≤ s.tiles[t].pendCount)) = false := by
    rcases h9 with h | h | h
    · simp [h]
    · simp [h]
    · simp only [Nat.not_le.2 h, decide_false, Bool.and_false]
  have h11' : (qs.any fun q => decide (16 ≤ (s.tiles[t].window.filter (fun u => u.inQ q && !u.started)).length)) = false := by
    rw [List.any_eq_false]
    intro q hq
    have := (List.all_eq_true.1 h11) q hq
    simpa using this
  unfold State.uIssue
  simp only [h1, h2, h3, h4, h5, h6, h7, h8, h9', h11', h12, Nat.not_le.2 h10, Bool.false_eq_true, not_true_eq_false, if_false, or_self,
    Bool.or_self]

/-- A register write or read of a command answers a next state. -/
theorem State.wr_goes (r : ReqId) (off w v : Nat) : Goes (s.wr r off w v) := by
  unfold State.wr
  split <;> exact Goes.next _

theorem State.rdCmd_goes (r : ReqId) (off w : Nat) (c : Bool) : Goes (s.rdCmd r off w c) := by
  unfold State.rdCmd
  split <;> exact Goes.next _

/-- What arrives on the Cascade Interface answers a next state. -/
theorem State.sciDo_goes (f : State → State) : Goes (s.sciDo f) := by
  unfold State.sciDo
  split <;> exact Goes.next _

/-- An arrival while the SCI logic runs is its effect, with what is due sent. -/
theorem State.sciDo_on (f : State → State) (h : s.sciOn = true) : s.sciDo f = .next (f s).settleBcasts.sciPump := by
  simp [State.sciDo, h, State.sciEnd]

end Sys2Proof.Machine
end

