-- ==== Sys2Proof/Laws/Memory.lean ====
section
/-! SUPPORT. Device memory keeps its canonical form through every operation on it: writes under ECC, lines accepted from a store
buffer, the copy engine's destination, contents lost, zeroed or written back. -/

namespace Sys2Proof.Machine

/-- A run of byte writes keeps the canonical form. -/
theorem Mem.wf_foldl {α : Type} (l : List α) (f : Mem → α → Mem) (hf : ∀ m x, m.wf = true → (f m x).wf = true) {m : Mem} (h : m.wf = true) :
    (l.foldl f m).wf = true := by
  induction l generalizing m with
  | nil => exact h
  | cons x r ih => exact ih (hf m x h)

/-- A run of register counts leaves memory alone. -/
theorem State.mem_foldl {α : Type} (l : List α) (f : State → α → State) (hf : ∀ s x, (f s x).mem = s.mem) (s : State) :
    (l.foldl f s).mem = s.mem := by
  induction l generalizing s with
  | nil => rfl
  | cons x r ih => rw [List.foldl_cons, ih, hf]

/-- Counting uncorrectable words leaves memory alone. -/
@[simp] theorem State.countBad_mem (s : State) (ws : List (Nat × Bool)) : (s.countBad ws).mem = s.mem :=
  State.mem_foldl ws _ (fun s w => by split <;> [rfl; (split <;> rw [State.count_eq])]) s

/-- Correcting what a read meets changes nothing of memory but the record of correctable errors. -/
theorem State.countSoft_mem (s : State) (a n : Nat) : (s.countSoft a n).mem = { s.mem with soft := (s.countSoft a n).mem.soft } := by
  have h : ∀ (l : List Nat) (s : State), (l.foldl (fun (s : State) w =>
      if w < 0x8000000 then s.count (Cnt.evtCntBurCe (w / 0x4000000)) else s.count (Cnt.evtCntDdrCe (ddrOf w))) s).mem = s.mem :=
    fun l s => State.mem_foldl l _ (fun s w => by split <;> rw [State.count_eq]) s
  unfold State.countSoft
  dsimp only
  split
  · rfl
  · rw [h]

/-- It keeps the canonical form. -/
theorem State.countSoft_wf (s : State) (a n : Nat) (h : s.mem.wf = true) : (s.countSoft a n).mem.wf = true := by
  rw [s.countSoft_mem a n]
  exact h

/-- A read that counts what it meets keeps the canonical form. -/
theorem State.readMeets_wf (s : State) (a n : Nat) (h : s.mem.wf = true) : (s.readMeets a n).mem.wf = true := by
  unfold State.readMeets
  rw [State.countBad_mem]
  exact s.countSoft_wf a n h

/-- A write under ECC keeps the canonical form. -/
theorem State.memWrite_wf (s : State) (a : Nat) (bs : List Byte) (h : s.mem.wf = true) : (s.memWrite a bs).mem.wf = true := by
  unfold State.memWrite
  dsimp only
  generalize hs : State.countBad _ _ = s1
  have h1 : s1.mem.wf = true := by
    rw [← hs, State.countBad_mem]
    exact State.countSoft_wf _ _ _ h
  split
  · exact Mem.wf_setBytes a bs h1
  · refine Mem.wf_foldl _ _ (fun m i hm => ?_) (Mem.wf_setBytes a bs h1)
    split
    · exact Mem.wf_setByte _ _ hm
    · exact hm

/-- Poison left in an ECC unit changes no byte. -/
theorem State.putPoison_wf (s : State) (as_ : List Nat) (h : s.mem.wf = true) : (s.putPoison as_).mem.wf = true := by
  unfold State.putPoison
  dsimp only
  split
  · exact h
  · exact h

/-- A store-buffer line accepted keeps it. -/
theorem State.lineWrite_wf (s : State) (line : Nat) (cells : List Host.Cell) (h : s.mem.wf = true) : (s.lineWrite line cells).mem.wf = true := by
  unfold State.lineWrite
  dsimp only
  generalize List.range (64 / eccSize line) = l
  induction l generalizing s with
  | nil => exact h
  | cons k r ih =>
    rw [List.foldl_cons]
    refine ih _ ?_
    have hp : ∀ mine : List Host.Cell, (mine.foldl (fun (m : Mem) c => m.setByte (line + c.1) c.2) s.mem).wf = true :=
      fun mine => Mem.wf_foldl _ _ (fun m c hm => Mem.wf_setByte _ _ hm) h
    split
    · exact h
    · split
      · exact hp _
      · split
        · exact State.countSoft_wf _ _ _ (hp _)
        · simpa using h

/-- Bytes sent to another member leave this package's memory alone. -/
@[simp] theorem State.sendMember_mem (s : State) (m a : Nat) (bs : List (Byte × Bool)) : (s.sendMember m a bs).2.mem = s.mem := rfl

/-- A block the copy engine writes keeps it. -/
theorem State.cpyWrite_wf (s : State) (x : CpySide) (o : Nat) (bs : List (Byte × Bool)) (h : s.mem.wf = true) :
    (s.cpyWrite x o bs).2.mem.wf = true := by
  unfold State.cpyWrite
  split
  · exact h
  · exact h
  · exact h
  · exact State.putPoison_wf _ _ (s.memWrite_wf _ _ h)

/-- Burrow memory lost, and LPDDR5X lost: what stays is canonical under the new fill. -/
theorem State.loseBurrow_wf (s : State) (h : s.mem.wf = true) : s.loseBurrow.mem.wf = true := by
  refine spWfFrom_filter (d := s.mem.dflt) (fun e he => ?_) h
  have : ¬ e.1 < 0x8000000 := by simpa using he
  simp [Mem.dflt, this, State.loseBurrow, State.fresh]

theorem State.loseDdr_wf (s : State) (h : s.mem.wf = true) : s.loseDdr.mem.wf = true := by
  refine spWfFrom_filter (d := s.mem.dflt) (fun e he => ?_) h
  have : e.1 < 0x8000000 := by simpa using he
  simp [Mem.dflt, this, State.loseDdr, State.fresh]

/-- Burrow memory zeroed by the boot ROM. -/
theorem State.zeroBurrow_wf (s : State) (h : s.mem.wf = true) : s.zeroBurrow.mem.wf = true := by
  refine spWfFrom_filter (d := s.mem.dflt) (fun e he => ?_) h
  have : ¬ e.1 < 0x8000000 := by simpa using he
  simp [Mem.dflt, this, State.zeroBurrow]

/-- Dirty lines lost, and written back. -/
theorem State.dropL2_wf (s : State) (h : s.mem.wf = true) : s.dropL2.mem.wf = true := h

theorem State.writeBack_wf (s : State) (h : s.mem.wf = true) : s.writeBack.mem.wf = true :=
  Mem.wf_foldl _ _ (fun _ c hm => Mem.wf_setByte c.1 c.2 hm) h

/-- After power-on and main supply loss nothing is listed, which is canonical. -/
theorem Mem.wf_nil (m : Mem) (h : m.cells = []) : m.wf = true := by simp [Mem.wf, h, spWf, spWfFrom]

end Sys2Proof.Machine
end

