-- ==== Sys2Proof/Laws/Tile.lean ====
section
/-! SUPPORT. Laws of a tile's record: a record changed reads as changed and every other tile as before; a G register and a byte of the
tile store read as written. -/

namespace Sys2Proof.Machine

/-! ### One record of many -/

@[simp] theorem State.modTile_val (s : State) (t : TileId) (f : Tile → Tile) : (s.modTile t f).tiles[t.val] = f s.tiles[t.val] := by
  simp [State.modTile]

@[simp] theorem State.modTile_self (s : State) (t : TileId) (f : Tile → Tile) : (s.modTile t f).tiles[t] = f s.tiles[t] := by
  simp [State.modTile]

theorem State.modTile_ne (s : State) {t u : TileId} (f : Tile → Tile) (h : u ≠ t) : (s.modTile t f).tiles[u] = s.tiles[u] := by
  simp [State.modTile, Ne.symm (Fin.val_ne_of_ne h)]

/-- A change of one tile's record changes nothing else. -/
theorem State.modTile_only (s : State) (t : TileId) (f : Tile → Tile) : OnlyTile s (s.modTile t f) t :=
  ⟨rfl, fun _ h => s.modTile_ne f h⟩

theorem OnlyTile.trans {s t u : State} {x : TileId} (h : OnlyTile s t x) (h' : OnlyTile t u x) : OnlyTile s u x := by
  obtain ⟨h1, h2⟩ := h
  obtain ⟨h3, h4⟩ := h'
  exact ⟨by rw [h3, h1], fun y hy => (h4 y hy).trans (h2 y hy)⟩

/-- Two changes of one record are one. -/
@[simp] theorem State.modTile_modTile (s : State) (t : TileId) (f g : Tile → Tile) : (s.modTile t f).modTile t g = s.modTile t (fun tl => g (f tl)) := by
  simp [State.modTile]

@[simp] theorem State.modPort_val (s : State) (p : PortId) (f : PortSt → PortSt) : (s.modPort p f).ports[p.val] = f s.ports[p.val] := by
  simp [State.modPort]

@[simp] theorem State.modPort_self (s : State) (p : PortId) (f : PortSt → PortSt) : (s.modPort p f).ports[p] = f s.ports[p] := by
  simp [State.modPort]

theorem State.modPort_ne (s : State) {p q : PortId} (f : PortSt → PortSt) (h : q ≠ p) : (s.modPort p f).ports[q] = s.ports[q] := by
  simp [State.modPort, Ne.symm (Fin.val_ne_of_ne h)]

@[simp] theorem State.modSci_val (s : State) (p : Fin 2) (f : SciPort → SciPort) : (s.modSci p f).hitch.ports[p.val] = f s.hitch.ports[p.val] := by
  simp [State.modSci]

@[simp] theorem State.modSci_self (s : State) (p : Fin 2) (f : SciPort → SciPort) : (s.modSci p f).hitch.ports[p] = f s.hitch.ports[p] := by
  simp [State.modSci]

theorem State.modSci_ne (s : State) {p q : Fin 2} (f : SciPort → SciPort) (h : q ≠ p) : (s.modSci p f).hitch.ports[q] = s.hitch.ports[q] := by
  simp [State.modSci, Ne.symm (Fin.val_ne_of_ne h)]

@[simp] theorem State.modHlt_val (s : State) (q : Fin 2) (f : HaltPort → HaltPort) : (s.modHlt q f).halter.ports[q.val] = f s.halter.ports[q.val] := by
  simp [State.modHlt]

@[simp] theorem State.modHlt_self (s : State) (q : Fin 2) (f : HaltPort → HaltPort) : (s.modHlt q f).halter.ports[q] = f s.halter.ports[q] := by
  simp [State.modHlt]

theorem State.modHlt_ne (s : State) {p q : Fin 2} (f : HaltPort → HaltPort) (h : q ≠ p) : (s.modHlt p f).halter.ports[q] = s.halter.ports[q] := by
  simp [State.modHlt, Ne.symm (Fin.val_ne_of_ne h)]

/-! ### G registers -/

/-- A G register written changes that register alone, and G0 never. -/
theorem Tile.getG_setG (tl : Tile) (i k : Nat) (v : W64) (hi : i < 32) : (tl.setG i v).getG k = if k = i ∧ k ≠ 0 then v else tl.getG k := by
  unfold Tile.setG
  rw [dif_pos hi]
  split
  · next h => subst h; rw [if_neg (by omega)]
  · next h =>
    simp only [Tile.getG, Vector.toList_set]
    by_cases hk : k = i
    · subst hk
      simp [h, hi]
    · simp [hk, List.getD_eq_getElem?_getD, List.getElem?_set_ne (Ne.symm hk)]

/-- Nothing of the tile but its G registers changes. -/
theorem Tile.setG_eq (tl : Tile) (i : Nat) (v : W64) : tl.setG i v = { tl with g := (tl.setG i v).g } := by
  unfold Tile.setG
  split
  · split <;> rfl
  · rfl

/-! ### The tile store (R209, R393) -/

/-- A store of bytes changes the tile's store and its void lines only. -/
theorem Tile.unvoid_eq (tl : Tile) (l : Nat) : ∃ a b, tl.unvoid l = { tl with store := a, voids := b } := by
  unfold Tile.unvoid
  split
  · exact ⟨_, _, rfl⟩
  · exact ⟨_, _, rfl⟩

theorem Tile.tsPut_eq (tl : Tile) (a : Nat) (b : Byte) : ∃ x y, tl.tsPut a b = { tl with store := x, voids := y } := by
  obtain ⟨x, y, h⟩ := tl.unvoid_eq (a / 64)
  simp only [Tile.tsPut, h]
  exact ⟨_, _, rfl⟩

end Sys2Proof.Machine
end

