-- ==== Sys2Proof/WellFormed.lean ====
section
/-! DEFINITION. Which commands are well formed: widths and lengths that the form of a command asks for and its operands' types
do not. No meaning depends on it: an access of another width, say, is one to a reserved address (R623). -/

namespace Sys2Proof

/-- An access of `w` bytes at `off` with the data `v`: 4 or 8 bytes, aligned, the data no wider (R623, log 13). -/
def accessWf (off : BitVec 28) (w : Nat) (v : BitVec 64) : Bool :=
  (w == 4 || w == 8) && off.toNat % w == 0 && decide (v.toNat < 2 ^ (8 * w))

/-- The data of an SCI message: whole units of 8 bytes, at most 63 of them (Table 15-4). -/
def sciDataWf (data : List Byte) : Bool := data.length % 8 == 0 && decide (data.length ≤ 504)

/-- The size code of an SCI access: 2 for a 32-bit register access, else 3 to 8 (Table 15-4). -/
def sciSizeWf (h : SciHdr) : Bool := decide (2 ≤ h.size.toNat) && decide (h.size.toNat ≤ 8)

/-- A command whose operands have the widths and lengths its form has. -/
def Instr.wf : Instr → Bool
  | .registerWrite _ off w v => accessWf off w v
  | .rcRead _ off w _ => accessWf off w 0
  | .aliasWrite _ off w v => accessWf off w v
  | .aliasRead _ off w => accessWf off w 0
  | .hitchBroadcastWrite _ off w v => accessWf off w v
  | .hitchBroadcastRead _ off w => accessWf off w 0
  | .tileStoreWindowWrite _ _ a w v => accessWf (a.setWidth 28) w v
  | .tileStoreWindowRead _ _ a w => accessWf (a.setWidth 28) w 0
  | .svcRead w64 off => accessWf off (if w64 then 8 else 4) 0
  | .svcWrite w64 off data => accessWf off (if w64 then 8 else 4) data
  | .ethFrameReceive _ _ frame => decide (14 ≤ frame.length)
  | .sciFlitReceive _ flit => flit.length == 256
  | .poll _ bytes => bytes.length == 16
  | .pollWake _ bytes => bytes.length == 16
  | .pcieInboundRequest _ write _ len data => if write then data.length == len else data.isEmpty
  | .rd _ h => sciSizeWf h
  | .wr _ h data => sciSizeWf h && sciDataWf data
  | .rdr _ _ data => sciDataWf data
  | .ownPush _ _ data => sciDataWf data
  | .msi _ _ data => sciDataWf data
  | .contrib _ _ data => sciDataWf data
  | .crd _ h => h.size.toNat == 2 || h.size.toNat == 3
  | .cwr _ h data => (h.size.toNat == 2 || h.size.toNat == 3) && sciDataWf data
  | .crr _ _ data => sciDataWf data
  | _ => true

end Sys2Proof
end

