-- ==== Sys2Proof/Tests/Slice0.lean ====
section
/-! SUPPORT. Tests: ill-formed commands the checks refuse, words of Berbo from the spec's tables, the spec's worked cases, small steps,
and for each statement with hypotheses a witness, named wit_ after it, that meets them. -/

namespace Sys2Proof.Tests

set_option Elab.async false

open Sys2Proof Sys2Proof.Machine

/-! ### Small states -/

/-- A package in a gait: 0 Stable, 1 Walk, 2 Trot, 3 Canter. -/
def inGait (g : Nat) : State := { State.reset.put Reg.gaitStat g with time := 1000000 }

/-- An untagged item. -/
def item0 : Work := ⟨none, 0, 0, 0, 0, 0, false, 0⟩

/-- Canter, with tile 0 at work on an untagged item and changed by `f`. -/
def tileAt (f : Tile → Tile) : State := (inGait 3).modTile 0 (fun tl => f { tl with clocked := true, running := some item0 })

/-- Canter, tile 0 at work. -/
def core : State := tileAt id

/-- As `core`, in the exception handler. -/
def handler : State := core.put (Reg.tileHstat 0) 1

/-- A control-core word's fields: predicate none, RD G4, RS1 G1, RS2 G2. -/
def ccA (imm : BitVec 32) : CcArgs := ⟨0, 0, 4, 1, 2, imm⟩

/-- A unit word's fields: no wait, no signal, GA G10, GB G11, GC G12. -/
def uA (imm : BitVec 13) : UArgs := ⟨0, 0, 0, 0, 0, false, false, 10, 11, 12, 0, imm⟩

/-- An access error, a stop and the like: the state `exec` answers. -/
def after (i : Instr) (s : State) : State := nextOr s (exec i s)

/-- An epoch of frame `f`, opened at instant 0, with nothing done in it. -/
def epoch0 (f : Nat) : Epoch :=
  { frame := f, openT := 0, closeT := 50000000, closed := false, conf := [], wrote := [], ride := true, noWork := true, buf := 0, place := []
    inService := 0, refPose := none, covered := 255, absent := 0, lateWin := 250000, poseDl := 2000000, lateDone := false
    decision := .open, cpose := none, delta := none, rein := .none, reined := false, promoted := false, cursor := (0, 0), reached := (0, 0)
    nopose := [], occ := 0
    ports := Vector.replicate 8 PortTally.zero, expiredPts := false, dir := [], refused := [], eccLost := [], pts := []
    refuse := Vector.replicate 4 0, unresolved := 0, incomplete := 0, reopens := 0, gridSat := false, kmBusy := 0, kmNext := 16384
    kmBad := 0, degraded := false, propBad := false, items := [], lostSect := 0, uncovSect := 0, clusterLost := false
    clusterUncov := false, quarTiles := 0, expDropped := false }

/-- Trot with the given epochs live. -/
def withLive (es : List Epoch) : State := { inGait 2 with frm := { FrameSt.reset with live := es } }

/-- A window entry of an untagged instruction, at place 0. -/
def entry0 (op : UOp) (a : UArgs) (qs : List Nat) : UEntry :=
  { seq := 0, op := op, args := a, queues := qs, tag := none, pc := 0, ga := 0, gb := 0, gc := 0, work := some item0, consumed := false
    started := false, armed := [], banks := [], done := 0, touched := [], buf := [], ret := 0, wrote := false, takes := false, drain := []
    ver := 0, rows := [] }

/-- Tile 0 with one instruction in its window. -/
def withEntry (u : UEntry) (f : Tile → Tile := id) : State := tileAt (fun tl => f { tl with window := [u], nextSeq := 1 })

theorem next_of {o : Host.Outcome State Fault Refusal} (h : (match o with | .next _ => true | _ => false) = true) : ∃ t, o = .next t := by
  cases o <;> simp_all

theorem fin_of {p : Prog} (h : (match p with | .fin _ _ => true | _ => false) = true) : ∃ v s, p = .fin v s := by
  cases p <;> simp_all

theorem stay_of {p : Prog} (h : (match p with | .stay _ => true | _ => false) = true) : ∃ s, p = .stay s := by
  cases p <;> simp_all

theorem progFault_of {p : Prog} (h : (match p with | .fault _ _ _ => true | _ => false) = true) : ∃ c a s, p = .fault c a s := by
  cases p <;> simp_all

theorem some_of {α : Type} {o : Option α} (h : o.isSome = true) : ∃ x, o = some x := Option.isSome_iff_exists.mp h

/-! ### Well-formedness -/

/-- An access of 3 bytes, one off its boundary, and one with data wider than it are ill formed (R623). -/
theorem test_wf_access : (Instr.registerWrite 8 0 3 0).wf = false ∧ (Instr.registerWrite 8 2 4 0).wf = false
    ∧ (Instr.registerWrite 8 4 4 0x100000000).wf = false ∧ (Instr.registerWrite 8 4 4 0xFFFFFFFF).wf = true := by decide

/-- The same of reads, aliases, broadcasts, windows and the service port. -/
theorem test_wf_access_forms : ∀ i ∈ [Instr.rcRead 8 2 4 false, .aliasWrite 8 2 4 0, .aliasRead 8 2 4, .hitchBroadcastWrite 8 2 4 0
    , .hitchBroadcastRead 8 2 4, .tileStoreWindowWrite 8 0 2 4 0, .tileStoreWindowRead 8 0 2 4, .svcRead true 4, .svcWrite false 4 0x100000000],
    i.wf = false := by decide

/-- A frame shorter than its header, a flit not of 256 bytes, a poll not of sixteen and a write with data of another length. -/
theorem test_wf_lengths : ∀ i ∈ [Instr.ethFrameReceive 0 true [], .sciFlitReceive 0 [0], .poll false [0], .pollWake true []
    , .pcieInboundRequest 2 true 0 8 [0], .pcieInboundRequest 2 false 0 8 [0]], i.wf = false := by decide

/-- SCI size codes and data lengths Table 15-4 has not. -/
theorem test_wf_sci : let h : SciHdr := ⟨0, 0, false, 9, 0, 0, 0⟩
    ∀ i ∈ [Instr.rd 0 h, .wr 0 h [], .rdr 0 h [0], .ownPush 0 h [0], .msi 0 h [0], .contrib 0 h [0], .crd 0 h, .cwr 0 h [], .crr 0 h [0]],
      i.wf = false := by decide

/-! ### Berbo words -/

/-- Worked case 12-A: the word of MMA.S with its fields. -/
theorem test_case12A : berboDecode 0 0x402020ACA5B01E60#64 =
    some (.mmaS 0 { pmode := 0, pred := 0, wt := 4, wc := 1, st := 5, se := true, sqs := false, ga := 10, gb := 11, gc := 12
                    rd := 0, imm := 0x1E60 }) := by decide

/-! ### The spec's worked cases -/

/-- Worked case 00-B: the first byte of package 2's east half, seen by a package that has that member. -/
theorem test_case00B : (State.reset.put Reg.sciHitchStat 0x44).whereIs 0x80004000000 = .member 2 0x4000000 := by decide +kernel

/-- Worked case 04-B: a correction of 31 mm, no yaw, moves a return at 0 ms by nothing, at 20 ms of 50 ms by 1.24 cm. -/
theorem test_case04B : let d : IvMotion := ⟨⟨ivOf 31, ivOf 0, ivOf 0⟩, ⟨ivOf 1, ivOf 0, ivOf 0, ivOf 0⟩⟩
    let o : IvVec := ⟨ivOf 0, ivOf 0, ivOf 0⟩
    (applyFraction d 0 o).map (·.x) = some (ivOf 0) ∧ (applyFraction d (20 / 50) o).map (·.x) = some (ivOf (124 / 100)) := by decide +kernel

/-- Worked case 06-A: frames 1,279 and 1,280 are live, with tags 255 and 0. -/
theorem test_case06A : let s := State.reset.put (Reg.tileEpoch 0) 0x300FF
    s.classify 0 255 = .older ∧ s.classify 0 0 = .newer ∧ s.classify 0 254 = .stale ∧ s.classify 0 253 = .stale
      ∧ s.classify 0 252 = .invalid := by decide +kernel

/-- Worked case 06-A after frame 1,279 commits: 255 is stale, and 1 is invalid until 1,281 opens. -/
theorem test_case06A_after : let s := State.reset.put (Reg.tileEpoch 0) 0x10000
    s.classify 0 0 = .older ∧ s.classify 0 255 = .stale ∧ s.classify 0 1 = .invalid := by decide +kernel

/-- Worked case 09-B: SCALE 1,800 × 2⁻¹⁸, OFFSET −0.5, and the element stored as 116 or 117. -/
theorem test_case09B :
    ((updateRow false 3 16 0x3CF5C28F [0x00, 0x2C, 0x00, 0xB8, 0, 28, 13] [0, 0, 0x3ECCCCCD] 1).map (fun r => r.1.take 5)
      = some [0x08, 0x1F, 0x00, 0xB8, 0])
    ∧ ((updateRow false 3 16 0x3CF5C28F [0x00, 0x2C, 0x00, 0xB8, 0, 28, 13] [0, 0, 0x3ECCCCCD] 1).map (fun r => (r.1.drop 6).take 1)
      ∈ [some [116], some [117]]) := by decide +kernel

/-- Worked case 11-A: a squashed pass with SQS set signals as it issues; one without does not. -/
theorem test_case11A : (after (.mmaS 0 { uA 0x1E60 with pmode := 1, pred := 1, st := 5, sqs := true }) core).tok 0 5 = 1
    ∧ (after (.mmaS 0 { uA 0x1E60 with pmode := 1, pred := 1, st := 5 }) core).tok 0 5 = 0 := by decide +kernel

/-- Worked case 18-A: under a yaw of 10° (cosine 0.985, sine 0.174) no octant edge falls on a sector's: sector 3 turns to azimuths 125° to
170°, sectors 2 and 3. -/
theorem test_case18A : octantOf (985 / 1000) (174 / 1000) = (0, false) := by decide +kernel

/-- Worked case 19-A: addresses of GAIT_GRP_TILE[5], of a register of tile 21, and of TILE_WDOG through the all-units alias. -/
theorem test_case19A_addresses : selOf 0x8000614 4 = .reg 0x614 ∧ selOf 0x9015298 4 = .unit 0 21 0x298
    ∧ selOf 0xD03F058 4 = .many 0 none 0x58 ∧ isMirror 0xD03F058 = true := by decide +kernel

/-- Worked case 19-A: tiles 16 to 31 in group 5, tile 23 different; what the read and its status are. -/
theorem test_case19A : let s := ((((inGait 2).put (Reg.gaitGrpTile 5) 0xFFFF0000).put (Reg.tileDieStat 1) 1))
    let s := (List.range 16).foldl (fun s k => s.put (Reg.tileState (16 + k)) 0x70001) s
    let s := after (.aliasRead 0 0x9035004 4) (s.put (Reg.tileState 23) 0x90002)
    spGet (fun _ => 0) s.rdata 0 = 0x00070001 ∧ s.rd (Reg.gaitBcastStat 0) = 0x1701 := by decide +kernel

/-! ### Witnesses: the machine, and the control core -/

/-- Thermal shutdown with a clocked command waiting. -/
theorem wit_ThermalShutdownHolds : let s := { core with gait := { core.gait with thermtrip := true }, pending := [.commit] }
    s.gait.thermtrip = true ∧ s.pending.head? ≠ some .powerOnReset ∧ (∃ t, step s = .next t)
      ∧ ∀ c, s.pending.head? = some c → c.unclocked = false :=
  ⟨rfl, by decide, next_of (by decide +kernel), by intro c h; cases h; rfl⟩

theorem wit_StepRunsFront : let s := { State.reset with pending := [.commit, .frameBoundary] }
    s.pending = .commit :: [.frameBoundary] := rfl

theorem wit_BerboRoundTrip : (∃ c o, ccWord (.add 31 (ccA 0xFFFFFFFF)) = some (31, c, o, ccA 0xFFFFFFFF))
    ∧ (∃ c o, unitWord (.treWalk 0 (uA 0x1FFF)) = some (0, c, o, uA 0x1FFF)) ∧ ∃ i, berboDecode 0 0x0400088300000000#64 = some i :=
  ⟨⟨_, _, rfl⟩, ⟨_, _, rfl⟩, some_of (by decide)⟩

theorem wit_IntegerResults : CcGo core 0 (ccA 0) .both .other [(ccA 0).rs1.toNat, (ccA 0).rs2.toNat] [(ccA 0).rd.toNat]
    ∧ CcGo core 0 (ccA 0) .both .other [(ccA 0).rs1.toNat] [(ccA 0).rd.toNat]
    ∧ CcGo handler 0 { ccA 0 with rd := 0 } .both .other [] [0] := by decide +kernel

theorem wit_WriteBackFrame : ({ ccA 0 with rd := 0 } : CcArgs).rd.toNat < 8 ∧ ({ ccA 0 with rd := 7 } : CcArgs).rd.toNat < 8 := by decide

/-- A target on a multiple of 8, and one 4 beyond it, forward and back. -/
theorem wit_BranchResults : CcGo core 0 (ccA 8) .both .other [(ccA 8).rs1.toNat, (ccA 8).rs2.toNat] []
    ∧ (core.branchTo 0 (ccA 8)).toNat % 8 = 0 ∧ (core.branchTo 0 (ccA 12)).toNat % 8 ≠ 0 ∧ (core.branchTo 0 (ccA 0xFFFFFFFC)).toNat % 8 ≠ 0
    ∧ CcGo core 0 (ccA 12) .both .other [(ccA 12).rs1.toNat, (ccA 12).rs2.toNat] []
    ∧ CcGo core 0 (ccA 8) .both .other [] [(ccA 8).rd.toNat]
    ∧ CcGo core 0 (ccA 8) .both .other [(ccA 8).rs1.toNat] [(ccA 8).rd.toNat] := by decide +kernel

theorem wit_PredicateResults : let a : CcArgs := { ccA 0 with rd := 7, rs1 := 7, rs2 := 0 };
    a.rd.toNat < 8 ∧ a.rs1.toNat < 8 ∧ a.rs2.toNat < 8 ∧ CcGo core 0 a .both .other [a.rs1.toNat, a.rs2.toNat] []
    ∧ CcGo core 0 a .both .other [a.rs1.toNat] [] ∧ CcGo core 0 a .both .other [] [] := by decide +kernel

/-- The last doubleword and the last word of the tile store. -/
theorem wit_TileStoreAccess : let a : CcArgs := { ccA 0x2FFFF8 with rs1 := 0 };
    core.ctxClass 0 ≠ .stale ∧ core.ctxClass 0 ≠ .invalid ∧ core.ea 0 a = 0x2FFFF8 ∧ core.ea 0 a % 8 = 0 ∧ core.ea 0 a % 4 = 0
    ∧ CcGo core 0 a .both .other [a.rs1.toNat] [a.rd.toNat] ∧ CcGo core 0 a .both .other [a.rs1.toNat, a.rs2.toNat] []
    ∧ core.tsCheck 0 core.tiles[0].ctx false (core.ea 0 a) 8 = .ok () ∧ core.tsCheck 0 core.tiles[0].ctx true (core.ea 0 a) 8 = .ok ()
    ∧ core.tsCheck 0 core.tiles[0].ctx true (core.ea 0 { a with imm := 0x2FFFFC }) 4 = .ok () := by decide +kernel

/-- A tile whose TLB maps a page at 0. -/
def mapped : State := tileAt (fun tl => { tl with satp := 9 * 2 ^ 60, tlb := [⟨0, 0, 4096, 0, true⟩] })

theorem wit_DeviceAccess : let a : CcArgs := { ccA 0xFF8 with rs1 := 0 };
    mapped.ctxClass 0 ≠ .stale ∧ mapped.ctxClass 0 ≠ .invalid ∧ mapped.ea 0 a % 8 = 0 ∧ mapped.devAddr 0 (mapped.ea 0 a) 8 false = .ok 0xFF8
    ∧ mapped.devAddr 0 (mapped.ea 0 a) 8 true = .ok 0xFF8 ∧ mapped.devAddr 0 (mapped.ea 0 a) 4 true = .ok 0xFF8
    ∧ mapped.whereIs 0xFF8 = .here 0xFF8 ∧ CcGo mapped 0 a .both .coreMem [a.rs1.toNat] [a.rd.toNat]
    ∧ CcGo mapped 0 a .both .coreMem [a.rs1.toNat, a.rs2.toNat] [] ∧ mapped.inWindow 0 mapped.tiles[0].ctx 0xFF8 8 = true
    ∧ (mapped.tiles[0].sbPut 0xFF8 (toLe 1 8) none).isSome = true := by decide +kernel

/-- A count taken and one not there yet; no waiter at the head of a queue; a signal to 65,535 and one past it. -/
theorem wit_TokensAndFences : let a := ccA 0x1000F
    CcGo core 0 a .item .other [] [] ∧ tokenArgsOk a = true ∧ core.tok 0 (bitsN a.imm.toNat 3 0) + bitsN a.imm.toNat 31 16 ≤ 65535
    ∧ (∀ q < 8, core.tiles[0].waiter (fun u => !(core.tiles[0].blocked u)) q = none)
    ∧ (let s := core.put (Reg.tileToken 0 15) 65535
       CcGo s 0 a .item .other [] [] ∧ 65535 < s.tok 0 (bitsN a.imm.toNat 3 0) + bitsN a.imm.toNat 31 16)
    ∧ CcGo core 0 (ccA 0) .both .other [] [] := by decide +kernel

/-- EPOCH.BEGIN of the older and of the newer of two live epochs, with segments 0 and 47; COMMIT in an epoch; REIN with and without one. -/
theorem wit_EpochInstructions :
    let g := fun (n : Nat) => (tileAt (fun tl => (tl.setG 1 (BitVec.ofNat 64 n)).setG 2 0x800000000001)).put (Reg.tileEpoch 0) 0x30605;
    (∀ n ∈ [5, 6], let s := g n
      CcGo s 0 (ccA 0xFFFF) .item .other [(ccA 0xFFFF).rs1.toNat, (ccA 0xFFFF).rs2.toNat] [] ∧ s.tiles[0].ctx = none
      ∧ (s.classify 0 ((s.rs1 0 (ccA 0xFFFF)).toNat % 256) = .older ∨ s.classify 0 ((s.rs1 0 (ccA 0xFFFF)).toNat % 256) = .newer)
      ∧ s.tiles[0].claimed.toList.getD (n % 2) none ≠ some n ∧ s.fld (Reg.tileEpoch 0) 17 16 = 3
      ∧ (ccA 0xFFFF).imm.toNat % 65536 &&& bitsN (s.rd (Reg.tileEpochTok 0)) (16 * (1 - n % 2) + 15) (16 * (1 - n % 2)) = 0
      ∧ ∀ k < 48, bitN (s.rs2 0 (ccA 0xFFFF)).toNat k = true → s.segState 0 k = 0)
    ∧ (let s := tileAt (fun tl => { tl with ctx := some 5 }); CcGo s 0 (ccA 0) .item .other [] [] ∧ s.tiles[0].ctx ≠ none)
    ∧ (let s := { handler with frm := { FrameSt.reset with live := [epoch0 256] } };
      CcGo s 0 (ccA 0) .handler .other [(ccA 0).rs1.toNat] []
      ∧ (s.frm.live.find? (fun e => e.frame % 256 == (s.rs1 0 (ccA 0)).toNat % 256)).isSome = true
      ∧ handler.frm.live.find? (fun e => e.frame % 256 == (handler.rs1 0 (ccA 0)).toNat % 256) = none) := by decide +kernel

theorem wit_SystemInstructions : CcGo core 0 (ccA 0) .item .other [] []
    ∧ CcGo core 0 (ccA 0xFF8) .both .other [] [(ccA 0xFF8).rd.toNat] ∧ (ccA 0xFF8).imm.toNat % 8 = 0
    ∧ CcGo handler 0 (ccA 0x600) .handler .other [(ccA 0x600).rs1.toNat] [] ∧ (ccA 0x600).imm.toNat % 4096 = 0x600
    ∧ CcGo handler 0 (ccA 0x630) .handler .other [(ccA 0x630).rs1.toNat] [] ∧ (ccA 0x630).imm.toNat % 4096 = 0x618 + 8 * (3 : Fin 4).val
    ∧ CcGo handler 0 (ccA 0) .handler .other [] [] := by decide +kernel

/-- A PC off a multiple of 8; PMODE 3; a predicate that does not let issue. -/
theorem wit_IssueChecks : let s := tileAt (fun tl => { tl with pc := 4 });
    (∃ c o, ccWord (.add 0 (ccA 0)) = some (0, c, o, ccA 0)) ∧ (∃ c o, unitWord (.mmaS 0 (uA 0)) = some (0, c, o, uA 0))
    ∧ s.coreRuns 0 = true ∧ s.fetchCheck 0 = .fault .illegal 4 ∧ core.coreRuns 0 = true ∧ core.fetchCheck 0 = .ok ()
    ∧ (∃ c o, ccWord (.add 0 { ccA 0 with pmode := 3 }) = some (0, c, o, { ccA 0 with pmode := 3 })) ∧ Fetches core 0
    ∧ (1 : BitVec 2) ≠ 3 ∧ predPass core.tiles[0].p 1 0 = false ∧ core.inHandler 0 = false
    ∧ ∀ x ∈ passOps, ∃ m ∈ ([0x200, 0x600, 0x1E00] : List (BitVec 13)), passDecode x.1 { uA m with pmode := 1 } = true :=
  ⟨⟨_, _, rfl⟩, ⟨_, _, rfl⟩, by decide +kernel, by decide +kernel, by decide +kernel, by decide +kernel, ⟨_, _, rfl⟩, by decide +kernel
   , by decide, by decide +kernel, by decide +kernel, by decide +kernel⟩

/-! ### Witnesses: the units -/

/-- A unit word with its last four operand fields 0. -/
def uB (imm : BitVec 13) : UArgs := ⟨0, 0, 0, 0, 0, false, false, 10, 0, 0, 0, imm⟩

/-- Hoard tables 1 to 3 in formats 1 to 3, and 0 in format 0. -/
def tables : State :=
  let s := ((core.put (Reg.hrdTblCfg 1) 1).put (Reg.hrdTblCfg 2) 2).put (Reg.hrdTblCfg 3) 3
  { s with inForce := s.regs }

/-- Each pass with a mask its form allows. -/
def passArgs : List (UOp × BitVec 13) :=
  [(.mmaP, 0x200), (.mmaD, 0x600), (.mmaS, 0x1E00), (.mmaW, 0x1E00), (.mmaPZ, 0x1000), (.mmaDZ, 0x1800), (.mmaSZ, 0x1E00)]

theorem wit_UnitIssue_pass : passArgs.map (·.1) = passOps.map (·.1) ∧ ∀ x ∈ passArgs,
    UGo core 0 x.1 (uA x.2) (passDecode x.1 (uA x.2)) (arrQueues (uA x.2)) (uGs (uA x.2)) true := by decide +kernel

theorem wit_UnitIssue_wld : ∀ x ∈ wldOps,
    UGo core 0 x.1 (uB 0x1E00) (wldDecode x.1 (uB 0x1E00)) (arrQueues (uB 0x1E00)) (uGs (uB 0x1E00)) true := by decide +kernel

theorem wit_UnitIssue_swap : let a := { uB 0x1E00 with ga := 0 }
    UGo core 0 .swap a (swapDecode a) (arrQueues a) (uGs a) true := by decide +kernel

theorem wit_UnitIssue_vec : ∀ x ∈ vecOps, ∃ g ∈ ([0, 10] : List (BitVec 5)),
    UGo core 0 x.1 { uB 0 with ga := g } (vecDecode x.1 { uB 0 with ga := g }) [4] (vecGs x.1 { uB 0 with ga := g }) true := by
  decide +kernel

theorem wit_UnitIssue_quill : ∀ x ∈ quillOps, UGo core 0 x.1 (uB 0) (quillDecode x.1 (uB 0)) [5] (uGs (uB 0)) true := by decide +kernel

/-- Each Hoard instruction with a table whose format suits it. -/
def hoardArgs : List (UOp × BitVec 13) :=
  [(.gath, 0), (.gathR, 0), (.gathQ8, 0x200), (.gathQ4, 0x400), (.gathPf, 0), (.hlook, 0), (.scat, 0), (.hpref, 0), (.hupdQ8, 0x200), (.hupdQ4, 0x400)]

theorem wit_UnitIssue_hoard : hoardArgs.map (·.1) = hoardOps.map (·.1) ∧ ∀ x ∈ hoardArgs, UGo tables 0 x.1 (uB x.2)
    (hoardDecode x.1 (uB x.2) && formatOk x.1 (tables.hoardFmt 0 (uB x.2))) [6] (uGs (uB x.2))
    (!((x.1 == .hupdQ8 || x.1 == .hupdQ4) && tables.tiles[0].ctx.isSome)) := by decide +kernel

theorem wit_UnitIssue_tree : ∀ x ∈ treeOps, UGo core 0 x.1 (uB 0) (treeDecode x.1 (uB 0)) [7] (uGs (uB 0)) true := by decide +kernel

/-- Starts: a wait for a count that is not there; one whose checks pass, one whose page misses, one that faults; one whose value does not
suit it; HPREF with four lists open; a device VLD while the bond traffic is held. -/
theorem wit_UnitStart :
    (let u := entry0 .vadd { uA 0 with wt := 15, wc := 15 } [4]
     (withEntry u).alive = true ∧ (withEntry u).tiles[0].startable (4 : Fin 8).val = some u ∧ (withEntry u).valuesOk 0 u = true
       ∧ (withEntry u).takeWait 0 u 4 = none ∧ u.consumed = false ∧ u.args.wc.toNat ≠ 0
       ∧ (let left := fun (s : State) => s.tokLeft 0 (fun v => !(s.tiles[0].blocked v) && v.seq != u.seq) 15 4
         left (withEntry u) < u.args.wc.toNat ∧ left ((withEntry u).put (Reg.tileToken 0 15) 15) = u.args.wc.toNat))
    ∧ (let u := entry0 .vadd (uA 0) [4]
      (withEntry u).tiles[0].startable (4 : Fin 8).val = some u ∧ (withEntry u).takeWait 0 u 4 = some (withEntry u)
        ∧ (withEntry u).valuesOk 0 u = true ∧ (withEntry u).entry 0 u.seq = some u ∧ (withEntry u).checkU 0 u = .ok [])
    ∧ (let u := { entry0 .vld (uA 4) [4] with gb := 0x1000 }
      let s := withEntry u (fun tl => { tl with satp := 9 * 2 ^ 60 })
      s.tiles[0].startable (4 : Fin 8).val = some u ∧ s.valuesOk 0 u = true ∧ s.takeWait 0 u 4 = some s ∧ s.checkU 0 u = .miss 0x1000 false
        ∧ s.bondHeld 0 = false)
    ∧ (let u := { entry0 .vld (uA 0) [4] with gb := 1 }
      (withEntry u).tiles[0].startable (4 : Fin 8).val = some u ∧ (withEntry u).valuesOk 0 u = true ∧ (withEntry u).checkU 0 u = .fault .address 1)
    ∧ (let u := entry0 .qmrgU (uA 17) [5]
      (withEntry u).tiles[0].startable (5 : Fin 8).val = some u ∧ (withEntry u).valuesOk 0 u = false) := by
  decide +kernel

theorem wit_UnitStart_held :
    (let u := entry0 .hpref (uB 0) [6]
     let s := withEntry u (fun tl => { tl with prefetch := List.replicate 4 ⟨0, 0, [1], [], 0, none, 1, []⟩ })
     s.tiles[0].startable (6 : Fin 8).val = some u ∧ s.valuesOk 0 u = true ∧ s.takeWait 0 u 6 = some s ∧ s.entry 0 u.seq = some u
       ∧ 4 ≤ s.tiles[0].openLists)
    ∧ (let u := entry0 .vld (uA 4) [4]
      let s := withEntry u (fun tl => { tl with loads := [⟨1, none, 0, 8, [], none, none, none, none, true⟩] })
      let s := { s with stack := { s.stack with holdT := #v[2000000, 0] } }
      s.tiles[0].startable (4 : Fin 8).val = some u ∧ s.valuesOk 0 u = true ∧ s.takeWait 0 u 4 = some s ∧ u.op = .vld
        ∧ bitN u.args.imm.toNat 2 = true ∧ s.bondHeld 0 = true) := by decide +kernel

/-- Retirement: one that completes and signals, with its scalar result; one that waits; one that has not started, and one behind it in its
queue; a weight load behind a pass; a label store while the bond traffic is held. -/
theorem wit_UnitRetire :
    (let u := { entry0 .vrsum { uA 0 with rd := 1, se := true, st := 15, ga := 0, gc := 0 } [4] with started := true }
     (withEntry u).alive = true ∧ (withEntry u).tiles[0].first (4 : Fin 8).val = some u ∧ u.started = true
       ∧ (∀ k ∈ u.queues, ((withEntry u).tiles[0].first k).map (·.seq) = some u.seq) ∧ u.op.scalar = true ∧ u.args.rd ≠ 0 ∧ u.op.isWld = false)
    ∧ (let u := { entry0 .vadd (uA 0) [4] with started := true }; ∃ v s1, (withEntry u).stepU 0 u = .fin v s1)
    ∧ (let u := { entry0 .vld (uA 4) [4] with started := true }
      let s := withEntry u (fun tl => { tl with loads := [⟨0, some (0, 0), 0, 64, [], none, none, none, none, false⟩] })
      s.tiles[0].first (4 : Fin 8).val = some u ∧ ∃ s1, s.stepU 0 u = .stay s1)
    ∧ (let u := entry0 .vadd (uA 0) [4]; (withEntry u).tiles[0].first (4 : Fin 8).val = some u ∧ u.started = false
        ∧ (withEntry u).tiles[0].wldOf 4 = none) :=
  ⟨by decide +kernel, fin_of (by decide +kernel), ⟨by decide +kernel, stay_of (by decide +kernel)⟩, by decide +kernel⟩

theorem wit_UnitRetire_behind :
    (let p := { entry0 .mmaS (uA 0x200) [0, 1] with started := true }
     let w := { entry0 .wld (uB 0x200) [0] with seq := 1, started := true }
     let s := tileAt (fun tl => { tl with window := [entry0 .mmaS (uA 0x200) [1], { p with seq := 2 }, { w with seq := 3 }], nextSeq := 4 })
     s.tiles[0].first (0 : Fin 8).val = some { p with seq := 2 } ∧ ¬ (∀ k ∈ p.queues, (s.tiles[0].first k).map (·.seq) = some 2)
       ∧ s.tiles[0].wldOf 0 = some { w with seq := 3 })
    ∧ (let u := { entry0 .lblSt (uA 0) [4] with started := true }
      let s := withEntry u (fun tl => { tl with loads := [⟨1, none, 0, 8, [], none, none, none, none, true⟩] })
      let s := { s with stack := { s.stack with holdT := #v[2000000, 0] } }
      s.tiles[0].first (4 : Fin 8).val = some u ∧ (∀ k ∈ u.queues, (s.tiles[0].first k).map (·.seq) = some u.seq) ∧ s.bondHeld 0 = true) := by
  decide +kernel

/-- A SWAP of the arrays that the mask names, the shadow bank of array 0 complete. -/
def swapEntry (m : BitVec 13) : UEntry := entry0 .swap { uB m with ga := 0 } (arrQueues (uB m))

/-- Tile 0 with that SWAP. -/
def swapState (m : BitVec 13) : State :=
  withEntry (swapEntry m) (fun tl => tl.modArr 0 (fun r => { r with shadow := { r.shadow with full := true } }))

/-- A SWAP of one array, and of all four; with a swap armed, and with no shadow bank complete. -/
theorem wit_SwapArms :
    (∀ m ∈ [(0x200 : BitVec 13), 0x1E00], (swapState m).alive = true ∧ (swapState m).tiles[0].head (0 : Fin 4).val = some (swapEntry m)
      ∧ (swapEntry m).op = .swap ∧ (swapState m).tiles[0].blocked (swapEntry m) = false ∧ (swapState m).tiles[0].swapDue (0 : Fin 4).val = false
      ∧ (swapState m).entry 0 (swapEntry m).seq = some (swapEntry m)
      ∧ (swapState m).tiles[0].arr[(0 : Fin 4)].armed = false ∧ (swapState m).tiles[0].arr[(0 : Fin 4)].shadow.full = true)
      ∧ (swapEntry 0x200).queues.all (fun k => ((0 : Fin 4).val :: (swapEntry 0x200).armed).contains k) = true
      ∧ (swapEntry 0x1E00).queues.all (fun k => ((0 : Fin 4).val :: (swapEntry 0x1E00).armed).contains k) = false
      ∧ (let s := withEntry (swapEntry 0x200); s.tiles[0].arr[(0 : Fin 4)].shadow.full = false ∧ s.tiles[0].arr[(0 : Fin 4)].armed = false)
      ∧ (let s := withEntry (swapEntry 0x200) (fun tl => tl.modArr 0 (fun r => { r with armed := true }))
        s.tiles[0].head (0 : Fin 4).val = some (swapEntry 0x200) ∧ s.tiles[0].arr[(0 : Fin 4)].armed = true)
      ∧ (let u := { swapEntry 0x200 with args := { (swapEntry 0x200).args with wc := 1 } }; (withEntry u).takeWait 0 u 0 = none) := by
  decide +kernel

theorem wit_SwapArms_wait (m : BitVec 13) : (swapState m).takeWait 0 (swapEntry m) 0 = some (swapState m) := by
  simp [State.takeWait, swapEntry, entry0, uB]

theorem wit_VectorLanes : let u := entry0 .vshl (uA 2) [4]
    u.op ∈ [UOp.vadd, .vsub, .vmul, .vmax, .vmin, .vand, .vor, .vxor, .vshl, .vshr]
      ∧ (0xFFFFFFFE + 1 < 2 ^ 32) ∧ (0 ≤ 5) ∧ (65535 * 65537 < 2 ^ 32) ∧ (31 < 32)
      ∧ ((-2 ^ 31 : Int) ≤ -2 ^ 31 + 0 ∧ (2 ^ 31 - 2 : Int) + 1 < 2 ^ 31) := by decide +kernel

/-- Two products of the largest magnitude. -/
theorem wit_AccumulatorExact : let xs := [(0, 0x80), (1, 0x80)]; let w := fun (_ : Nat) => (-128 : Int);
    (0x7FFF0000 : Nat) < 2 ^ 32 ∧ ∀ n ≤ xs.length, -2 ^ 31 ≤ sint 32 0x7FFF0000 + ((xs.take n).map (fun e => sint 8 e.2 * w e.1)).sum
      ∧ sint 32 0x7FFF0000 + ((xs.take n).map (fun e => sint 8 e.2 * w e.1)).sum < 2 ^ 31 := by decide +kernel

/-- A request served, one dropped and one that waits for a slot; a lookup; a prefetched row; a load of the control core. -/
theorem wit_UnitResponses : let q : GatherReq := ⟨0, 0, 0, 0, 0, 64, 0, none, 0, none, false, none, none, some 0, [], none, false⟩
    (∀ d : Bool, let s := tileAt (fun tl => { tl with gathers := [{ q with drop := d }] })
      s.alive = true ∧ (s.fillSlots 0).tiles[0].gathers[0]? = some { q with drop := d } ∧ q.home ≠ none ∧ q.look = none ∧ q.lost = none)
    ∧ (let s := tileAt (fun tl => { tl with gathers := (List.range 128).map (fun i => { q with elem := i }) ++ [{ q with home := none }] })
      (s.fillSlots 0).tiles[0].gathers[128]? = some { q with home := none })
    ∧ (let s := tileAt (fun tl => { tl with gathers := [q, { q with look := some 0 }] })
      (s.fillSlots 0).tiles[0].gathers.find? (fun q => q.look.isSome && q.lost.isNone) = some { q with look := some 0 })
    ∧ (let s := tileAt (fun tl => { tl with prefetch := [⟨0, 0, [1], [], 0, none, 1, [(0, 0)]⟩] })
      (s.fillSlots 0).tiles[0].pfOut[0]?.isSome = true)
    ∧ (let l : LoadReq := ⟨31, none, 0x40, 8, [], none, none, none, none, false⟩
      let s := tileAt (fun tl => { tl with loads := [l] })
      s.tiles[0].loads[0]? = some l ∧ l.remote = none ∧ l.lost = none ∧ l.vec = none ∧ l.tag = none ∧ l.dst ≠ 0 ∧ l.dst < 32
        ∧ s.area l.addr ≠ .pcie ∧ s.mem.soft = []
        ∧ s.mem.badIn (l.addr / 64 * 64) ((l.addr + l.len + 63) / 64 * 64 - l.addr / 64 * 64) = []) := by decide +kernel

/-- A page table at 0x1000 that maps one gigabyte at 0, and one whose root is empty; a walk while every slot of the walker is taken. -/
theorem wit_WalkEnds :
    (let w : Walk := ⟨0x40, true, none, false, none, true⟩
     let s := { tileAt (fun tl => { tl with satp := 9 * 2 ^ 60 + 1, walks := [w] }) with
       mem := { State.reset.mem with burFill := none, cells := [⟨0x1000, 0x01⟩, ⟨0x1001, 0x08⟩, ⟨0x2000, 0xD7⟩] } }
     let s1 := s.modTile 0 (fun tl => { tl with walks := [] })
     s.alive = true ∧ s.nextWalk 0 = some w ∧ (s1.walkFor s1.tiles[0] w.vaddr w.store).1 = .entry ⟨0, 0, 2 ^ 30, 0, true⟩)
    ∧ (∀ w ∈ [(⟨0x40, true, some 0, false, none, true⟩ : Walk), ⟨0x40, false, none, true, none, true⟩, ⟨0x40, false, none, false, none, true⟩],
      let s := { tileAt (fun tl => { tl with satp := 9 * 2 ^ 60 + 1, walks := [w] }) with mem := { State.reset.mem with burFill := none } }
      let s1 := s.modTile 0 (fun tl => { tl with walks := [] })
      s.nextWalk 0 = some w ∧ (s1.walkFor s1.tiles[0] w.vaddr w.store).1 = .fault false
        ∧ (s1.walkFor s1.tiles[0] w.vaddr w.store).2.coreRuns 0 = true)
    ∧ (let w : Walk := ⟨0x40, true, none, false, none, false⟩
      let s := (tileAt (fun tl => { tl with walks := [w] })).modTile 1 (fun tl => { tl with walks := List.replicate 16 { w with slot := true } })
      s.nextWalk 0 = none ∧ s.tiles[0].walks ≠ []) := by decide +kernel

/-- An entry of the store buffer whose line lies at the end of burrow memory, and one of the scatter stage. -/
theorem wit_AcceptedEntries : let e : SbEntry := ⟨0x7FFFFC0, [⟨0, 1⟩, ⟨63, 2⟩], none, 0, false, []⟩
    let x : ScatEntry := ⟨0, 0, 0, [(0x100, [1])], none, false, 0, 0, []⟩
    let s := tileAt (fun tl => { tl with sb := [{ e with line := 0 }, e], scat := [x] })
    s.alive = true ∧ s.bondHeld 0 = false ∧ s.tiles[0].sb[1]? = some e ∧ e.accepted = false ∧ (∀ y ∈ s.tiles[0].sb.take 1, y.line ≠ e.line)
      ∧ (∀ l ∈ s.tiles[0].loads, l.addr % 2 ^ 42 / 64 * 64 ≠ e.line % 2 ^ 42) ∧ s.whereIs e.line = .here 0x7FFFFC0
      ∧ s.area 0x7FFFFC0 ≠ .pcie ∧ s.mem.bad = [] ∧ s.mem.soft = [] ∧ e.bytes.Pairwise (fun x y => x.1 < y.1) ∧ (∀ c ∈ e.bytes, c.1 < 64)
      ∧ s.tiles[0].scat[0]? = some x ∧ x.accepted = false
      ∧ (∀ y ∈ s.tiles[0].scat.take 0, ¬ (y.table = x.table ∧ y.row = x.row)) ∧ (∀ p ∈ x.parts, s.whereIs p.1 = .here p.1 ∧ s.area p.1 ≠ .pcie) := by
  decide +kernel

/-- An exception of the control core, and one of an instruction that had taken its wait. -/
theorem wit_HandlerEntry : let x : ExcRec := ⟨1, none, 0, 0, 8, 0, none, some item0, false⟩
    let y : ExcRec := { x with entry := some { entry0 .vadd { uA 0 with wt := 15, wc := 15 } [4] with consumed := true } }
    (∀ z ∈ [x, y], let s := tileAt (fun tl => { tl with exc := some z })
      s.alive = true ∧ s.tiles[0].exc = some z ∧ s.bit (Reg.tileHstat 0) 0 = false ∧ s.tiles[0].window = []
        ∧ (∀ e ∈ s.tiles[0].sb, e.accepted = true) ∧ ∀ e ∈ s.tiles[0].scat, e.accepted = true)
    ∧ (∀ e, x.entry = some e → e.consumed = false) ∧ (y.entry.map (·.consumed)) = some true := by
  intro x y
  refine ⟨by decide +kernel, ?_, by decide +kernel⟩
  intro e h
  cases h

theorem wit_TokenOverflow : let s := core.put (Reg.tileToken 0 15) 65535
    65535 < s.tok 0 (15 : Fin 16) + 1 := by decide +kernel

/-! ### Witnesses: control space -/

/-- An access error of each cause, and one in the broadcast mirror's own part of the address map. -/
theorem wit_AccessErrors :
    (inGait 2).alive = true
    ∧ (inGait 2).accCheck 8 true (selOf 0x8280000 4) 4 = some .reserved ∧ (inGait 2).accCheck 0 false (selOf 0x8000602 4) 4 = some .reserved
    ∧ (inGait 2).accCheck 8 true (selOf (csOffset Reg.gaitWdog) 4) 4 = some .hostOnly
    ∧ (inGait 2).accCheck 10 false (selOf (csOffset Reg.gaitWdog) 4) 4 = some .hostOnly
    ∧ ((inGait 2).put Reg.gaitAccLock 1).accCheck 8 true (selOf 0x8000614 4) 4 = some .locked
    ∧ (inGait 0).accCheck 0 true (selOf (csOffset Reg.ingCtrl) 4) 4 = some .unreachable
    ∧ selOf 0x8280000 4 = .reserved ∧ isMirror 0x8280000 = false ∧ isMirror 0xC280000 = true := by decide +kernel

/-- A word and a doubleword written; a register of each access code. -/
theorem wit_UnicastWrites : (inGait 1).alive = true ∧ isMirror 0x8000610 = false
    ∧ (inGait 1).accCheck 8 true (selOf 0x8000610 8) 8 = none ∧ selWords (selOf 0x8000610 8) 8 = [0x610, 0x614]
    ∧ selWords (selOf 0x8000614 4) 4 ≠ []
    ∧ (regAt 0x614).map (·.1.acc) = some .rw ∧ (regAt Reg.gaitWakeEn).map (·.1.acc) = some .rws
    ∧ (regAt Reg.gaitWakeSrc).map (·.1.acc) = some .w1c ∧ (regAt Reg.gaitTemp).map (·.1.acc) = some .ro
    ∧ (regAt Reg.evtCntAccerr).map (·.1.acc) = some .rc := by decide +kernel

/-- A 32-bit counter, half of a 64-bit counter, and the whole of it; the cycle counter of a tile. -/
theorem wit_RcReads : let b := Reg.hrdCpyCntBytes 0
    (inGait 2).alive = true ∧ isMirror (csOffset Reg.evtCntAccerr) = false ∧ isMirror (csOffset b) = false
    ∧ selWords (selOf (csOffset Reg.evtCntAccerr) 4) 4 = [Reg.evtCntAccerr] ∧ selWords (selOf (csOffset b) 4) 4 = [b]
    ∧ selWords (selOf (csOffset b) 8) 8 = [b, b + 4]
    ∧ (inGait 2).accCheck 8 false (selOf (csOffset Reg.evtCntAccerr) 4) 4 = none ∧ (inGait 2).accCheck 8 false (selOf (csOffset b) 4) 4 = none
    ∧ (inGait 2).accCheck 8 false (selOf (csOffset b) 8) 8 = none
    ∧ (regAt Reg.evtCntAccerr).map (fun x => (x.1.acc, x.2, x.1.words)) = some (.rc, 0, 1)
    ∧ (regAt b).map (fun x => (x.1.acc, x.2, x.1.words)) = some (.rc, 0, 2)
    ∧ (regAt (b + 4)).map (fun x => (x.1.acc, x.2, x.1.words)) = some (.rc, 1, 2)
    ∧ ¬ (0xA0000 ≤ b ∧ b < 0xC0000) ∧ b ≠ Reg.gaitAccErr ∧ b ≠ Reg.gaitAccErr + 4
    ∧ ¬ (Reg.hltVerdictFrame ≤ b ∧ b < Reg.hltVerdictTime + 8) ∧ ¬ (0xA0000 ≤ Reg.evtCntAccerr ∧ Reg.evtCntAccerr < 0xC0000)
    ∧ ¬ (Reg.hltVerdictFrame ≤ Reg.evtCntAccerr ∧ Reg.evtCntAccerr < Reg.hltVerdictTime + 8)
    ∧ ∀ t : TileId, Reg.evtCntAccerr ≠ Reg.tileCntCycles t ∧ b ≠ Reg.tileCntCycles t := by decide +kernel

theorem wit_RcReads_cycles : let s := (inGait 2).put (Reg.tileDieStat 1) 1
    let b := Reg.tileCntCycles 31
    let off := 0x8000000 + b
    s.alive = true ∧ isMirror off = false ∧ selWords (selOf off 4) 4 = [b] ∧ selWords (selOf off 8) 8 = [b, b + 4]
    ∧ s.accCheck 8 false (selOf off 8) 8 = none ∧ (regAt b).map (fun x => (x.1.acc, x.2, x.1.words)) = some (.rc, 0, 2)
    ∧ (regAt (b + 4)).map (fun x => (x.1.acc, x.2, x.1.words)) = some (.rc, 1, 2)
    ∧ ¬ (0xA0000 ≤ b ∧ b < 0xC0000) ∧ ¬ (Reg.hltVerdictFrame ≤ b ∧ b < Reg.hltVerdictTime + 8) ∧ b ≠ Reg.gaitAccErr := by decide +kernel

/-- An external host while nothing is locked; ingest off, and on; a lead whose frame timer is stopped, with an origin 100 µs away. -/
theorem wit_GaitRegisterCommands : MayWrite (inGait 0) 8 ∧ MayWrite ((inGait 3).put Reg.gaitAccLock 7) 0
    ∧ (inGait 1).bit Reg.ingCtrl 0 = false ∧ (inGait 1).frm.live = []
    ∧ ((inGait 2).put Reg.ingCtrl 1).bit Reg.ingCtrl 0 = true
    ∧ (let s := (inGait 1).put64 Reg.gaitFrmOrigin 1100000
      s.gait.lead = true ∧ s.bit Reg.gaitStat 6 = false ∧ s.time + 100000 ≤ s.rd64 Reg.gaitFrmOrigin) := by decide +kernel

/-- The fused count below, at and above what is written; the key service free; the watchdog off and on; a requester of each class. -/
theorem wit_HostOnlyCommands : (inGait 1).alive = true ∧ (7 : ReqId).val < 8 ∧ 8 ≤ (8 : ReqId).val ∧ 8 ≤ (10 : ReqId).val
    ∧ (inGait 1).gait.svn.toNat < (1 : BitVec 32).toNat ∧ (63 : BitVec 32).toNat ≤ 63 ∧ (0 : BitVec 32).toNat ≤ (inGait 1).gait.svn.toNat
    ∧ 63 < (64 : BitVec 32).toNat ∧ (inGait 1).bit Reg.gaitIdkStat 3 = false ∧ (inGait 1).gait.idk = none
    ∧ (inGait 1).gait.wdogOn = false ∧ (1 : BitVec 32).toNat ≠ 0
    ∧ { (inGait 1).gait with wdogOn := true }.wdogOn = true := by decide +kernel

/-- A requester in Walk; for the split, a multiple of 1,024 within the sum and at its limit, one past it and one that is no multiple. -/
theorem wit_BaseRegisterCommands : MayWrite (inGait 1) 10 ∧ (inGait 1).gaitN ≠ 0
    ∧ (let sum := (((List.range 4).filter (· ≠ (0 : Fin 4).val)).map (fun k => (inGait 1).rd (Reg.dreySplit k))).sum
      1048576 % 1024 = 0 ∧ 1048576 + sum ≤ 1572864 ∧ 1572864 < 1048576 + 1024 + sum ∧ 1023 % 1024 ≠ 0)
    ∧ (100 ≤ 200 ∧ (200 : Nat) < 2 ^ 32 ∧ Reg.ingPoseDl ≠ Reg.ingCfgEvt ∧ (99 < 100 ∨ 200 < 99)) := by decide +kernel

/-- Tile 31 with its die present, and absent. -/
theorem wit_TileSlotCommands : let s := (inGait 1).put (Reg.tileDieStat 1) 1
    MayWrite s 8 ∧ s.tileReach (31 : TileId) = true ∧ (inGait 1).tileReach (31 : TileId) = false ∧ s.fld (Reg.tileState 31) 31 16 = 0 := by
  decide +kernel

/-- An alias with members, and with reachable ones; the same in the mirror. -/
theorem wit_BroadcastAccesses : let s := (((inGait 1).put (Reg.tileDieStat 1) 1).put (Reg.gaitGrpTile 5) 0xFFFF0000).put Reg.sciHitchStat 0xF4
    s.alive = true ∧ selOf 0x9035004 4 = .many 0 (some 5) 4 ∧ selOf 0x903F058 4 = .many 0 none 0x58 ∧ isMirror 0x9035004 = false
    ∧ s.lockedFor 8 = false ∧ (s.aliasUnits 0 (some 5)).filter (s.unitReach 0) = 16 :: (List.range 15).map (· + 17)
    ∧ isMirror 0xD035004 = true ∧ s.accCheck 8 true (selOf 0xD035004 4) 4 = none ∧ s.accCheck 8 false (selOf 0xD035004 4) 4 = none
    ∧ s.hitch.bcasts = [] ∧ s.bcastMembers = [1, 2, 3] := by decide +kernel

/-- The first and the last word of a store; a segment that is Static and one that is not. -/
theorem wit_TileStoreWindows : let s := (inGait 1).put (Reg.tileDieStat 0) 1
    s.alive = true ∧ s.tileReach (15 : TileId) = true ∧ (0x2FFFFC : BitVec 22).toNat % 4 = 0 ∧ (0x2FFFFC : BitVec 22).toNat < tileStoreBytes
    ∧ (0x2FFFF8 : BitVec 22).toNat % 8 = 0 ∧ s.lockedFor 8 = false ∧ s.segState 15 ((0x2FFFFC : BitVec 22).toNat / 65536) = 0
    ∧ (s.setSeg 15 47 1).segState 15 ((0x2FFFFC : BitVec 22).toNat / 65536) ≠ 0 := by decide +kernel

/-- The port busy; free without clocks, and in a reset; free and allowed, and refused; an access under way. -/
theorem wit_ServicePort : let s := { inGait 1 with gait := { (inGait 1).gait with inReset := false } }
    let busy := fun (x : Bool × Bool × Nat × W64) => { s with stack := { s.stack with svcBusy := some x } }
    isMirror 0x8000614 = false ∧ (busy (true, false, 0x8000614, 1)).stack.svcBusy.isSome = true ∧ s.stack.svcBusy = none
    ∧ (inGait 1).gait.inReset = true ∧ s.alive = true ∧ s.gait.inReset = false
    ∧ s.accCheck svcReq false (selOf 0x8280000 4) 4 = some .reserved ∧ s.accCheck svcReq true (selOf 0x8000614 4) 4 = none
    ∧ s.accCheck svcReq false (selOf 0x8000610 8) 8 = none
    ∧ (busy (true, false, 0x8000614, 1)).accCheck svcReq true (selOf 0x8000614 4) 4 = none
    ∧ (busy (false, true, 0x8000610, 0)).accCheck svcReq false (selOf 0x8000610 8) 8 = none := by decide +kernel

/-- A request held, its row's condition holding; its GEN changed; no row; no request and the gait in force. -/
theorem wit_GaitRequests : let h : GaitReq := ⟨2, 0, 0, false, 8⟩
    let s := { inGait 1 with gait := { (inGait 1).gait with held := some h } }
    (0xFFFFFFFF : Nat) < 2 ^ 32 ∧ 4 % 4 = 0 ∧ reqGait (1 % 4) = min 2 (inGait 1).gaitN ∧ reqGait (2 % 4) ≠ min 2 (inGait 1).gaitN
    ∧ reqGait (2 % 4) = min 2 (inGait 3).gaitN
    ∧ s.alive = true ∧ s.gait.held = some h ∧ s.gait.trans = .none ∧ reqGait h.target ≠ min 2 s.gaitN
    ∧ (s.nextRow (reqGait h.target) false).isSome = true ∧ h.changed = false ∧ { h with changed := true }.changed = true
    ∧ (inGait 0).nextRow (reqGait h.target) true = none := by decide +kernel

/-- A counter below its limit, at it and past it; an event like the last and one unlike it; an entry read. -/
theorem wit_CountersAndLog : let c := Cnt.evtCntAccerr
    (1 : Nat) ≠ 0 ∧ c.reg ≠ c.ovf + 4 * (c.bit / 32) ∧ (0xFFFF : Nat) < 2 ^ 16 ∧ 255 < 256 ∧ (2 ^ 64 - 1 : Nat) < 2 ^ 64
    ∧ (let s := (inGait 1).logEvent 0x65 200 8 7
      let last := (s.rd Reg.evtLogSeq + 4095) % 4096
      s.log.used ≠ 0 ∧ s.rd (logWord last 2) = s.frameNum ∧ s.rd (logWord last 4) = 0x65 + 2 ^ 16 * 200 + 2 ^ 24 * 8
        ∧ s.rd64 (logWord last 6) = 7 ∧ last ∉ s.log.bad)
    ∧ (inGait 1).log.used = 0
    ∧ (inGait 1).alive = true ∧ (inGait 1).accCheck 8 false (.reg (logWord (4095 : Fin 4096) 0)) 4 = none
    ∧ (4095 : Fin 4096).val ∉ (inGait 1).log.bad := by decide +kernel

/-! ### Witnesses: Halter, gaits, boot -/

/-- A poll of sixteen bytes with its CRC. -/
def pollOf (head : List Byte) : List Byte := head ++ toLe (crc16 head) 2

/-- CMD, option byte, PSEQ 5, a nonce, two reserved bytes. -/
def poll0 (cmd opt nonce : Byte) : List Byte := pollOf [cmd, opt, 5, 0, nonce, 0, 0, 0, 0, 0, 0, 0, 0, 0]

/-- Walk, with a port's CS_N low. -/
def csLowAt (q : Fin 2) : State := (inGait 1).modHlt q (fun p => { p with csLow := true, reply := List.replicate 32 0 })

/-- An enabled port idle, a disabled one, one selected; a poll good, with a bad CRC, with a bad option byte, with a nonce it may not
have. -/
theorem wit_HalterTransaction : (inGait 1).hltOn 1 = true ∧ (inGait 1).halter.ports[(1 : Fin 2)].csLow = false
    ∧ ((inGait 1).put Reg.hltCtrl 1).hltOn 1 = false ∧ (csLowAt 1).halter.ports[(1 : Fin 2)].csLow = true ∧ (csLowAt 1).alive = true
    ∧ (csLowAt 1).halter.ports[(1 : Fin 2)].pollSeen = false
    ∧ (∀ bs ∈ [poll0 0x3C 0 0, poll0 0x3D 1 7], 16 ≤ bs.length ∧ crc16 (bs.take 14) = leAt bs 14 2
      ∧ (leAt bs 0 1 = 0x3C ∨ leAt bs 0 1 = 0x3D) ∧ leAt bs 1 1 ≤ 1 ∧ leAt bs 12 2 = 0 ∧ (leAt bs 1 1 = 0 → leAt bs 4 8 = 0))
    ∧ (let bs := (poll0 0x3C 0 0).take 14 ++ [0, 0]; 16 ≤ bs.length ∧ crc16 (bs.take 14) ≠ leAt bs 14 2)
    ∧ (let bs := poll0 0x3C 2 0; 16 ≤ bs.length ∧ crc16 (bs.take 14) = leAt bs 14 2 ∧ ¬ leAt bs 1 1 ≤ 1)
    ∧ (let bs := poll0 0x3C 0 7; 16 ≤ bs.length ∧ crc16 (bs.take 14) = leAt bs 14 2 ∧ ¬ (leAt bs 1 1 = 0 → leAt bs 4 8 = 0)) := by
  decide +kernel

/-- A poll that is accepted, of each command; a port enabled and idle. -/
theorem wit_PollSequence : (csLowAt 0).alive = true ∧ (csLowAt 0).halter.ports[hltIdx false].csLow = true
    ∧ (csLowAt 0).halter.ports[hltIdx false].pollSeen = false
    ∧ (∀ bs ∈ [poll0 0x3C 0 0, poll0 0x3D 1 7], 16 ≤ bs.length ∧ crc16 (bs.take 14) = leAt bs 14 2
      ∧ (leAt bs 0 1 = 0x3C ∨ leAt bs 0 1 = 0x3D) ∧ leAt bs 1 1 ≤ 1 ∧ leAt bs 12 2 = 0 ∧ (leAt bs 1 1 = 0 → leAt bs 4 8 = 0))
    ∧ (inGait 1).hltOn (hltIdx true) = true ∧ (inGait 1).halter.ports[hltIdx true].csLow = false := by decide +kernel

/-- A package with its gait state changed. -/
def gaitOf (n : Nat) (f : GaitSt → GaitSt) : State := { inGait n with gait := f (inGait n).gait }

/-- A transition of each kind, before and after its drain, with a reason to turn back and without. -/
theorem wit_DownwardTransitions :
    (let s := gaitOf 3 (fun g => { g with trans := .canterToTrot }); s.alive = true ∧ s.gait.drained = false ∧ s.drained = true)
    ∧ (∀ tr ∈ [Trans.trotToWalk, .walkToStable], let s := gaitOf 2 (fun g => { g with trans := tr });
      s.gait.drained = false ∧ s.drained = true ∧ s.mustReverse = false ∧ (s.put Reg.ingCtrl 1).mustReverse = true)
    ∧ (let s := gaitOf 2 (fun g => { g with trans := .trotToWalk, drained := true }); s.gait.trans = .trotToWalk ∧ s.gait.drained = true)
    ∧ (let s := gaitOf 1 (fun g => { g with trans := .walkToStable, drained := true });
      s.gait.trans = .walkToStable ∧ s.gait.drained = true ∧ s.gait.wbDone = false)
    ∧ (let s := gaitOf 1 (fun g => { g with trans := .walkToStable, drained := true, wbDone := true });
      s.gait.trans = .walkToStable ∧ s.gait.wbDone = true) := by decide +kernel

/-- Main power wanted, there and gone. -/
theorem wit_MainPower : (inGait 1).alive = true
    ∧ (let s := gaitOf 0 (fun g => { g with trans := .stableToWalk, pwrEn := true, pwrRisen := true, inReset := false });
      s.gait.trans = .stableToWalk ∧ s.gait.pwrRisen = true ∧ s.gait.inReset = false ∧ s.gait.pwrEn = true)
    ∧ (let s := gaitOf 0 (fun g => { g with trans := .stableToWalk, pwrEn := true });
      s.gait.trans = .stableToWalk ∧ s.gait.pwrRisen = false) ∧ (inGait 0).gait.pwrEn = false := by decide +kernel

/-- Each wake source, enabled and not; the timer armed and not; each PCI Express role. -/
theorem wit_WakeSources : let s := ((inGait 0).put Reg.gaitWakeGpio 0x18)
    s.alive = true ∧ s.bit Reg.gaitWakeEn 1 = false ∧ s.bit Reg.gaitWakeGpio (3 : Fin 4) = true ∧ s.bit Reg.gaitWakeGpio (4 + (3 : Fin 4).val) = false
    ∧ (s.put Reg.gaitWakeGpio 0x88).bit Reg.gaitWakeGpio (4 + (3 : Fin 4).val) = true
    ∧ (gaitOf 0 (fun g => { g with wakeArmed := true })).gait.wakeArmed = true ∧ s.gait.wakeArmed = false
    ∧ s.pcie.endpoint = true ∧ { s with pcie := { s.pcie with endpoint := false } }.pcie.endpoint = false := by decide +kernel

/-- The crystal there and failed; the vehicle's time the source; the watchdog running; an empty queue with the clocks running, and stopped. -/
theorem wit_TimeAndTemperature : (inGait 1).alive = true ∧ (inGait 1).bit Reg.gaitStat 5 = false
    ∧ ((inGait 1).put Reg.gaitStat 0x21).bit Reg.gaitStat 5 = true ∧ (inGait 1).gaitN ≠ 0
    ∧ (inGait 1).vehicleTime = false ∧ { inGait 1 with inForce := ((inGait 1).put Reg.portGtimeCtrl 29).regs }.vehicleTime = true
    ∧ (gaitOf 1 (fun g => { g with wdogOn := true })).gait.wdogOn = true ∧ (inGait 1).pending = []
    ∧ (gaitOf 1 (fun g => { g with thermtrip := true })).alive = false
    ∧ (gaitOf 1 (fun g => { g with thermtrip := true })).pending = [] := by decide +kernel

theorem wit_Resets : (gaitOf 0 (fun g => { g with porstN := false })).gait.porstN = false
    ∧ (inGait 0).alive = true ∧ (inGait 0).gait.inReset = true ∧ Reg.gaitStat ≠ Reg.sciHitchStat := by decide +kernel

/-- The ROM about to read a slot; an image with a bad header, and a read that fails; a command of the key service whose input is the
curve's base point, and one that is not on the curve. (That some image passes, and that a peer point has a product, rests on the fused
keys, of which nothing is known: log 9.) -/
theorem wit_BootAndIdentity :
    (let s := gaitOf 1 (fun g => { g with core0 := .rom });
      s.alive = true ∧ s.gait.core0 = .rom ∧ s.bootSlot = false ∧ (if false = true then 7 else s.imageCode [] false) = 1
      ∧ (if true = true then 7 else s.imageCode [] false) = 7)
    ∧ (let inp := (List.range 16).map (fun i => BitVec.ofNat 32 (leAt ((toBe p256G.1 32) ++ (toBe p256G.2 32)) (4 * i) 4))
      let s := gaitOf 1 (fun g => { g with idk := some (2, inp) })
      let bs := inp.flatMap (fun w => toLe w.toNat 4)
      s.gait.idk = some (2, inp) ∧ onCurve (beNat (bs.take 32)) (beNat (bs.drop 32)) = true)
    ∧ onCurve 0 0 = false := by decide +kernel

/-! ### Witnesses: the frame, ingest, Drey, ports -/

/-- Trot with one epoch of frame 6, changed by `f`. -/
def oneEpoch (f : Epoch → Epoch) : State := withLive [f (epoch0 6)]

/-- Each event of a frame's life, with the epoch it finds. -/
theorem wit_FrameEvents : (oneEpoch id).alive = true
    ∧ ((oneEpoch (fun e => { e with closed := true })).frm.live.find? (fun e => e.closed && !e.lateDone)).isSome = true
    ∧ ((oneEpoch (fun e => { e with closed := true })).frm.live.find? (fun e => e.closed && e.decision == Decision.open)).isSome = true
    ∧ ((oneEpoch (fun e => { e with rein := .wait, lateDone := true })).frm.live.find? (fun e => e.rein == Rein.wait && e.lateDone)).isSome = true
    ∧ ((oneEpoch (fun e => { e with rein := .run [31] false false })).frm.live.find? (fun e => e.frame % 256 == (6 : BitVec 8).toNat
        && (match e.rein with | .run ts _ _ => ts.contains (31 : TileId) | _ => false))).isSome = true
    ∧ ((oneEpoch (fun e => { e with rein := .run [] false false })).frm.live.find? (fun e => e.rein.running)).isSome = true
    ∧ ((oneEpoch (fun e => { e with rein := .run [] true true })).frm.live.find? (fun e => e.rein == Rein.run [] true true)).isSome = true := by
  decide +kernel

/-- A return held for its pose, and a split waiting to come into force. -/
theorem wit_IngestEvents : let z : IvVec := ⟨ivOf 0, ivOf 0, ivOf 0⟩
    let s := { oneEpoch id with ingest := { (oneEpoch id).ingest with waiting := [⟨6, 0, z, 0, 0, 0, false⟩] }
                                drey := { (oneEpoch id).drey with wantSplit := [(6, Vector.replicate 4 1024)] } }
    s.alive = true ∧ (∃ e rest, s.frm.live = e :: rest ∧ e.promoted = false) ∧ (∃ h rest, s.ingest.waiting = h :: rest ∧ s.epoch? h.frame ≠ none)
    ∧ s.drey.wantSplit = [(6, Vector.replicate 4 1024)] ∧ (∀ e ∈ s.frm.live, frameFrom 6 e.frame = true) ∧ s.drey.scanning = none :=
  ⟨by decide +kernel, ⟨_, _, rfl, rfl⟩, ⟨_, _, rfl, by decide +kernel⟩, by decide +kernel, by decide +kernel, by decide +kernel⟩

/-- No close yet; the last closed frame with a corrected pose already accepted, and with none after the deadline. -/
theorem wit_CorrectedPoseRejected : let s := { (oneEpoch id).put Reg.ingCposeFrame 6 with time := 60000000 }
    let c := fun (d : Bool) => { s with frm := { s.frm with lastClosed := some 6, cposeDone := d, cposeDl := 59999999 } }
    MayWrite s 0 ∧ s.gaitN ≠ 0 ∧ s.frm.lastClosed ≠ some (s.rd Reg.ingCposeFrame)
    ∧ ∀ d, MayWrite (c d) 0 ∧ (c d).frm.lastClosed = some ((c d).rd Reg.ingCposeFrame) ∧ (c d).frm.cposeDone = d ∧ (c d).frm.cposeDl < (c d).time := by
  decide +kernel

/-- Sector 0 and sector 7: with ride-ahead before and after the late-arrival window, without it; lists to generate, and written. -/
theorem wit_SectorEvents :
    (oneEpoch id).alive = true ∧ (oneEpoch id).epochOfParity (b2n false) = some (epoch0 6) ∧ (oneEpoch id).sectClosed (b2n false) 7 = false
    ∧ (epoch0 6).ride = true ∧ (epoch0 6).rein ≠ .rerun ∧ { epoch0 6 with lateDone := true }.lateDone = true
    ∧ (epoch0 6).lateDone = false ∧ (let e := { epoch0 6 with conf := [(Reg.dreySectClose 7, 300)] }; e.openT + regN e.conf (Reg.dreySectClose 7) * 100000 < e.closeT)
    ∧ (oneEpoch id).sectReopened (b2n false) 7 = false
    ∧ (let e := { epoch0 6 with ride := false, closed := true, lateDone := true, decision := .passed }
      e.ride = false ∧ e.closed = true ∧ e.lateDone = true ∧ e.mayDeskew = true ∧ (withLive [e]).passEnded e = true)
    ∧ (let s := ((oneEpoch id).put Reg.dreyCtrl 1).put Reg.dreySectState 0xFF
      s.bit Reg.dreyCtrl 0 = true ∧ (∀ j ∈ [((0 : SectId).val + 7) % 8, (0 : SectId).val, ((0 : SectId).val + 1) % 8], s.sectClosed (b2n false) j = true)
        ∧ bitN (epoch0 6).kmBusy 0 = false ∧ (epoch0 6).rein.running = false)
    ∧ bitN { epoch0 6 with kmBusy := 128 }.kmBusy 7 = true := by decide +kernel

theorem wit_FrameBoundary : let s := (inGait 2).put Reg.gaitStat 0x42
    s.alive = true ∧ s.bit Reg.gaitStat 6 = true ∧ (0xFFFFFFFF : Nat) < 2 ^ 32
    ∧ (let l := s.put Reg.sciHitchStat 0x34
      let l := { l with frm := { l.frm with perWrite := 995000 } }
      l.leadsHitch = true ∧ 1000000 < l.frm.perWrite + 10000 ∧ ¬ 1005000 < l.frm.perWrite + 10000) := by decide +kernel

/-- A head port enabled with its link up. -/
def portUp : State := ((inGait 1).put (Reg.portCtrl 7) 1).put (Reg.portState 7) 1

/-- A link down with the port enabled, and up; a lit second before the minute and at it; a life write under way. -/
theorem wit_PortEvents : let s := (inGait 1).put (Reg.portCtrl 7) 1
    let lit := fun (n : Nat) => s.modPort 7 (fun q => { q with litNow := true, litSec := n, lifePend := some 1 })
    s.alive = true ∧ s.gaitN ≠ 0 ∧ s.bit (Reg.portCtrl 7) 0 = true ∧ s.bit (Reg.portState 7) 0 = false
    ∧ (lit 58).ports[(7 : PortId)].litNow = true ∧ (lit 58).ports[(7 : PortId)].litSec + 1 < 60 ∧ 60 ≤ (lit 59).ports[(7 : PortId)].litSec + 1
    ∧ portUp.portOn 7 = true ∧ (lit 0).ports[(7 : PortId)].lifePend = some 1 ∧ (2 : BitVec 24).toNat ≠ 1 ∧ (1 : BitVec 24).toNat = 1 := by
  decide +kernel

/-- Frames of 13, 14, 1,518 and 1,519 bytes before their FCS; a range packet, a gPTP message and another EtherType. -/
theorem wit_EthernetFrames : let f := fun (et : Nat) (n : Nat) => List.replicate 12 (0 : Byte) ++ toBe et 2 ++ List.replicate n 0
    let ty := fun (b : List Byte) => beNat ((b.drop 12).take 2)
    portUp.alive = true ∧ portUp.portOn 7 = true ∧ (inGait 1).portOn 7 = false ∧ 1518 < (f 0x88B5 1505).length
    ∧ 14 ≤ (f 0x88B5 0).length ∧ (f 0x88B5 1504).length ≤ 1518 ∧ (f 0 0).length - 1 < 14
    ∧ ty (f 0x88B5 40) = bitsN (portUp.force Reg.portEtype) 15 0 ∧ leAt ((f 0x88B5 40).drop 14) 0 2 ≠ 0x5253
    ∧ ty (f 0x88F7 40) ≠ bitsN (portUp.force Reg.portEtype) 15 0 ∧ ty (f 0x88F7 40) = 0x88F7
    ∧ ty (f 0x0800 40) ≠ bitsN (portUp.force Reg.portEtype) 15 0 ∧ ty (f 0x0800 40) ≠ 0x88F7 := by decide +kernel

/-- A program of one item, which any in-service tile may take, for an epoch with work. -/
def dispatchState : State :=
  let e := { epoch0 6 with noWork := false, place := [⟨true, false, [0]⟩] }
  let s := (withLive [e]).put (Reg.tileDieStat 0) 1
  let p : ProgInfo := ⟨1, 0, 0, 0x1000, 0x2000, 0x3000, 0, 0, 0, [], []⟩
  { s.put (Reg.tileState 0) 1 with sched := { s.sched with progs := Vector.replicate 2 (some p) }
                                   mem := { s.mem with burFill := none } }

/-- The same package once the descriptors of the epochs it runs have been read. -/
def dispatchRead (s : State) : State := s.frm.live.foldl (fun (s : State) e => s.loseUnreadable e.frame) s

theorem wit_SchedulerEvents_dispatch : 2 ≤ dispatchState.gaitN ∧ dispatchState.gait.trans = .none ∧ dispatchState.alive = true
    ∧ (((dispatchRead dispatchState).nextTagged.map (fun x => (x.2.2.1, x.2.2.2.1))) = some (0, 0))
    ∧ ((dispatchRead dispatchState).wakeTile 0).1 = true
    ∧ (let w := { dispatchState with sched := { dispatchState.sched with wakes := List.replicate 8 (dispatchState.time, 1) } }
      (dispatchRead w).nextTagged.isSome = true ∧ ((dispatchRead w).wakeTile 0).1 = false)
    ∧ (dispatchRead (inGait 2)).nextTagged = none ∧ (dispatchRead (inGait 2)).nextUntagged = none := by decide +kernel

/-- An untagged item that is next. -/
theorem wit_EventsComplete_untagged :
    let p : ProgInfo := ⟨0, 1, 0, 0x1000, 0x2000, 0x3000, 0, 0, 0, [], []⟩
    let s := { dispatchState with frm := FrameSt.reset
                                  sched := { dispatchState.sched with progs := Vector.replicate 2 (some p), untag := [(0, 0, [⟨true, false, [0]⟩])] } }
    s.alive = true ∧ 2 ≤ s.gaitN ∧ s.gait.trans = .none ∧ (dispatchRead s).nextTagged = none
    ∧ ((dispatchRead s).nextUntagged.map (fun x => (x.2.2.1, x.2.2.2.1))) = some (0, 0) ∧ ((dispatchRead s).wakeTile 0).1 = true := by decide +kernel

/-- An item ended, a tile waking, an idle clocked tile, one at work, one in its self-test, one with a load out. -/
theorem wit_SchedulerEvents : let idle := tileAt (fun tl => { tl with running := none })
    (let s := tileAt (fun tl => { tl with ended := [item0] })
     s.tiles[0].ended.find? (fun w => !(s.tiles[0].openU.any (fun u => u.work == some w))) = some item0)
    ∧ (tileAt (fun tl => { tl with waking := true })).tiles[0].waking = true
    ∧ idle.tiles[0].clocked = true ∧ idle.tiles[0].isIdle = true ∧ idle.tiles[0].ended = [] ∧ idle.inHandler 0 = false ∧ idle.tiles[0].exc = none
    ∧ core.tiles[0].clocked = true ∧ core.tiles[0].hasWork = true ∧ core.tileState 0 ≠ 4
    ∧ (tileAt (fun tl => { tl with selfTest := true })).tiles[0].selfTest = true ∧ core.tiles[0].inFlight = false
    ∧ (tileAt (fun tl => { tl with loads := [⟨1, none, 0, 8, [], none, none, none, none, false⟩] })).tiles[0].inFlight = true := by decide +kernel

/-- A check under way, and a shard whose switch nothing holds back. -/
theorem wit_ProgramsAndShards : let s := (inGait 2).modShard 15 63 (fun x => { x with switching := true, old := [3] })
    s.alive = true ∧ { s.sched with checking := Vector.replicate 2 true }.checking[(1 : Fin 2)] = true
    ∧ (s.shardAt (15 : Fin 16) (63 : Fin 64)).switching = true
    ∧ ∀ t : TileId, s.tiles[t].asksHome (15 : Fin 16) (s.shardAt (15 : Fin 16) (63 : Fin 64)).old = false := by decide +kernel

/-- Burrow memory at its last byte; LPDDR5X with inline ECC; a frame under each parity. -/
theorem wit_SramErrors : (inGait 1).alive = true ∧ (inGait 1).tileState 31 ≠ 4 ∧ (inGait 1).isMem 0x7FFFFFF = true ∧ 0x7FFFFFF < 0x8000000
    ∧ (inGait 1).isMem 0x1000000000 = true ∧ { (inGait 1).install with inlineEcc := true }.inlineEcc = true
    ∧ (oneEpoch id).epochOfParity (b2n false) = some (epoch0 6) := by decide +kernel

/-- A tile of die 1 behind a port in service, with one load out, lost or not. -/
def bondState (lost : Option Nat) : State :=
  let s := ((inGait 2).put (Reg.tileDieStat 1) 0xFF01).put (Reg.tileBondPstat 1 7) 1
  s.modTile 31 (fun tl => { tl with loads := [⟨1, none, 0x1C0, 8, [], none, none, none, lost, false⟩] })

/-- Errors of the bond: a flit that belongs to nothing, and to a load by its port; a load whose flit was lost; windows that fail no port and
no tile, a port, a tile; a test of each die and of both. -/
theorem wit_BondErrors : let s := bondState none
    let win := fun (es : List (Nat × Nat × Nat)) => { s with stack := { s.stack with winErrs := es } }
    let thr := max 1 (s.fld Reg.tileBondCfg 7 0)
    s.alive = true ∧ s.bit (Reg.tileDieStat (1 : DieId)) 0 = true ∧ s.bit (Reg.tileBondPstat (1 : DieId) (7 : Fin 8)) 0 = true
    ∧ (31 : TileId).val / 16 = (1 : DieId).val ∧ s.tagReined none = false
    ∧ (s.bondFind 31 7 none).isSome = true ∧ s.bondFind 30 7 none = none
    ∧ (let l := bondState (some 5); (l.tiles[(31 : TileId)].lostAccess none).isSome = true
        ∧ ∀ x : TileId, x < 31 → x.val / 16 = 1 → l.tiles[x].lostAccess none = none)
    ∧ (∀ t, ((win []).stack.winErrs.filter (fun e => e.2.2 == t)).length < thr)
    ∧ (let es := List.replicate thr (1, 7, 31)
      thr ≤ ((win es).stack.winErrs.filter (fun e => e.2.2 == 31)).length ∧ ((win es).portErrs 1 7).eraseDups.length < 3)
    ∧ (let es := List.replicate thr (1, 7, 31) ++ [(1, 7, 30), (1, 7, 29)]
      thr ≤ ((win es).portErrs 1 7).length ∧ 3 ≤ ((win es).portErrs 1 7).eraseDups.length)
    ∧ { s.stack with testing := 3 }.testing ≠ 0 ∧ { s.stack with testing := 3 }.testing < 4 := by
  refine ⟨by decide +kernel, by decide +kernel, by decide +kernel, by decide +kernel, by decide +kernel, by decide +kernel, by decide +kernel
    , by decide +kernel, ?_, by decide +kernel, by decide +kernel, by decide +kernel, by decide +kernel⟩
  intro t; simp [bondState, inGait, State.put, State.modTile, State.reset, StackSt.reset]

/-- A gather under a request that was dropped, whose flit was lost. -/
theorem wit_BondErrors_dropped : let q : GatherReq := ⟨0, 0, 0, 0, 0, 64, 0, none, 0, some 6, true, none, none, some 0, [], some 5, false⟩
    let s := (inGait 2).modTile 31 (fun tl => { tl with gathers := [q] })
    s.alive = true ∧ s.tiles[(31 : TileId)].lostAccess (some 6) = some (.gather q, 5) ∧ q.drop = true := by decide +kernel

/-! ### Witnesses: the stack, memory, SCI -/

theorem wit_DieBringUp : let s := gaitOf 1 (fun g => { g with trans := .walkToTrot })
    s.alive = true ∧ s.gait.trans = .walkToTrot ∧ s.stack.bring[(1 : DieId)] = 0
    ∧ (bitN (0x80 : BitVec 8).toNat (7 : Fin 8) = true ∧ s.bit (Reg.tileBondPstat (1 : DieId) (7 : Fin 8)) 2 = false
      ∧ s.bit (Reg.tileBondPstat (1 : DieId) (7 : Fin 8)) 3 = false) ∧ (1 : BitVec 5) ≠ 0 := by decide +kernel

theorem wit_TestAccess : (inGait 1).gait.testmodeN = true ∧ (gaitOf 1 (fun g => { g with testmodeN := false })).gait.testmodeN = false := by
  decide

theorem wit_MemoryWrites : (inGait 1).mem.bad = [] ∧ (inGait 1).mem.soft = [] := ⟨rfl, rfl⟩

/-- A copy channel with one descriptor, of 64 bytes from 0x2000 to 0x3000. -/
def copyState : State :=
  let s := (((inGait 1).put (Reg.hrdCpySize 1) 16).put (Reg.hrdCpyHead 1) 1).put64 (Reg.hrdCpyBase 1) 0x1000
  { s with written := [Reg.hrdCpyBase 1, Reg.hrdCpyBase 1 + 4]
           mem := { s.mem with burFill := none, cells := [⟨0x1001, 0x20⟩, ⟨0x1009, 0x30⟩, ⟨0x1010, 64⟩] } }

theorem wit_MemoryEvents : copyState.alive = true ∧ copyState.gaitN ≠ 0 ∧ copyState.cpyWaiting (1 : Fin 4) ≠ 0 ∧ (1 : Fin 4).val ≠ 0
    ∧ copyState.cpyDesc (1 : Fin 4) 0 = some ⟨0x2000, 0x3000, 64, 0, 0⟩ ∧ copyState.copy[(1 : Fin 4)].fill = []
    ∧ copyState.copy[(1 : Fin 4)].moved = 0 ∧ copyState.copy[(1 : Fin 4)].begun = false ∧ copyState.copy[(1 : Fin 4)].err = 0
    ∧ copyState.copy[(1 : Fin 4)].reads = [] ∧ copyState.copy[(1 : Fin 4)].awaits = [] ∧ (∀ x : Fin 4, x ≠ 1 → copyState.cpyWaiting x = 0)
    ∧ copyState.cpySide (bitN 0 0) 0x2000 64 = .memory 0x2000 ∧ copyState.cpySide (bitN 0 1) 0x3000 64 = .memory 0x3000
    ∧ copyState.mem.bad = [] ∧ copyState.mem.soft = [] ∧ copyState.rd (Reg.hrdCpySize (1 : Fin 4)) ≤ 4096
    ∧ 0x2000 + 64 ≤ 0x3000 ∧ copyState.cpySlot (1 : Fin 4) 0 % 2 ^ 42 + 32 ≤ 0x3000
    ∧ { copyState with written := [] }.cpyDesc (1 : Fin 4) 0 = none ∧ (4 : BitVec 8).toNat ≤ 4 ∧ 4 < (5 : BitVec 8).toNat := by decide +kernel

/-- The endpoint before and after the boot ROM has it ready; the last byte of BAR2 and one past it; BAR4; BAR0. -/
theorem wit_PcieInbound : let s := inGait 1
    let r := { s with pcie := { s.pcie with ready := true } }
    s.alive = true ∧ s.gaitN ≠ 0 ∧ s.pcie.endpoint = true ∧ s.pcie.ready = false ∧ r.pcie.ready = true
    ∧ (∀ w : Bool, 0x7FFFFFF + (if w = true then ([0] : List Byte).length else 1) ≤ 0x8000000)
    ∧ 0x8000000 < 0x8000000 + ([0] : List Byte).length ∧ (0x8000614 : Nat) < 2 ^ 28 ∧ selOf 0x8000614 ([0, 0, 0, 0] : List Byte).length ≠ .reserved
    ∧ r.mem.bad = [] ∧ r.mem.soft = [] ∧ r.memRange 0x7FFFFFF ([0] : List Byte).length = true := by decide +kernel

/-- Walk with both ports of the hitch in a link state. -/
def linked (st : Nat) : State := ((inGait 1).put (Reg.sciState 0) st).put (Reg.sciState 1) st

/-- A message header from package 1 to package `d`. -/
def hdrTo (d : BitVec 2) (size : BitVec 4) (operand : BitVec 64) : SciHdr := ⟨d, 1, true, size, 9, 0, operand⟩

/-- A port active and one held; a message for here, for a member a port routes to and for none; each size; a write whose data are short, and
one sent as poisoned; a response nobody awaits. -/
theorem wit_SciArrivals : SciActive (linked 7) 0 ∧ (linked 9).sciOn = true ∧ (linked 9).sciSt 0 ≠ 7
    ∧ (hdrTo 2 3 0).dst.toNat ≠ (linked 7).ownPkg ∧ bitN (((linked 7).put (Reg.sciRoute 1) 4).rd (Reg.sciRoute 1)) (hdrTo 2 3 0).dst.toNat = true
    ∧ bitN ((linked 7).rd (Reg.sciRoute 1)) (hdrTo 2 3 0).dst.toNat = false ∧ (⟨0x22, hdrTo 2 3 0, []⟩ : SciMsg).asks = false
    ∧ (hdrTo 0 3 0).dst.toNat = (linked 7).ownPkg ∧ (hdrTo 0 2 0).size.toNat < 3 ∧ 8 < (hdrTo 0 9 0).size.toNat
    ∧ 3 ≤ (hdrTo 0 8 0).size.toNat ∧ (hdrTo 0 8 0).status ≠ 1
    ∧ (linked 7).memRange ((hdrTo 0 8 0x7FFFF00).operand.toNat % 2 ^ 42) (2 ^ (hdrTo 0 8 0).size.toNat) = true
    ∧ (linked 7).memRange ((hdrTo 0 8 0x7FFFF08).operand.toNat % 2 ^ 42) (2 ^ (hdrTo 0 8 0).size.toNat) = false
    ∧ (linked 7).mem.bad = [] ∧ (linked 7).mem.soft = [] ∧ 2 ^ (hdrTo 0 8 0).size.toNat ≤ (List.replicate 256 (0 : Byte)).length
    ∧ (List.replicate 255 (0 : Byte)).length < 2 ^ (hdrTo 0 8 0).size.toNat
    ∧ (linked 7).hitch.ports[(0 : Fin 2)].reqs.find? (fun r => r.tag == (9 : BitVec 16).toNat && r.dst == (1 : BitVec 2).toNat) = none := by
  decide +kernel

/-- An inbox with room, full, and unset; a contribution to a frame still to commit, a late one, and one that reaches a package that does not
lead. -/
theorem wit_HitchPushes : let w := { linked 7 with written := [Reg.sciInboxBase 15, Reg.sciInboxBase 15 + 4] }
    let s := w.put64 (Reg.sciInboxBase 15) (2 ^ 48)
    let s1 := s.inboxStep 15 0
    (hdrTo 0 3 15).dst.toNat = s.ownPkg ∧ s1.hitch.halfLost = [] ∧ s1.isUnset (Reg.sciInboxBase 15) 2 = false
    ∧ spGet (fun _ => 0) s1.hitch.inboxCnt 15 < bitsN (s1.rd64 (Reg.sciInboxBase 15)) 63 48
    ∧ (let z := w.inboxStep 15 0
      z.isUnset (Reg.sciInboxBase 15) 2 = false ∧ bitsN (z.rd64 (Reg.sciInboxBase 15)) 63 48 ≤ spGet (fun _ => 0) z.hitch.inboxCnt 15)
    ∧ ((linked 7).inboxStep 15 0).isUnset (Reg.sciInboxBase 15) 2 = true ∧ ((linked 7).inboxStep 15 0).hitch.halfLost = []
    ∧ s.bit Reg.sciHitchStat 2 = true ∧ (s.put Reg.sciHitchStat 0x8).bit Reg.sciHitchStat 2 = false ∧ s.frameNum ≤ 0 ∧ s.hitch.verdict = none
    ∧ (let t := s.put Reg.gaitFrmNum 5
      t.epoch? 4 = none ∧ 4 < t.frameNum ∧ t.frm.nextOpen = none) := by decide +kernel

/-- A CAP record with the given revision and classes. -/
def capRec (rev : BitVec 8) (classes : BitVec 32) : LinkRec :=
  ⟨rev, 0, 0, 7, classes, 0, 0, 0, 0, 25, 200, 1, 0, 0, 0, 1000, 2000000⟩

/-- A device accepted, one of an old revision, one without the classes; a wheel with no lead, and with one, its frame in progress. -/
theorem wit_SciRecords : let lead := linked 6
    let wheel := (linked 7).put Reg.sciHitchStat 0x9
    let up := { wheel with hitch := { wheel.hitch with up := some 1 } }
    let run := { up.put Reg.gaitStat 0x41 with frm := { up.frm with lastB := 1999999 } }
    lead.sciOn = true ∧ lead.sciSt 1 = 6 ∧ lead.bit Reg.sciHitchStat 2 = true ∧ lead.refusal 1 (capRec 0x12 0x3B) 1 = 0
    ∧ lead.refusal 1 (capRec 0x11 0x3B) 1 ≠ 0 ∧ bitsN (capRec 0x11 0).rev.toNat 3 0 < 2 ∧ bitsN (capRec 0x12 0).rev.toNat 7 4 = 1
    ∧ 2 ≤ bitsN (capRec 0x12 0).rev.toNat 3 0 ∧ bitN (capRec 0x12 0x13).classes.toNat 3 = false
    ∧ wheel.bit Reg.sciHitchStat 2 = false ∧ wheel.hitch.up = none ∧ up.hitch.up = some 1 ∧ up.hitch.up ≠ some 0
    ∧ (capRec 0x12 0).nextBoundary ≠ 0 ∧ { capRec 0x12 0 with nextBoundary := 0 }.nextBoundary = 0
    ∧ run.hitch.up = some 1 ∧ run.bit Reg.gaitStat 6 = true ∧ run.frm.atOrigin = false ∧ run.frm.lastB < (capRec 0x12 0).nextBoundary.toNat
    ∧ (capRec 0x12 0).number.toNat % 4 = up.ownPkg := by decide +kernel

/-- Training states; a flit with a bad CRC; a port with an unacknowledged flit before and at four replays; a request, a verdict and a
broadcast under way. -/
theorem wit_SciLink : (linked 1).sciOn = true ∧ (1 : BitVec 4) ≠ 0 ∧ (linked 1).sciSt 0 = 1 ∧ (linked 4).sciSt 0 = 4 ∧ (linked 5).sciSt 0 = 5
    ∧ (linked 8).sciSt 0 = 8 ∧ (List.replicate 256 (0 : Byte)).length = 256
    ∧ leAt (List.replicate 256 (0 : Byte)) 0xFC 4 ≠ crc32c ((List.replicate 256 (0 : Byte)).take 0xFC)
    ∧ (let s := fun (n : Nat) => (linked 7).modSci 0 (fun q => { q with unacked := [(0, 0, [])], replays := n, reqs := [⟨5, 0, 1, 9⟩] })
      (s 3).sciSt 0 = 7 ∧ (s 3).hitch.ports[(0 : Fin 2)].unacked ≠ [] ∧ (s 3).hitch.ports[(0 : Fin 2)].replays < 4
        ∧ 4 ≤ (s 4).hitch.ports[(0 : Fin 2)].replays
        ∧ (s 3).hitch.ports[(0 : Fin 2)].reqs.find? (fun r => r.tag == (5 : BitVec 16).toNat) = some ⟨5, 0, 1, 9⟩)
    ∧ (linked 7).bit Reg.sciHitchStat 2 = true ∧ ((linked 7).put Reg.sciHitchStat 0x8).bit Reg.sciHitchStat 3 = true
    ∧ (let s := { oneEpoch id with hitch := { HitchSt.reset with verdict := some ⟨6, 0, 0, 0, 0⟩, bcasts := [⟨8, 0, false, 0, 4, [1], [], 0, 0⟩] } }
      s.sciOn = true ∧ s.hitch.verdict = some ⟨6, 0, 0, 0, 0⟩ ∧ s.epoch? 6 = some (epoch0 6)
        ∧ s.hitch.bcasts = [⟨8, 0, false, 0, 4, [1], [], 0, 0⟩])
    ∧ ((linked 7).put Reg.sciHitchStat 0).bit Reg.sciHitchStat 2 = false ∧ ((linked 7).put Reg.sciHitchStat 0).bit Reg.sciHitchStat 3 = false := by
  decide +kernel

/-- A range packet of no return, with its CRC, in an Ethernet frame. -/
def emptyPacket : List Byte :=
  let h := toLe 0x5253 2 ++ [1, 0] ++ List.replicate 28 0
  List.replicate 12 0 ++ toBe 0x88B5 2 ++ h ++ toLe (crc32c h) 4

/-- A verified head that accepts it. -/
theorem wit_EventsComplete_packet : let s := { portUp.put (Reg.portState 7) 5 with inForce := portUp.regs }
    let pl := emptyPacket.drop 14
    s.alive = true ∧ s.gaitN ≠ 0 ∧ s.portOn 7 = true ∧ 50 ≤ emptyPacket.length ∧ emptyPacket.length ≤ 1518
    ∧ beNat ((emptyPacket.drop 12).take 2) = bitsN (s.force Reg.portEtype) 15 0 ∧ bitsN (s.force Reg.portEtype) 15 0 ≠ 0x8100
    ∧ leAt pl 0 2 = 0x5253 ∧ leAt pl 2 1 = 1 ∧ srpCount pl ≤ 180 ∧ 36 + 8 * srpCount pl ≤ pl.length
    ∧ crc32c (pl.take (32 + 8 * srpCount pl)) = leAt pl (32 + 8 * srpCount pl) 4 ∧ s.headOf 7 = 2 ∧ leAt pl 8 8 = s.rd64 (Reg.portHeadSerial 7)
    ∧ bitN (leAt pl 0x1C 2) 3 = false ∧ seqDelta s.ports[(7 : PortId)].seqRef (leAt pl 0x18 4) ≠ 0
    ∧ seqDelta s.ports[(7 : PortId)].seqRef (leAt pl 0x18 4) < 2 ^ 31 := by decide +kernel

/-- A lit second with minutes left to count; a window with no error; the instructions of a test chip. -/
theorem wit_EventsComplete : let s := portUp.modPort 7 (fun q => { q with litNow := true, litSec := 59 })
    s.alive = true ∧ s.gaitN ≠ 0 ∧ s.ports[(7 : PortId)].litNow = true ∧ s.ports[(7 : PortId)].litSec < 60
    ∧ s.fld (Reg.portLifeMin (7 : PortId)) 23 0 < 0xFFFFFF ∧ (inGait 2).stack.winErrs = []
    ∧ (bondState none).bondFind 31 7 none = some (.load ⟨1, none, 0x1C0, 8, [], none, none, none, none, false⟩)
    ∧ (bondState (some 5)).tiles[(31 : TileId)].lostAccess none = some (.load ⟨1, none, 0x1C0, 8, [], none, none, none, some 5, false⟩, 5) := by
  decide +kernel

/-- A message that finds each kind of request outstanding. -/
theorem wit_HitchCompletes_answers : ∀ op ∈ [0x00, 0x01, 0x40, 0x41],
    let s := (linked 7).modSci 0 (fun q => { q with reqs := [⟨9, op, 1, 0⟩] })
    SciActive s 0 ∧ (hdrTo 0 3 0).dst.toNat = s.ownPkg ∧ s.hitch.bcasts = [] ∧ s.hitch.outbox = [] ∧ (hdrTo 0 3 0).status = 0
    ∧ s.hitch.ports[(0 : Fin 2)].reqs.find? (fun r => r.tag == (hdrTo 0 3 0).tag.toNat && r.dst == (hdrTo 0 3 0).src.toNat) = some ⟨9, op, 1, 0⟩ := by
  decide +kernel

/-- A remote access of a register; records on a negotiating link, and on an active one to the lead. -/
theorem wit_HitchCompletes : let h := hdrTo 0 3 (BitVec.ofNat 64 (0xE0000000 + 0x8000610))
    (h.operand.toNat % 2 ^ 42 = 0xE0000000 + 0x8000610 ∧ 0x8000610 < 2 ^ 28 ∧ isMirror 0x8000610 = false
      ∧ (linked 7).area (h.operand.toNat % 2 ^ 42) = .control ∧ h.size = 3 ∧ selOf 0x8000610 8 ≠ .reserved ∧ selWords (selOf 0x8000610 8) 8 ≠ []
      ∧ (linked 7).accCheck 9 true (selOf 0x8000610 8) 8 = none ∧ (linked 7).accCheck 9 false (selOf 0x8000610 8) 8 = none)
    ∧ (let s := (linked 6).put Reg.sciHitchStat 0
      s.sciOn = true ∧ s.sciSt 0 = 6 ∧ s.hitch.bcasts = [] ∧ s.bit Reg.sciHitchStat 2 = false ∧ s.hitch.up = none
        ∧ (linked 6).bit Reg.sciHitchStat 2 = true ∧ { capRec 0x12 0x3B with serial := s.install.serial }.serial = s.install.serial)
    ∧ (let w := (linked 7).put Reg.sciHitchStat 0x9
      let s := { w with hitch := { w.hitch with up := some 1 } }
      s.sciOn = true ∧ s.sciSt 1 = 7 ∧ s.hitch.bcasts = [] ∧ s.hitch.outbox = [] ∧ s.hitch.up = some 1 ∧ s.bit Reg.sciHitchStat 2 = false
        ∧ (capRec 0x12 0).number.toNat % 4 = s.ownPkg)
    ∧ (linked 7).hitch.up ≠ some 0 ∧ (linked 7).frameNum ≤ (hdrTo 0 3 0).operand.toNat % 2 ^ 32 ∧ (hdrTo 0 3 0).ackReq = true := by decide +kernel

/-! ### Small steps and standard vectors -/

/-- The bytes of "123456789". -/
def digits : List Byte := [0x31, 0x32, 0x33, 0x34, 0x35, 0x36, 0x37, 0x38, 0x39]

/-- R531's check value, and that of CRC-32C. -/
theorem test_crc : crc16 digits = 0x29B1 ∧ crc32c digits = 0xE3069283 := by decide +kernel

/-- SHA-256 of "abc" (FIPS 180-4), first and last four bytes. -/
theorem test_sha256 : (sha256 [0x61, 0x62, 0x63]).take 4 = [0xBA, 0x78, 0x16, 0xBF]
    ∧ (sha256 [0x61, 0x62, 0x63]).drop 28 = [0xF2, 0x00, 0x15, 0xAD] := by decide +kernel

/-- FIPS 197: the S-box of 0x53; the first round key's first four bytes of Appendix A.1. -/
theorem test_aes : aesSub 0x53 = 0xED
    ∧ ((aesKeys [0x2B, 0x7E, 0x15, 0x16, 0x28, 0xAE, 0xD2, 0xA6, 0xAB, 0xF7, 0x15, 0x88, 0x09, 0xCF, 0x4F, 0x3C]).getD 1 []).take 4
      = [0xA0, 0xFA, 0xFE, 0x17] := by decide +kernel

/-- G1 and G2 of tile 0. -/
def regs12 (x y : BitVec 64) : State := tileAt (fun tl => (tl.setG 1 x).setG 2 y)

/-- G4 after an instruction. -/
def g4 (i : Instr) (s : State) : BitVec 64 := (after i s).tiles[0].getG 4

theorem test_add_wraps : g4 (.add 0 (ccA 0)) (regs12 0xFFFFFFFFFFFFFFFF 2) = 1 := by decide +kernel

theorem test_mulh_signed : g4 (.mulh 0 (ccA 0)) (regs12 0xFFFFFFFFFFFFFFFF 2) = 0xFFFFFFFFFFFFFFFF := by decide +kernel

theorem test_slt_signed : g4 (.slt 0 (ccA 0)) (regs12 0xFFFFFFFFFFFFFFFF 2) = 1 ∧ g4 (.sltu 0 (ccA 0)) (regs12 0xFFFFFFFFFFFFFFFF 2) = 0 := by
  decide +kernel

theorem test_sraI : g4 (.sraI 0 (ccA 4)) (regs12 0x8000000000000000 0) = 0xF800000000000000 := by decide +kernel

theorem test_liH : g4 (.liH 0 (ccA 0xDEADBEEF)) (regs12 0x1111111122222222 0) = 0xDEADBEEF22222222 := by decide +kernel

/-- A word stored is little-endian, and read back zero-extended. -/
theorem test_stt_ldt : let s := after (.sttW 0 (ccA 0)) (tileAt (fun tl => ({ tl with storeFill := none }.setG 1 0x100).setG 2 0xFFFFFFFF80000001))
    s.tiles[0].tsByte 0x100 = 0x01 ∧ s.tiles[0].tsByte 0x103 = 0x80 ∧ g4 (.ldtW 0 (ccA 0)) s = 0x80000001 := by decide +kernel

/-- R196: past 65,535 the counter holds it, its bit is set and the exception is contained. -/
theorem test_tsig_overflow : let s := after (.tsig 0 (ccA 0x10000)) (core.put (Reg.tileToken 0 0) 65535)
    s.tok 0 0 = 65535 ∧ s.bit (Reg.tileTokOvf 0) 0 = true ∧ (s.tiles[0].exc.map (·.cause)) = some 7 := by decide +kernel

/-- R31: the period is clamped to 25 to 200 ms. -/
theorem test_period_clamps : (after (.framePeriodWrite 8 10000) (inGait 1)).rd Reg.gaitFrmPeriod = 25000
    ∧ (after (.framePeriodWrite 8 300000) (inGait 1)).rd Reg.gaitFrmPeriod = 200000 := by decide +kernel

/-- R573: two readings running at 135 °C trip; one does not. -/
theorem test_thermtrip : let s := after (.tempSample 0 796 0) (inGait 1)
    s.gait.thermtrip = false ∧ (after (.tempSample 0 796 0) s).gait.thermtrip = true := by decide +kernel

/-- Worked case 16-B, second row: with an empty store PAIRED and MAC_VALID are clear and the MAC is 0; there is no verdict. -/
theorem test_case16B : let r := (after (.halterCsFall false) (inGait 1)).halter.ports[(0 : Fin 2)].reply
    bitN (leAt r 1 1) 3 = false ∧ bitN (leAt r 0x13 1) 2 = false ∧ leAt r 0x14 8 = 0 ∧ leAt r 8 4 = 0xFFFFFFFF := by decide +kernel

/-- R568: an accepted POLL_WAKE sets its source bit; R538: the first accepted poll sets no gap. -/
theorem test_poll_wake : let s := after (.pollWake false (poll0 0x3D 0 0)) (csLowAt 0)
    s.bit Reg.gaitWakeSrc 0 = true ∧ s.halter.ports[(0 : Fin 2)].gap = false := by decide +kernel

/-- The queue: a step takes the front command and leaves the rest. -/
theorem test_step_queue : let s := { inGait 1 with pending := [.framePeriodWrite 8 10000, .commit] }
    (nextOr s (step s)).pending = [.commit] ∧ (nextOr s (step s)).rd Reg.gaitFrmPeriod = 25000 := by decide +kernel

/-- The table gives no bits, so no word spells a command, and a word put in front changes nothing. -/
theorem test_no_words : decodeTableWord 64 0 = none ∧ State.reset.withFetchWord 64 0 = State.reset := ⟨rfl, rfl⟩

end Sys2Proof.Tests
end

section
/-! SUPPORT. The bits of words that have other bits taken out or added, and the generic write of a register word (R11, R623,
Table 00-3): what each access code makes of the word, and what a write leaves alone. -/

namespace Sys2Proof

/-- Numbers with no bit in common add without a carry. -/
theorem add_eq_or_of_disjoint {a b : Nat} (h : ∀ i, (bitN a i && bitN b i) = false) : a + b = a ||| b := by
  have hlt : ∀ n ≤ a + b, n < 2 ^ (a + b) := fun n hn => lt_of_le_of_lt hn Nat.lt_two_pow_self
  have ha : (BitVec.ofNat (a + b) a).toNat = a := by simpa using Nat.mod_eq_of_lt (hlt a (by omega))
  have hb : (BitVec.ofNat (a + b) b).toNat = b := by simpa using Nat.mod_eq_of_lt (hlt b (by omega))
  have hand : BitVec.ofNat (a + b) a &&& BitVec.ofNat (a + b) b = 0#(a + b) := by
    refine BitVec.eq_of_toNat_eq ?_
    rw [BitVec.toNat_and, ha, hb, BitVec.toNat_zero]
    exact bits_ext fun i => by simpa [bitN_eq] using h i
  have hsum := BitVec.toNat_add_of_and_eq_zero hand
  rw [BitVec.add_eq_or_of_and_eq_zero _ _ hand, BitVec.toNat_or, ha, hb] at hsum
  exact hsum.symm

/-- The bits of a mask taken out of a word. -/
theorem bitN_sub_and (n m i : Nat) : bitN (n - (n &&& m)) i = (bitN n i && !bitN m i) := by
  have hparts : (n &&& m) + Nat.ldiff n m = n := by
    rw [add_eq_or_of_disjoint]
    · refine bits_ext fun j => ?_
      cases hj : n.testBit j <;> simp [bitN_eq, Nat.testBit_ldiff, hj, Bool.or_not_self]
    · intro j
      cases hj : m.testBit j <;> simp [bitN_eq, Nat.testBit_ldiff, hj]
  have hrest : n - (n &&& m) = Nat.ldiff n m := by omega
  rw [hrest, bitN_eq, Nat.testBit_ldiff, bitN_eq, bitN_eq]

/-- The bits of a word whose bits under a mask are replaced by those of another. -/
theorem bitN_replace (n v m i : Nat) : bitN (n - (n &&& m) + (v &&& m)) i = if bitN m i then bitN v i else bitN n i := by
  have hand : ∀ j, bitN (v &&& m) j = (bitN v j && bitN m j) := fun j => by simp [bitN_eq]
  rw [add_eq_or_of_disjoint, bitN_or, bitN_sub_and, hand]
  · cases bitN m i <;> simp
  · intro j
    rw [bitN_sub_and, hand]
    cases bitN m j <;> simp

/-- The bits of a word with those set in both of two masks cleared. -/
theorem bitN_sub_and_and (n v m i : Nat) : bitN (n - (n &&& v &&& m)) i = (bitN n i && !(bitN v i && bitN m i)) := by
  rw [Nat.and_assoc, bitN_sub_and]
  simp [bitN_eq]

end Sys2Proof

namespace Sys2Proof.Machine

/-! ### The generic write of a word (R11, R623) -/

section
variable {s : State} {o v k : Nat} {row : RegRow}

/-- A bit of a word set as a number. -/
theorem State.bit_put_self (s : State) (o v : Nat) {i : Nat} (hi : i < 32) : bitN ((s.put o v).rd o) i = bitN v i := by
  rw [State.rd_put_self, bitN_mod]
  simp [hi]

/-- A masked write of a word of the map: the word set, and marked where the table's reset is X (R660). -/
theorem State.storeMasked_eq (h : regAt o = some (row, k)) :
    let m := (row.mask >>> (32 * k)) % 2 ^ 32
    let t := s.put o (s.rd o - (s.rd o &&& m) + (v &&& m))
    s.storeMasked o v = if row.isX then t.markWritten o else t := by
  simp only [State.storeMasked, h]

@[simp] theorem State.markWritten_rd (s : State) (o o' : Nat) : (s.markWritten o).rd o' = s.rd o' := by
  unfold State.markWritten
  split <;> rfl

theorem State.markWritten_eq (s : State) (o : Nat) : s.markWritten o = { s with written := (s.markWritten o).written } := by
  unfold State.markWritten
  split <;> rfl

/-- A masked write sets the writable bits and keeps the others. -/
theorem State.bit_storeMasked (h : regAt o = some (row, k)) {i : Nat} (hi : i < 32) :
    bitN ((s.storeMasked o v).rd o) i = if bitN (row.mask >>> (32 * k)) i then bitN v i else bitN (s.rd o) i := by
  have hm : bitN ((row.mask >>> (32 * k)) % 2 ^ 32) i = bitN (row.mask >>> (32 * k)) i := by
    rw [bitN_mod]
    simp [hi]
  rw [State.storeMasked_eq h, ← hm, ← bitN_replace]
  split
  · rw [State.markWritten_rd, State.bit_put_self s o _ hi]
  · exact State.bit_put_self s o _ hi

/-- RW and RWS: a write is a masked write. -/
theorem State.storeWord_rw (h : regAt o = some (row, k)) (hacc : row.acc = .rw ∨ row.acc = .rws) :
    s.storeWord o v = s.storeMasked o v := by
  rcases hacc with hacc | hacc <;> simp only [State.storeWord, h, hacc]

/-- W1C: a 1 clears a bit of the field. -/
theorem State.storeWord_w1c (h : regAt o = some (row, k)) (hacc : row.acc = .w1c) :
    s.storeWord o v = s.put o (s.rd o - (s.rd o &&& v &&& ((row.mask >>> (32 * k)) % 2 ^ 32))) := by
  simp only [State.storeWord, h, hacc]

theorem State.bit_storeWord_w1c (h : regAt o = some (row, k)) (hacc : row.acc = .w1c) {i : Nat} (hi : i < 32) :
    bitN ((s.storeWord o v).rd o) i = (bitN (s.rd o) i && !(bitN v i && bitN (row.mask >>> (32 * k)) i)) := by
  rw [State.storeWord_w1c h hacc, State.bit_put_self s o _ hi, bitN_sub_and_and, bitN_mod]
  simp [hi]

/-- RO, RC and WO: the access code alone takes nothing of a write. -/
theorem State.storeWord_ignored (h : regAt o = some (row, k)) (hacc : row.acc = .ro ∨ row.acc = .rc ∨ row.acc = .wo) :
    s.storeWord o v = s := by
  rcases hacc with hacc | hacc | hacc <;> simp only [State.storeWord, h, hacc]

/-- A masked write changes its own word and the mark of words written only. -/
theorem State.storeMasked_frame (s : State) (o v : Nat) :
    RegsKept s (s.storeMasked o v) [o]
      ∧ s.storeMasked o v = { s with regs := (s.storeMasked o v).regs, written := (s.storeMasked o v).written } := by
  unfold State.storeMasked
  split
  · exact ⟨RegsKept.refl s [o], rfl⟩
  · dsimp only
    split
    · refine ⟨fun o' ho => ?_, ?_⟩
      · rw [State.markWritten_rd]; exact s.put_kept o _ o' ho
      · rw [State.markWritten_eq]; rfl
    · exact ⟨s.put_kept o _, rfl⟩

/-- A write under an access code changes no more than a masked write does. -/
theorem State.storeWord_frame (s : State) (o v : Nat) :
    RegsKept s (s.storeWord o v) [o]
      ∧ s.storeWord o v = { s with regs := (s.storeWord o v).regs, written := (s.storeWord o v).written } := by
  unfold State.storeWord
  split
  · exact ⟨RegsKept.refl s [o], rfl⟩
  · split
    case h_1 | h_2 => exact s.storeMasked_frame o v
    case h_3 => exact ⟨s.put_kept o _, rfl⟩
    case h_4 | h_5 | h_6 => exact ⟨RegsKept.refl s [o], rfl⟩

end

end Sys2Proof.Machine
end

section
/-! SUPPORT. A unicast access of registers (R11, R623) that nothing refuses: it writes or reads the words its offset selects. With it the
statement on unicast writes. -/

namespace Sys2Proof.Machine

/-- Only a register of a fixed block and a unit's slot name words. -/
theorem selWords_ne_nil {sel : Sel} {w : Nat} (h : selWords sel w ≠ []) :
    (∃ o, sel = .reg o) ∨ ∃ kind u inner, sel = .unit kind u inner := by
  cases sel with
  | reg o => exact .inl ⟨o, rfl⟩
  | unit kind u inner => exact .inr ⟨kind, u, inner, rfl⟩
  | window t a | many kind g inner | reserved => exact absurd rfl h

section
variable {s : State} {r : ReqId} {off w : Nat}

/-- A write that nothing refuses, of registers, writes their words. -/
theorem State.localWrite_words (v : Nat) (hok : s.accCheck r true (selOf off w) w = none) (hw : selWords (selOf off w) w ≠ []) :
    s.localWrite r off w v = (none, s.regWrite r (selWords (selOf off w) w) v) := by
  unfold State.localWrite
  dsimp only
  rw [hok]
  rcases selWords_ne_nil hw with ⟨o, hsel⟩ | ⟨kind, u, inner, hsel⟩ <;> simp only [hsel]

/-- A read that nothing refuses, of registers, reads their words. -/
theorem State.localRead_words (clear counted : Bool) (hok : s.accCheck r false (selOf off w) w = none)
    (hw : selWords (selOf off w) w ≠ []) :
    s.localRead r off w clear counted = ((s.regRead r (selWords (selOf off w) w) clear counted).1, none,
      (s.regRead r (selWords (selOf off w) w) clear counted).2) := by
  unfold State.localRead
  dsimp only
  rw [hok]
  rcases selWords_ne_nil hw with ⟨o, hsel⟩ | ⟨kind, u, inner, hsel⟩ <;> simp only [hsel]

/-- REGISTER_WRITE of registers of this package that nothing refuses. -/
theorem exec_registerWrite_words {off : BitVec 28} (v : BitVec 64) (hal : s.alive = true) (hmir : isMirror off.toNat = false)
    (hok : s.accCheck r true (selOf off.toNat w) w = none) (hw : selWords (selOf off.toNat w) w ≠ []) :
    exec (.registerWrite r off w v) s = .next (s.regWrite r (selWords (selOf off.toNat w) w) v.toNat) := by
  simp [exec, execRegisterWrite, State.wr, hal, State.csWrite, hmir, State.localWrite_words _ hok hw]

/-- RC_READ of registers of this package that nothing refuses. -/
theorem exec_rcRead_words {off : BitVec 28} (n : Bool) (hal : s.alive = true) (hmir : isMirror off.toNat = false)
    (hok : s.accCheck r false (selOf off.toNat w) w = none) (hw : selWords (selOf off.toNat w) w ≠ []) :
    exec (.rcRead r off w n) s = .next ((s.regRead r (selWords (selOf off.toNat w) w) true n).2.give r
      (s.regRead r (selWords (selOf off.toNat w) w) true n).1) := by
  simp [exec, execRcRead, State.rdCmd, hal, State.csRead, hmir, State.localRead_words _ _ hok hw]

end

/-- Settles O28: the access is the write of its words, and each access code has its own law of the word. -/
theorem unicastWrites : Obligations.UnicastWrites := by
  refine ⟨fun s r off w v hal hmir hok hw => exec_registerWrite_words v hal hmir hok hw, fun s o v row k h => ?_⟩
  refine ⟨fun hacc i hi => ?_, fun hacc i hi => State.bit_storeWord_w1c h hacc hi, fun hacc => ?_, s.storeWord_frame o v⟩
  · rw [State.storeWord_rw h hacc, State.bit_storeMasked h hi]
  · exact State.storeWord_ignored h (hacc.imp_right .inl)

end Sys2Proof.Machine
end

section
/-! SUPPORT. Reads that clear (R13, R14): what a read of a counter returns and leaves, a tile's cycle counter with the cycles due to it
(log 56). With it the statement on reads of counters. -/

namespace Sys2Proof.Machine

/-! ### Where a doubleword lies -/

/-- The offset of a word of a unit's slot is as aligned as the word's place in the slot. -/
theorem eight_dvd_unitOff (kind u : Nat) {inner : Nat} (h : 8 ∣ inner) : 8 ∣ unitOff kind u inner := by
  unfold unitOff Reg.dreyEngState
  split
  · split <;> omega
  · omega

/-- The first word of a doubleword in a slot region. -/
theorem eight_dvd_of_slotSel {kind a o o' : Nat} (ha : 8 ∣ a) (h : selWords (slotSel kind a) 8 = [o, o']) : 8 ∣ o := by
  unfold slotSel at h
  dsimp only at h
  split at h
  · have ho : unitOff kind (a / 0x1000) (a % 0x1000 + 4 * 0) = o := by
      simpa [selWords, List.range_succ] using (List.cons.inj h).1
    exact ho ▸ eight_dvd_unitOff kind _ (by omega)
  · split at h
    · cases h
    · split at h <;> cases h

/-- A doubleword of registers starts at a multiple of 8 (R623). -/
theorem eight_dvd_of_selOf {off o o' : Nat} (h : selWords (selOf off 8) 8 = [o, o']) : 8 ∣ o := by
  unfold selOf at h
  split at h
  · cases h
  have hoff : 8 ∣ off := by omega
  split at h
  · split at h
    · split at h <;> cases h
    · cases h
  · dsimp only at h
    split at h
    · have ho : (off - 0x8000000) % 0x4000000 = o := by simpa [selWords, List.range_succ] using (List.cons.inj h).1
      omega
    · split at h
      · exact eight_dvd_of_slotSel (by omega) h
      · split at h
        · exact eight_dvd_of_slotSel (by omega) h
        · split at h
          · exact eight_dvd_of_slotSel (by omega) h
          · cases h

/-! ### What a tile's registers read as -/

/-- A register of a tile's block reads as the tile's own view of it, unless it is write-only. -/
theorem State.peekWord_tile (s : State) (t : TileId) {i k : Nat} {row : RegRow} (hi : i < 0x1000)
    (hrow : regAt (Reg.tileId t + i) = some (row, k)) (hacc : row.acc ≠ .wo) : s.peekWord (Reg.tileId t + i) = s.tilePeek t i := by
  have ht := t.isLt
  have hbase : Reg.tileId t = 0x1000000 + 0x1000 * t.val := rfl
  have hslot : (Reg.tileId t + i - 0x1000000) / 0x1000 = t.val := by omega
  have hin : (Reg.tileId t + i) % 0x1000 = i := by omega
  have hget : (List.finRange 32)[t.val]? = some t := by simp
  have hlow : ∀ x, x < 0x1000000 → Reg.tileId t + i ≠ x := by omega
  unfold State.peekWord
  rw [if_neg (hlow _ (by decide)), if_neg (hlow _ (by decide)), if_neg (hlow _ (by decide)), if_neg (hlow _ (by decide)),
    if_neg (hlow _ (by decide)), if_neg (by unfold Reg.gaitIdkCert; omega), if_neg (by unfold Reg.hltVerdictTime; omega), hrow]
  dsimp only
  rw [if_neg hacc, if_pos (by omega), hslot, hget, hin]

/-- The low word of TILE_CNT_CYCLES reads with the cycles due (log 56). -/
theorem State.tilePeek_cycles (s : State) (t : TileId) :
    s.tilePeek t 0x100 = (s.rd64 (Reg.tileCntCycles t) + s.cyclesDue t) % 2 ^ 32 := by
  have hreg : Reg.tileId t + 0x100 = Reg.tileCntCycles t := by unfold Reg.tileId Reg.tileCntCycles; omega
  unfold State.tilePeek
  dsimp only
  rw [hreg, if_neg (by unfold Reg.tileCntCycles Reg.tileId; omega), if_neg (by unfold Reg.tileCntCycles Reg.tileHpend; omega), if_pos rfl]

/-- The high word likewise. -/
theorem State.tilePeek_cycles_high (s : State) (t : TileId) :
    s.tilePeek t 0x104 = (s.rd64 (Reg.tileCntCycles t) + s.cyclesDue t) / 2 ^ 32 % 2 ^ 32 := by
  have hreg : Reg.tileId t + 0x104 = Reg.tileCntCycles t + 4 := by unfold Reg.tileId Reg.tileCntCycles; omega
  unfold State.tilePeek
  dsimp only
  rw [hreg, if_neg (by unfold Reg.tileCntCycles Reg.tileId; omega), if_neg (by unfold Reg.tileCntCycles Reg.tileHpend; omega),
    if_neg (by omega), if_pos rfl]

/-! ### The words a read clears (R13, R14) -/

theorem State.put64_eq (s : State) (o v : Nat) : s.put64 o v = { s with regs := (s.put64 o v).regs } := rfl

theorem State.count64_kept (s : State) (o n : Nat) : RegsKept s (s.count64 o n) [o, o + 4] := s.put64_kept o _

theorem State.count64_eq (s : State) (o n : Nat) : s.count64 o n = { s with regs := (s.count64 o n).regs } := rfl

section
variable {s : State} {o k : Nat} {row : RegRow} {n : Bool}

/-- A 32-bit counter read: 0, or 1 where an event met the read. -/
theorem State.clearRc_word (hrow : regAt o = some (row, k)) (hacc : row.acc = .rc) (hwords : row.words = 1) (herr : isAccErr o = false) :
    s.clearRc [o] n = if n then (s.put o 0).put o 1 else s.put o 0 := by
  cases n <;> simp [State.clearRc, hrow, hacc, hwords, herr]

/-- A 64-bit counter read by its width, likewise. -/
theorem State.clearRc_double (hrow : regAt o = some (row, 0)) (hrow' : regAt (o + 4) = some (row, 1)) (hacc : row.acc = .rc)
    (hwords : row.words = 2) (herr : isAccErr o = false) :
    s.clearRc [o, o + 4] n = if n then (s.put64 o 0).count64 o else s.put64 o 0 := by
  cases n <;> simp [State.clearRc, hrow, hrow', hacc, hwords, herr, State.put64]

/-- A 32-bit read of half of a 64-bit counter that no event meets clears nothing. -/
theorem State.clearRc_half (hrow : regAt o = some (row, k)) (hwords : row.words = 2) (herr : isAccErr o = false) :
    s.clearRc [o] false = s := by
  simp [State.clearRc, hrow, hwords, herr]

/-- What that leaves: the counter at 0 or 1, every other word and all other state as before. -/
theorem State.clearRc_word_spec (hrow : regAt o = some (row, k)) (hacc : row.acc = .rc) (hwords : row.words = 1)
    (herr : isAccErr o = false) :
    (s.clearRc [o] n).rd o = b2n n ∧ RegsKept s (s.clearRc [o] n) [o]
      ∧ s.clearRc [o] n = { s with regs := (s.clearRc [o] n).regs } := by
  rw [State.clearRc_word hrow hacc hwords herr]
  cases n with
  | false => exact ⟨by simp [b2n], s.put_kept o 0, rfl⟩
  | true => exact ⟨by simp [b2n], (s.put_kept o 0).trans (State.put_kept _ o 1), rfl⟩

/-- What that leaves, likewise. -/
theorem State.clearRc_double_spec (hrow : regAt o = some (row, 0)) (hrow' : regAt (o + 4) = some (row, 1)) (hacc : row.acc = .rc)
    (hwords : row.words = 2) (herr : isAccErr o = false) :
    (s.clearRc [o, o + 4] n).rd64 o = b2n n ∧ RegsKept s (s.clearRc [o, o + 4] n) [o, o + 4]
      ∧ s.clearRc [o, o + 4] n = { s with regs := (s.clearRc [o, o + 4] n).regs } := by
  rw [State.clearRc_double hrow hrow' hacc hwords herr]
  cases n with
  | false => exact ⟨by simp [State.rd64_put64, b2n], s.put64_kept o 0, State.put64_eq s o 0⟩
  | true =>
    refine ⟨?_, (s.put64_kept o 0).trans (State.count64_kept _ o 1), State.count64_eq (s.put64 o 0) o 1⟩
    simp [State.count64, State.rd64_put64, b2n]

end

/-! ### A read of registers -/

/-- Words of neither the event-log window nor Halter's verdict: a read of them has no effect but to clear. -/
def PlainWords (os : List Nat) : Prop :=
  ∀ x ∈ os, ¬ (0xA0000 ≤ x ∧ x < 0xC0000) ∧ ¬ (Reg.hltVerdictFrame ≤ x ∧ x < Reg.hltVerdictTime + 8)

theorem PlainWords.not_log {os : List Nat} (h : PlainWords os) : os.any (fun o => decide (0xA0000 ≤ o ∧ o < 0xC0000)) = false := by
  rw [List.any_eq_false]
  exact fun x hx => by simpa using (h x hx).1

theorem PlainWords.not_verdict {os : List Nat} (h : PlainWords os) :
    os.any (fun o => decide (Reg.hltVerdictFrame ≤ o ∧ o < Reg.hltVerdictTime + 8)) = false := by
  rw [List.any_eq_false]
  exact fun x hx => by simpa using (h x hx).2

section
variable {s : State} {r : ReqId} {os : List Nat} {n : Bool}

/-- A read of plain words that hold no cycle counter only clears. -/
theorem State.regRead_plain (h : PlainWords os) (hcyc : ∀ t : TileId, Reg.tileCntCycles t ∉ os) :
    s.regRead r os true n = (wordsNat (os.map s.peekWord), s.clearRc os n) := by
  have hfind : (List.finRange 32).find? (fun (t : TileId) => os.contains (Reg.tileCntCycles t.val)) = none := by
    simpa using hcyc
  simp only [State.regRead, h.not_log, h.not_verdict, hfind, Bool.false_eq_true, and_false, if_false, if_true]

/-- A read of the cycle counter of one tile first counts the cycles due to it (log 56). -/
theorem State.regRead_cycles {t : TileId} (h : PlainWords os) (hcyc : ∀ u : TileId, Reg.tileCntCycles u ∈ os ↔ u = t) :
    s.regRead r os true n = (wordsNat (os.map s.peekWord), (s.countCycles t).clearRc os n) := by
  have hfind : (List.finRange 32).find? (fun (u : TileId) => os.contains (Reg.tileCntCycles u.val)) = some t := by
    cases hf : (List.finRange 32).find? (fun (u : TileId) => os.contains (Reg.tileCntCycles u.val)) with
    | none => exact absurd ((hcyc t).2 rfl) (by simpa using List.find?_eq_none.1 hf t (List.mem_finRange t))
    | some u => rw [(hcyc u).1 (by simpa using List.find?_some hf)]
  simp only [State.regRead, h.not_log, h.not_verdict, hfind, Bool.false_eq_true, and_false, if_false, if_true]

end

/-! ### What the requester is given -/

theorem State.give_rdata (s : State) (r : ReqId) (v : Nat) : spGet (fun _ => (0 : W64)) (s.give r v).rdata r.val = BitVec.ofNat 64 v :=
  spGet_set_self _ _ _

/-- Data given after registers changed. -/
theorem State.give_eq_of_regs {s c : State} (r : ReqId) (v : Nat) (h : c = { s with regs := c.regs }) :
    c.give r v = { s with regs := (c.give r v).regs, rdata := (c.give r v).rdata } := by
  obtain ⟨g, rfl⟩ : ∃ g, c = { s with regs := g } := ⟨_, h⟩
  rfl

/-- Low and high word of a number of 64 bits. -/
theorem wordsNat_split (x : Nat) : wordsNat [x % 2 ^ 32, x / 2 ^ 32 % 2 ^ 32] = x % 2 ^ 64 := by
  simp only [wordsNat]
  omega

/-- The cycles due counted: the tile's instant of counting moves. -/
theorem State.countCycles_tiles (s : State) (t : TileId) :
    (s.countCycles t).tiles = (s.modTile t (fun tl => { tl with cycFrom := tl.cycFrom + 5 * (s.cyclesDue t / 8) })).tiles := rfl

theorem State.countCycles_kept (s : State) (t : TileId) : RegsKept s (s.countCycles t) [Reg.tileCntCycles t, Reg.tileCntCycles t + 4] :=
  State.count64_kept _ _ _

/-- TILE_CNT_CYCLES reads as what it holds and the cycles due (log 56). -/
theorem State.wordsNat_cycles (s : State) (t : TileId) {row : RegRow} (hrow : regAt (Reg.tileCntCycles t) = some (row, 0))
    (hrow' : regAt (Reg.tileCntCycles t + 4) = some (row, 1)) (hacc : row.acc = .rc) :
    wordsNat ([Reg.tileCntCycles t, Reg.tileCntCycles t + 4].map s.peekWord) = (s.rd64 (Reg.tileCntCycles t) + s.cyclesDue t) % 2 ^ 64 := by
  have hlo : Reg.tileCntCycles t = Reg.tileId t + 0x100 := by unfold Reg.tileId Reg.tileCntCycles; omega
  have hhi : Reg.tileCntCycles t + 4 = Reg.tileId t + 0x104 := by omega
  have hwo : row.acc ≠ .wo := by simp [hacc]
  have plo : s.peekWord (Reg.tileCntCycles t) = (s.rd64 (Reg.tileCntCycles t) + s.cyclesDue t) % 2 ^ 32 := by
    rw [← s.tilePeek_cycles t, ← s.peekWord_tile t (by decide) (hlo ▸ hrow) hwo, hlo]
  have phi : s.peekWord (Reg.tileCntCycles t + 4) = (s.rd64 (Reg.tileCntCycles t) + s.cyclesDue t) / 2 ^ 32 % 2 ^ 32 := by
    rw [← s.tilePeek_cycles_high t, ← s.peekWord_tile t (by decide) (hhi ▸ hrow') hwo, hhi]
  rw [List.map_cons, List.map_cons, List.map_nil, plo, phi, wordsNat_split]

/-! ### RC_READ (R13, R14, R623) -/

section
variable {s : State} {r : ReqId} {off : BitVec 28} {n : Bool} {row : RegRow} {o : Nat}

/-- The words of a doubleword of registers are plain where its first word is: the windows start and end at multiples of 8. -/
theorem PlainWords.pair (h8 : 8 ∣ o) (h : PlainWords [o]) : PlainWords [o, o + 4] := by
  obtain ⟨hlog, hver⟩ := h o (by simp)
  unfold Reg.hltVerdictFrame Reg.hltVerdictTime at hver
  intro x hx
  simp only [List.mem_cons, List.not_mem_nil, or_false] at hx
  unfold Reg.hltVerdictFrame Reg.hltVerdictTime
  omega

/-- A doubleword of registers holds the cycle counter of a tile only if it starts with it. -/
theorem tileCntCycles_mem_pair (h8 : 8 ∣ o) (t : TileId) : Reg.tileCntCycles t ∈ [o, o + 4] ↔ o = Reg.tileCntCycles t := by
  simp only [List.mem_cons, List.not_mem_nil, or_false]
  unfold Reg.tileCntCycles
  omega

theorem tileCntCycles_inj {t u : TileId} (h : Reg.tileCntCycles t = Reg.tileCntCycles u) : t = u := by
  unfold Reg.tileCntCycles at h
  exact Fin.ext (by omega)

/-- The access of plain words that hold no cycle counter. -/
theorem exec_rcRead_plain {w : Nat} {os : List Nat} (hal : s.alive = true) (hmir : isMirror off.toNat = false)
    (hok : s.accCheck r false (selOf off.toNat w) w = none) (hsel : selWords (selOf off.toNat w) w = os) (hne : os ≠ [])
    (hpl : PlainWords os) (hcyc : ∀ t : TileId, Reg.tileCntCycles t ∉ os) :
    exec (.rcRead r off w n) s = .next ((s.clearRc os n).give r (wordsNat (os.map s.peekWord))) := by
  rw [exec_rcRead_words n hal hmir hok (hsel ▸ hne), hsel, State.regRead_plain hpl hcyc]

/-- The access of the words of a tile's cycle counter. -/
theorem exec_rcRead_cycles {w : Nat} {os : List Nat} {t : TileId} (hal : s.alive = true) (hmir : isMirror off.toNat = false)
    (hok : s.accCheck r false (selOf off.toNat w) w = none) (hsel : selWords (selOf off.toNat w) w = os)
    (hpl : PlainWords os) (hcyc : ∀ u : TileId, Reg.tileCntCycles u ∈ os ↔ u = t) :
    exec (.rcRead r off w n) s = .next (((s.countCycles t).clearRc os n).give r (wordsNat (os.map s.peekWord))) := by
  have hne : os ≠ [] := List.ne_nil_of_mem ((hcyc t).2 rfl)
  rw [exec_rcRead_words n hal hmir hok (hsel ▸ hne), hsel, State.regRead_cycles hpl hcyc]

end

/-- Settles O29: the read gives what its words read as, and then clears the counter it holds whole; of a tile's cycle counter it first
counts the cycles due. -/
theorem rcReads : Obligations.RcReads := by
  intro s r off n row o hal hmir hsel hacc hlog herr herr' hver
  have hpl : PlainWords [o] := List.forall_mem_singleton.2 ⟨hlog, hver⟩
  have hne : isAccErr o = false := by simp [isAccErr, herr, herr']
  have hnot : (¬ ∃ t : TileId, o = Reg.tileCntCycles t) → ∀ t : TileId, Reg.tileCntCycles t ∉ [o] :=
    fun hcyc t ht => hcyc ⟨t, (List.mem_singleton.1 ht).symm⟩
  refine ⟨fun hok hrow hwords hcyc => ?word, fun hok hn hrow hwords hcyc => ?half, fun hsel8 hok hrow hrow' hwords hcyc => ?double,
    fun t ho hsel8 hok hrow hrow' hwords => ?cycles⟩
  case word =>
    obtain ⟨hrd, hkept, heq⟩ := State.clearRc_word_spec (s := s) (n := n) hrow hacc hwords hne
    exact ⟨_, exec_rcRead_plain hal hmir hok hsel (by simp) hpl (hnot hcyc), State.give_rdata _ _ _, hrd, hkept, State.give_eq_of_regs r _ heq⟩
  case half =>
    obtain ⟨k, hrow⟩ := hrow
    subst hn
    refine ⟨_, exec_rcRead_plain hal hmir hok hsel (by simp) hpl (hnot hcyc), State.give_rdata _ _ _, ?_⟩
    rw [State.clearRc_half hrow hwords hne]
    rfl
  case double =>
    have h8 := eight_dvd_of_selOf hsel8
    have hnot8 : ∀ t : TileId, Reg.tileCntCycles t ∉ [o, o + 4] := fun t ht => hcyc ⟨t, (tileCntCycles_mem_pair h8 t).1 ht⟩
    obtain ⟨hrd, hkept, heq⟩ := State.clearRc_double_spec (s := s) (n := n) hrow hrow' hacc hwords hne
    exact ⟨_, exec_rcRead_plain hal hmir hok hsel8 (by simp) (hpl.pair h8) hnot8, State.give_rdata _ _ _, hrd, hkept,
      State.give_eq_of_regs r _ heq⟩
  case cycles =>
    have h8 := eight_dvd_of_selOf hsel8
    have honly : ∀ u : TileId, Reg.tileCntCycles u ∈ [o, o + 4] ↔ u = t := fun u => by
      rw [tileCntCycles_mem_pair h8 u, ho]
      exact ⟨fun h => (tileCntCycles_inj h).symm, fun h => by rw [h]⟩
    obtain ⟨hrd, hkept, heq⟩ := State.clearRc_double_spec (s := s.countCycles t) (n := n) hrow hrow' hacc hwords hne
    have htiles : ((s.countCycles t).clearRc [o, o + 4] n).tiles = (s.countCycles t).tiles := by rw [heq]
    subst ho
    refine ⟨_, exec_rcRead_cycles hal hmir hok hsel8 (hpl.pair h8) honly, ?_, hrd,
      (s.countCycles_kept t).trans hkept, ?_, ?_, fun u hu => ?_⟩
    · exact (State.give_rdata _ _ _).trans (congrArg (BitVec.ofNat 64) (s.wordsNat_cycles t hrow hrow' hacc))
    · rw [State.give_eq_of_regs r _ heq]
      rfl
    · rw [State.give_tiles, htiles, State.countCycles_tiles, State.modTile_self]
    · rw [State.give_tiles, htiles, State.countCycles_tiles, State.modTile_ne s _ hu]

end Sys2Proof.Machine
end

section
/-! SUPPORT. No command and no data stops the device (R38): every command answers a next state in every state. With it the statement that
says so. -/

namespace Sys2Proof.Machine

open Host

/-- Either way of a choice. -/
theorem Goes.ite {p : Prop} [Decidable p] {a b : Outcome State Fault Refusal} (ha : Goes a) (hb : Goes b) :
    Goes (if p then a else b) := by
  split
  · exact ha
  · exact hb

/-- An event whose condition does not hold changes nothing (log 4). -/
theorem Goes.guard {p : Prop} [Decidable p] {s : State} {o : Outcome State Fault Refusal} (h : Goes o) :
    Goes (if p then .next s else o) :=
  Goes.ite (Goes.next s) h

/-- IDK_COMMAND_DONE (R580), either command: whatever the signature or the shared point comes to. -/
theorem execIdkCommandDone_goes (s : State) : Goes (execIdkCommandDone s) := by
  unfold execIdkCommandDone
  refine Goes.guard ?_
  split
  · exact Goes.next s
  · refine Goes.ite ?_ (Goes.guard ?_)
    · split
      exact Goes.next _
    · split <;> exact Goes.next _

/-- SVC_ACCESS_DONE (R486, R631): an access under way ends with its status. -/
theorem execSvcAccessDone_goes (s : State) : Goes (execSvcAccessDone s) := by
  unfold execSvcAccessDone
  split
  · exact Goes.next s
  · exact Goes.guard (Goes.ite (Goes.guard (Goes.next _)) (Goes.next _))

/-- PAGE_WALK_END (R437): an entry for the TLB, or a fault for whoever waits. -/
theorem execPageWalkEnd_goes (t : TileId) (s : State) : Goes (execPageWalkEnd t s) := by
  unfold execPageWalkEnd
  refine Goes.guard ?_
  split
  · exact Goes.next _
  · dsimp only
    split
    · exact Goes.next _
    · split
      · exact Goes.next _
      · exact Goes.ite (Goes.next _) (Goes.ite (Goes.next _) (Goes.next _))

/-- SRAM_UNCORRECTABLE_ERROR (Table 18-1), by the class of the SRAM. -/
theorem execSramUncorrectableError_goes (c : SramClass) (s : State) : Goes (execSramUncorrectableError c s) := by
  refine Goes.guard ?_
  cases c with
  | tile | dreyDir | halterBank | eventLog => exact Goes.next _
  | memory a => exact Goes.ite (Goes.next _) (Goes.next _)
  | baseBuffer par =>
    cases par with
    | none => exact Goes.next _
    | some p =>
      dsimp only
      split <;> exact Goes.next _

/-- Every command answers a next state: an instruction through its issue, an access through the register write or read, an arrival
through the SCI logic, and an event by each way through its conditions. -/
theorem exec_goes (c : Instr) (s : State) : Goes (exec c s) := by
  cases c with
  -- Berbo instructions: the control core's, then the units'
  | add | sub | and | or | xor | sll | srl | sra | slt | sltu | min | max | mul | mulh | addI | andI | orI | xorI | sllI | srlI
  | sraI | sltI | liH | ldt | ldtW | stt | sttW | ld | ldW | st | stW | beq | bne | blt | bge | bltu | bgeu | jal | jr | pcmpEq
  | pcmpNe | pcmpLt | pcmpLtu | pcmpEqI | pcmpLtI | pand | por | pxor | pnot | pset | twait | tsig | tread | fenceSb | fenceSc
  | fenceU | fenceAll | epochBegin | epochCommit | epochRein | endItem | tsrr | tsrw | tlbInv | resume | abandon =>
    apply State.ccIssue_goes
  | mmaP | mmaD | mmaS | mmaW | mmaPZ | mmaDZ | mmaSZ | wld | wldSp | wldSpt | swap | vadd | vsub | vmul | vmax | vmin | vand
  | vor | vxor | vshl | vshr | vcvt | vld | vst | vbcast | vlane | vrsum | lblSt | qexp | qcmp | qmrgU | qmrgI | qsort | qred
  | gath | gathR | gathQ8 | gathQ4 | gathPf | hlook | scat | hpref | hupdQ8 | hupdQ4 | treLdl | treLdn | treLadder | treWalk =>
    apply State.uIssue_goes
  -- Accesses of control space, and arrivals on the Cascade Interface
  | registerWrite | framePeriodWrite | ingCposeGo | portVerifyRequest | portUnverifyRequest | portCalCtrlWrite
  | portGtimeCtrlWrite | ingPoseHeadWrite | ingCtrlEnSet | ingCtrlEnClear | rideAheadWrite | dreySplitWrite | tileReset
  | mgmtReturnToService | mgmtTakeOutOfService | mgmtReset | mgmtReleaseQuarantine | tileSchedProgWrite | tileSchedSelWrite
  | tileSchedKick | shardMig | shardSwitch | shardCancelMig | tileTlbInvWrite | copyHeadWrite | bondTestStart | sciEnable
  | pairLoad | pairErase | pairWrap | pairUnwrap | gaitReqWalk | gaitReqTrot | gaitReqStable | gaitReqNone | gaitRstHostCore
  | gaitRstPackage | gaitBootDoorbell | gaitSvnAdv | idkSign | idkEcdh | gaitIdkLock | gaitWdog | gaitWdogKick | gaitTimeSet
  | gaitFrmStart | evtLogSw | gaitAccLock | aliasWrite | hitchBroadcastWrite | tileStoreWindowWrite =>
    apply State.wr_goes
  | rcRead | evtLogFirstWordRead | aliasRead | hitchBroadcastRead | tileStoreWindowRead =>
    apply State.rdCmd_goes
  | sciTrainingSet | sciStateTimeout | sciFlitReceive | sciAckTimeout | rd | wr | rdr | wra | ownPush | ownDone | ownVer | msi
  | contrib | crd | cwr | crr | cwa | cap | assign | accept | refuse | time | detach | sciRequestTimeout | sciTimeSend
  | contribWaitExpiry =>
    apply State.sciDo_goes
  -- What has its effect at once, or under a condition or two
  | stackSel | jtagBypass | jtagIdcode | jtagSamplePreload | jtagExtest | jtagIntest | svcRead | svcWrite | poll | pollWake
  | powerOnReset =>
    exact Goes.next _
  | commit | ingestReturn | dreyInsert | dreyRetirementScanEnd | linkDown | handlerEntry | shardLoadWindow | patrolScrub
  | refreshRateRead | dqsOscillatorCheck | bondErrorWindow | halterCsFall | halterMacReady | halterCsRise | tempSample | ppsInEdge
  | ppsOutSecond | trotToWalkDone | l2WriteBackDone | walkToStableDone | stableToWalkDone | canWakeNFall | wakeTimeReached
  | perstNRise | pwrGoodMainRise | pwrGoodMainTimeout | pwrGoodMainFall | refClockLoss | packageWatchdogExpiry | xtalFail
  | xtalEdgesReturn | gpioWakeEdge | xtalCalibrate | porstNRise | resetNAssert | frameBoundary | wheelAwaitLog =>
    exact Goes.guard (Goes.next _)
  | syncTransmit | pdelayReqTransmit | i3cHotJoin | i3cInBandInterrupt | tileWatchdogExpiry | tileWakeComplete | tileClockGate
  | programCheckEnd | shardSwitchApplied | tlbInvPendClear | copyDescriptorComplete | computeDieBringUp | dieAbsent | bondTestDone
  | resetWake | bootImageCheck =>
    exact Goes.guard (Goes.guard (Goes.next _))
  -- What first looks for the record it is about
  | epochReinReceive | lateArrivalWindowClose | poseDeadline | reinBackStart | hoardScatterDiscard | dreyEpochInvalidate
  | reinBackRelease | poseWaitExpiry | lifeWriteComplete | dreyLookup | unitInstructionStart | prefetchRowLand | itemComplete
  | gaitRequestRefuse | drainComplete | hitchBroadcastTimeout =>
    refine Goes.guard ?_
    split <;> exact Goes.next _
  -- What asks more: every way through its conditions and look-ups is a next state
  | sectorClose | kernelMapGenerate | ethFrameReceive | linkUp | litTimeTick | swapArm | bondFlitReceive | gaitRequestApply
  | kernelMapReady | dreyRepartition | unitInstructionRetire | storeBufferAccept | gatherResponse | scatterEntryAccept
  | deviceLoadReturn | tileSelfTestEnd | itemDispatch | pcieInboundRequest | bondTimeout =>
    refine Goes.guard ?_
    repeat' (first | exact Goes.next _ | refine Goes.ite ?_ ?_ | split)
  | pageWalkEnd t => exact execPageWalkEnd_goes t s
  | sramUncorrectableError k => exact execSramUncorrectableError_goes k s
  | svcAccessDone => exact execSvcAccessDone_goes s
  | idkCommandDone => exact execIdkCommandDone_goes s

/-- A nanosecond with no command waiting, or the command in front. -/
theorem step_goes (s : State) : Goes (step s) := by
  unfold step
  split
  · exact Goes.next _
  · exact exec_goes _ _

/-- Settles O3: no meaning of a command ends in a fault or a refusal (log 52), and one whose condition does not hold changes nothing
(log 4). -/
theorem nothingStops : Obligations.NothingStops := ⟨exec_goes, step_goes⟩

end Sys2Proof.Machine
end

section
/-! SUPPORT. A write of a register of the always-on blocks that is not host-only (R627 to R629): from a requester that no lock refuses it
is the write of its words. -/

namespace Sys2Proof.Machine

/-! ### Writes of registers that every requester may write (R627 to R629) -/

/-- A register of a fixed block has its own address (Table 19-1). -/
theorem selOf_csOffset {o w : Nat} (ho : o < 0x280000) (hw : w = 4 ∨ w = 8) (hal : o % w = 0) : selOf (csOffset o) w = .reg o := by
  have hmod : (0x8000000 + o - 0x8000000) % 0x4000000 = o := by omega
  have hdvd : (0x8000000 + o) % w = 0 := by rcases hw with rfl | rfl <;> omega
  unfold selOf csOffset
  rw [if_neg (by omega), if_neg (by omega)]
  dsimp only
  rw [hmod, if_pos ho]

theorem isMirror_csOffset {o : Nat} (ho : o < 0x280000) : isMirror (csOffset o) = false := by
  unfold isMirror csOffset
  exact decide_eq_false (by omega)

section
variable {s : State} {r : ReqId} {o w v : Nat}

/-- A write command of registers of this package that nothing refuses. -/
theorem State.wr_words {off : Nat} (v : Nat) (hal : s.alive = true) (hmir : isMirror off = false)
    (hok : s.accCheck r true (selOf off w) w = none) (hw : selWords (selOf off w) w ≠ []) :
    s.wr r off w v = .next (s.regWrite r (selWords (selOf off w) w) v) := by
  simp [State.wr, hal, State.csWrite, hmir, State.localWrite_words _ hok hw]

/-- A write of a register of the always-on blocks that is not host-only. -/
theorem State.wr_open (v : Nat) (h : MayWrite s r) (ho : o < 0xC0000) (hw : w = 4 ∨ w = 8) (hal : o % w = 0)
    (hopen : ∀ x ∈ selWords (.reg o) w, hostOnly x = false) : s.wr r (csOffset o) w v = .next (s.regWrite r (selWords (.reg o) w) v) := by
  have hsel := selOf_csOffset (by omega : o < 0x280000) hw hal
  have hany : (selWords (.reg o) w).any hostOnly = false := by simpa using hopen
  have hok : s.accCheck r true (.reg o) w = none := by simp [State.accCheck, State.reach, h.2, ho, hany]
  have hne : selWords (.reg o) w ≠ [] := by rcases hw with rfl | rfl <;> simp [selWords]
  rw [← hsel] at hok hne ⊢
  exact State.wr_words v h.1 (isMirror_csOffset (by omega)) hok hne

/-- One of 32 bits. -/
theorem State.wr32_open (h : MayWrite s r) (ho : o < 0xC0000) (hal : o % 4 = 0) (hopen : hostOnly o = false) (hv : v < 2 ^ 32) :
    s.wr32 r o v = .next (s.writeWord r o v true) := by
  have hwords : selWords (.reg o) 4 = [o] := rfl
  rw [State.wr32, State.wr_open v h ho (.inl rfl) hal (by simpa [hwords] using hopen), hwords]
  exact congrArg (fun x => Host.Outcome.next (s.writeWord r o x true)) (Nat.mod_eq_of_lt hv)

/-- One of 64 bits: the low word, then the high word (R623). -/
theorem State.wr64_open (v : Nat) (h : MayWrite s r) (ho : o < 0xC0000) (hal : o % 8 = 0) (hopen : hostOnly o = false)
    (hopen' : hostOnly (o + 4) = false) :
    s.wr64 r o v = .next ((s.writeWord r o (v % 2 ^ 32) false).writeWord r (o + 4) (v / 2 ^ 32 % 2 ^ 32) true) := by
  have hwords : selWords (.reg o) 8 = [o, o + 4] := rfl
  rw [State.wr64, State.wr_open v h ho (.inr rfl) hal (by simpa [hwords] using ⟨hopen, hopen'⟩), hwords]
  rfl

end

end Sys2Proof.Machine
end

section
/-! SUPPORT. The register commands of the gait block that any requester may send: what the frame period, the time base, the frame timer and
the event log make of them, and all that a wake can change. With them the statement on these commands. -/

namespace Sys2Proof.Machine

/-! ### What a log entry, a record sent and a wake leave alone -/

section
variable (s : State)

/-- The words of a log entry lie in the EVT block. -/
theorem State.rd_logPut_of_lt {o : Nat} (h : o < 0x80000) (n frm w4 data : Nat) : (s.logPut n frm w4 data).rd o = s.rd o := by
  have hseq : o ≠ Reg.evtLogSeq := by unfold Reg.evtLogSeq; omega
  have hword : ∀ i k, o ≠ logWord i k ∧ o ≠ logWord i k + 4 := fun i k => by unfold logWord; omega
  simp [State.logPut, hseq, hword]

/-- A log entry changes no word below that block. -/
theorem State.rd_logEvent_of_lt {o : Nat} (h : o < 0x80000) (code unit src data : Nat) : (s.logEvent code unit src data).rd o = s.rd o := by
  have hword : ∀ i k, o ≠ logWord i k := fun i k => by unfold logWord; omega
  have hcount : (if 4096 ≤ s.log.used then s.count Cnt.evtLogOvwr else s).rd o = s.rd o := by
    split
    · exact s.rd_count_ne _ _ (ne_of_lt (lt_of_lt_of_le h (by decide))) (ne_of_lt (lt_of_lt_of_le h (by decide)))
    · rfl
  unfold State.logEvent
  dsimp only
  split
  · rw [State.rd_putF_ne _ _ _ _ (hword _ _)]
  · generalize hp : State.logPut _ _ _ _ _ = p
    have hrd : p.rd o = s.rd o := by rw [← hp, State.rd_logPut_of_lt _ h, hcount]
    exact hrd

/-- TIME queued at a port changes no register. -/
theorem State.sendTime_regs (p : Fin 2) : (s.sendTime p).regs = s.regs := by
  unfold State.sendTime
  split <;> rfl

/-- Host core 0 starting changes no register. -/
theorem State.startCore0_regs : s.startCore0.regs = s.regs := by
  unfold State.startCore0
  dsimp only
  split <;> rfl

end

/-- A wake changes nothing but GAIT_WAKE_SRC and GAIT_STAT, the gait's own state and the bring-up of the dies. -/
def WakeOnly (s t : State) : Prop :=
  RegsKept s t [Reg.gaitWakeSrc, Reg.gaitStat] ∧ t = { s with regs := t.regs, gait := t.gait, stack := t.stack }

theorem WakeOnly.refl (s : State) : WakeOnly s s := ⟨RegsKept.refl s _, rfl⟩

theorem WakeOnly.trans {s t u : State} (h : WakeOnly s t) (h' : WakeOnly t u) : WakeOnly s u :=
  ⟨h.1.trans h'.1, by rw [h'.2, h.2]⟩

section
variable (s : State)

theorem State.modGait_wakeOnly (f : GaitSt → GaitSt) : WakeOnly s (s.modGait f) := ⟨fun _ _ => rfl, rfl⟩

theorem State.setTrans_wakeOnly (t : Trans) (own : Bool) : WakeOnly s (s.setTrans t own) :=
  ⟨(s.putB_kept Reg.gaitStat 2 _).mono (by simp), rfl⟩

theorem State.beginWalkToTrot_wakeOnly (own : Bool) : WakeOnly s (s.beginWalkToTrot own) := by
  unfold State.beginWalkToTrot
  split
  · exact WakeOnly.refl s
  · exact (s.setTrans_wakeOnly .walkToTrot own).trans ⟨fun _ _ => rfl, rfl⟩

theorem State.runWake_wakeOnly : WakeOnly s s.runWake := by
  unfold State.runWake
  split
  · split
    · exact (s.setTrans_wakeOnly _ _).trans (State.modGait_wakeOnly _ _)
    · split
      · split
        · exact (s.modGait_wakeOnly _).trans (State.beginWalkToTrot_wakeOnly _ _)
        · exact WakeOnly.refl s
      · exact s.modGait_wakeOnly _
  · exact WakeOnly.refl s

theorem State.wakeEvent_wakeOnly (k : Nat) : WakeOnly s (s.wakeEvent k) := by
  have hsrc : WakeOnly s (s.orReg Reg.gaitWakeSrc (2 ^ k)) := ⟨(s.put_kept _ _).mono (by simp), rfl⟩
  unfold State.wakeEvent State.wakeTo
  dsimp only
  split
  · split
    · exact (hsrc.trans (State.modGait_wakeOnly _ _)).trans (State.runWake_wakeOnly _)
    · exact hsrc
  · exact hsrc

theorem State.wakeTimer_wakeOnly : WakeOnly s s.wakeTimer := by
  unfold State.wakeTimer
  split
  · exact (s.modGait_wakeOnly _).trans (State.wakeEvent_wakeOnly _ 3)
  · exact WakeOnly.refl s

end

/-! ### GAIT_FRM_PERIOD (R31, R506) -/

theorem clampN_le {lo hi : Nat} (h : lo ≤ hi) (n : Nat) : clampN lo hi n ≤ hi := by
  unfold clampN
  split
  · exact h
  · split <;> omega

section
variable (s : State)

/-- Announcing a period changes no register. -/
theorem State.rd_announce (o : Nat) : (if s.leadsHitch then (s.sendTime 0).sendTime 1 else s).rd o = s.rd o := by
  split
  · simp only [State.rd, State.sendTime_regs]
  · rfl

/-- The period register after a write: a wheel keeps its own, any other package takes the value held to its range. -/
theorem State.rd_periodWrite (v : Nat) :
    (s.periodWrite v).rd Reg.gaitFrmPeriod = if s.isWheel then s.rd Reg.gaitFrmPeriod else clampN 25000 200000 v := by
  have hclamp : clampN 25000 200000 v % 2 ^ 32 = clampN 25000 200000 v :=
    Nat.mod_eq_of_lt (lt_of_le_of_lt (clampN_le (by decide) v) (by decide))
  unfold State.periodWrite
  split
  · exact s.rd_logEvent_of_lt (by decide) _ _ _ _
  · refine (State.rd_announce _ _).trans ?_
    rw [State.modFrm_rd, State.rd_put_self, hclamp]

/-- The host cores' reset leaves its cause (R570). -/
theorem State.rstCtrl_hostCore_cause : (s.rstCtrl 1).rd Reg.gaitRstCause = 5 := by
  have hcause : ((s.put Reg.gaitCoreRun 1).put Reg.gaitRstCause 5).dropL2.rd Reg.gaitRstCause = 5 :=
    State.rd_put_self (s.put Reg.gaitCoreRun 1) Reg.gaitRstCause 5
  unfold State.rstCtrl
  rw [if_pos (by decide)]
  dsimp only
  split
  · exact hcause
  · rw [State.rd, State.startCore0_regs]
    exact hcause

/-! ### GAIT_TIME_SET (R562) -/

/-- A masked write of a word all of whose bits are writable. -/
theorem State.rd_storeMasked_full {o v k : Nat} {row : RegRow} (h : regAt o = some (row, k))
    (hm : (row.mask >>> (32 * k)) % 2 ^ 32 = 2 ^ 32 - 1) :
    (s.storeMasked o v).rd o = v % 2 ^ 32 := by
  have hold : s.rd o &&& (2 ^ 32 - 1) = s.rd o := by rw [Nat.and_two_pow_sub_one_eq_mod, Nat.mod_eq_of_lt (s.rd_lt o)]
  rw [State.storeMasked_eq h, hm, hold, Nat.and_two_pow_sub_one_eq_mod, Nat.sub_self, Nat.zero_add]
  split <;> simp

/-- The timer that is not armed, or not reached, does nothing. -/
theorem State.wakeTimer_not_due (h : s.gait.wakeArmed = false ∨ s.time < s.rd64 Reg.gaitWakeTime) : s.wakeTimer = s :=
  if_neg (by rintro ⟨harmed, hdue⟩; rcases h with h | h <;> [simp [h] at harmed; omega])

/-- A step of the time base as the signed number it is (R562). -/
def signedStep (step : Nat) : Int := if step < 2 ^ 63 then (step : Int) else (step : Int) - 2 ^ 64

theorem signedStep_toNat (d : BitVec 64) : signedStep d.toNat = d.toInt := by
  rw [BitVec.toInt_eq_toNat_cond, signedStep]
  split <;> split <;> omega

/-- What a step of the time base moves (log 89): the time base and the next boundary, and the instants the tiles count from. -/
structure Moved (s t : State) (step : Nat) : Prop where
  time : t.time = (s.time + step) % 2 ^ 64
  nextB : t.frm.nextB = (s.frm.nextB + step) % 2 ^ 64
  mem : t.mem = s.mem
  tiles : ∀ u : TileId, t.tiles[u] = s.tiles[u].shift (fun x => ((x : Int) + signedStep step).toNat)

/-- The step taken: what it moves is moved, and then the wake timer may be due. -/
theorem State.timeSet_taken (step : Nat) (hing : s.bit Reg.ingCtrl 0 = false) (hlive : s.frm.live = []) :
    ∃ m : State, s.timeSet step = m.wakeTimer ∧ Moved s m step ∧ m.regs = s.regs ∧ m.gait.wakeArmed = s.gait.wakeArmed :=
  ⟨_, if_neg (by simp [hing, hlive]), ⟨rfl, rfl, rfl, fun u => by simp [signedStep]⟩, rfl, rfl⟩

/-- The registers it leaves: those of a wake may change, and no register where the timer is not due. -/
theorem State.timeSet_moves (step : Nat) (hing : s.bit Reg.ingCtrl 0 = false) (hlive : s.frm.live = []) :
    Moved s (s.timeSet step) step ∧ RegsKept s (s.timeSet step) [Reg.gaitWakeSrc, Reg.gaitStat]
      ∧ (s.gait.wakeArmed = false ∨ (s.time + step) % 2 ^ 64 < s.rd64 Reg.gaitWakeTime → (s.timeSet step).regs = s.regs) := by
  obtain ⟨m, hm, hmoved, hregs, harmed⟩ := s.timeSet_taken step hing hlive
  obtain ⟨hkept, heq⟩ := m.wakeTimer_wakeOnly
  rw [← hm] at hkept heq
  refine ⟨⟨?_, ?_, ?_, fun u => ?_⟩, fun o ho => ?_, fun hdue => ?_⟩
  · rw [heq, hmoved.time]
  · rw [heq, hmoved.nextB]
  · rw [heq, hmoved.mem]
  · rw [heq]
    exact hmoved.tiles u
  · rw [hkept o ho, State.rd, hregs, State.rd]
  · have hnot : m.gait.wakeArmed = false ∨ m.time < m.rd64 Reg.gaitWakeTime := by rwa [harmed, hmoved.time, State.rd64, hregs]
    rw [hm, m.wakeTimer_not_due hnot, hregs]

/-- The step refused, and logged. -/
theorem State.timeSet_refused (step : Nat) (h : s.bit Reg.ingCtrl 0 = true ∨ s.frm.live ≠ []) :
    s.timeSet step = s.logEvent 0x64 pkgUnit 0 1 :=
  if_pos (by simpa using h)

end

section
variable {s : State} {r : ReqId}

/-- GAIT_TIME_SET: its two words hold the step, which the high word's write then takes (R623). -/
theorem exec_gaitTimeSet (h : MayWrite s r) (d : BitVec 64) :
    ∃ u : State, exec (.gaitTimeSet r d) s = .next (u.timeSet d.toNat) ∧ RegsKept s u [Reg.gaitTimeSet, Reg.gaitTimeSet + 4]
      ∧ u = { s with regs := u.regs, written := u.written } := by
  obtain ⟨hkeptLo, heqLo⟩ := s.storeMasked_frame Reg.gaitTimeSet (d.toNat % 2 ^ 32)
  have hlo : (s.storeMasked Reg.gaitTimeSet (d.toNat % 2 ^ 32)).rd Reg.gaitTimeSet = d.toNat % 2 ^ 32 := by
    rw [s.rd_storeMasked_full (k := 0) rfl (by decide), Nat.mod_mod]
  have hexec : exec (.gaitTimeSet r d) s = _ := State.wr64_open d.toNat h (by decide) (by decide) (by decide) (by decide)
  have hstep : d.toNat % 2 ^ 32 + 2 ^ 32 * (d.toNat / 2 ^ 32 % 2 ^ 32) = d.toNat := by omega
  change _ = Host.Outcome.next (((s.storeMasked Reg.gaitTimeSet (d.toNat % 2 ^ 32)).storeMasked (Reg.gaitTimeSet + 4) _).timeSet
    ((s.storeMasked Reg.gaitTimeSet (d.toNat % 2 ^ 32)).rd Reg.gaitTimeSet + _)) at hexec
  rw [hlo, hstep] at hexec
  generalize s.storeMasked Reg.gaitTimeSet (d.toNat % 2 ^ 32) = lo at *
  obtain ⟨hkeptHi, heqHi⟩ := lo.storeMasked_frame (Reg.gaitTimeSet + 4) (d.toNat / 2 ^ 32 % 2 ^ 32)
  refine ⟨_, hexec, (hkeptLo.mono (by simp)).trans (hkeptHi.mono (by simp)), ?_⟩
  rw [heqHi, heqLo]

/-- GAIT_FRM_START taken (R563): on the lead, with the timer stopped and an origin far enough ahead. -/
theorem State.frmStart_starts (hlead : s.gait.lead = true) (hstop : s.bit Reg.gaitStat 6 = false)
    (horigin : s.time + 100000 ≤ s.rd64 Reg.gaitFrmOrigin) :
    s.frmStart = (s.putB Reg.gaitStat 6 true).modFrm (fun f =>
      { f with atOrigin := true, nextB := s.rd64 Reg.gaitFrmOrigin, period := 1000 * s.rd Reg.gaitFrmPeriod }) := by
  unfold State.frmStart
  rw [if_neg (by simp [hlead, hstop]), if_neg (by omega)]

/-- EVT_LOG_SW (R604). -/
theorem exec_evtLogSw (h : MayWrite s r) (c : BitVec 16) (u : BitVec 8) :
    exec (.evtLogSw r c u) s = .next (s.logEvent c.toNat u.toNat (ReqId.source r) (s.rd64 Reg.evtLogSwData)) := by
  have hc : (c.toNat + 2 ^ 16 * u.toNat) % 2 ^ 16 = c.toNat := by omega
  have hu : (c.toNat + 2 ^ 16 * u.toNat) / 2 ^ 16 % 256 = u.toNat := by omega
  have hw : exec (.evtLogSw r c u) s = .next (s.logEvent _ _ (ReqId.source r) (s.rd64 Reg.evtLogSwData)) :=
    State.wr32_open h (by decide) (by decide) (by decide) (by omega)
  rw [hw, hc, hu]

end

/-- Settles O30: each write reaches its word's own action, whose effect the lemmas above state; a step of the time base moves the instants
as log 89 says. -/
theorem gaitRegisterCommands : Obligations.GaitRegisterCommands := by
  intro s r h
  refine ⟨fun us => ⟨?_, s.rd_periodWrite us.toNat⟩, fun g => ⟨?_, ?_, ?_, ?_⟩, ⟨?_, ?_, s.rstCtrl_hostCore_cause, ?_⟩,
    fun d hing hlive => ?moved, fun d hbusy => ?refused, fun hlead hstop horigin => ?start, exec_evtLogSw h⟩
  case moved =>
    obtain ⟨u, hexec, hkept, heq⟩ := exec_gaitTimeSet h d
    have hfrm : u.frm = s.frm := by rw [heq]
    have hbit : u.bit Reg.ingCtrl 0 = s.bit Reg.ingCtrl 0 := congrArg (bitN · 0) (hkept _ (by decide))
    have hwake : u.rd64 Reg.gaitWakeTime = s.rd64 Reg.gaitWakeTime := by
      rw [State.rd64_eq, State.rd64_eq, hkept _ (by decide), hkept _ (by decide)]
    obtain ⟨hmoved, hregs, hquiet⟩ := u.timeSet_moves d.toNat (hbit.trans hing) (hfrm ▸ hlive)
    refine ⟨_, hexec, by rw [hmoved.time, heq], by rw [hmoved.nextB, heq], (hregs _ (by decide)).trans (hkept _ (by decide)),
      by rw [hmoved.mem, heq], fun t => ?_, fun hdue o ho => ?_⟩
    · rw [hmoved.tiles, signedStep_toNat, heq]
    · have hnot : u.gait.wakeArmed = false ∨ (u.time + d.toNat) % 2 ^ 64 < u.rd64 Reg.gaitWakeTime := by
        rw [hwake, heq]
        exact hdue
      rw [State.rd, hquiet hnot]
      exact hkept o ho
  case refused =>
    obtain ⟨u, hexec, hkept, heq⟩ := exec_gaitTimeSet h d
    have hbit : u.bit Reg.ingCtrl 0 = s.bit Reg.ingCtrl 0 := congrArg (bitN · 0) (hkept _ (by decide))
    have hbusy' : u.bit Reg.ingCtrl 0 = true ∨ u.frm.live ≠ [] := by
      rw [hbit, heq]
      exact hbusy
    rw [u.timeSet_refused d.toNat hbusy', u.logEvent_eq] at hexec
    exact ⟨_, hexec, by rw [heq], by rw [heq], by rw [heq]⟩
  case start =>
    have hexec : exec (.gaitFrmStart r) s = .next s.frmStart := State.wr32_open h (by decide) (by decide) (by decide) (by decide)
    rw [State.frmStart_starts hlead hstop horigin] at hexec
    exact ⟨_, hexec, by rw [State.modFrm_bit, State.bit_putB s true (by decide), if_pos rfl], rfl, rfl, rfl,
      s.putB_kept Reg.gaitStat 6 true, rfl⟩
  all_goals exact State.wr32_open h (by decide) (by decide) (by decide) (by omega)

end Sys2Proof.Machine
end

section
/-! SUPPORT. The frame that begins at a boundary (R31, R32, R506), and with it the statement on FRAME_BOUNDARY. -/

namespace Sys2Proof.Machine

/-- The period of the frame that begins: a wheel's own, the one before a late write, or the register's. -/
theorem State.nextPeriod_eq (s : State) (b : Nat) :
    s.nextPeriod b = if s.isWheel = true ∧ s.frm.period ≠ 0 then s.frm.period
      else if s.leadsHitch = true ∧ b < s.frm.perWrite + 10000 then 1000 * s.frm.perPrev else 1000 * s.rd Reg.gaitFrmPeriod := by
  simp [State.nextPeriod]

/-- Frame `m` begins at `b`, with the next boundary a period later. -/
theorem State.beginFrame_spec (s : State) (b : Nat) {m : Nat} (hm : m < 2 ^ 32) :
    let t := s.beginFrame m b
    t.frameNum = m ∧ t.frm.lastB = b ∧ t.frm.prevB = s.frm.lastB ∧ t.frm.period = s.nextPeriod b ∧ t.frm.nextB = b + s.nextPeriod b
      ∧ t.frm.atOrigin = false ∧ t.frm.live = s.frm.live ∧ RegsKept s t [Reg.gaitFrmNum] ∧ t = { s with regs := t.regs, frm := t.frm } :=
  ⟨(State.rd_put_self s _ m).trans (Nat.mod_eq_of_lt hm), rfl, rfl, rfl, rfl, rfl, rfl, s.put_kept _ m, rfl⟩

/-- Settles O49: the clocks run and the frame timer with them, so the boundary does its work in the order
of log 114; the frame begins with the period due. -/
theorem frameBoundary : Obligations.FrameBoundary := by
  refine ⟨fun s hal hrun => if_neg (by simp [hal, hrun]), fun s m b hm => ?_⟩
  rw [← s.nextPeriod_eq b]
  exact s.beginFrame_spec b hm

end Sys2Proof.Machine
end

section
/-! SUPPORT. The end of a drain (R35, R36) under a downward transition that powers something down, and with it the statement on the
downward transitions. -/

namespace Sys2Proof.Machine

/-- The drain of Trot to Walk or of Walk to Stable is done: the transition turns back (log 86) or goes on. -/
theorem exec_drainComplete_below {s : State} (hal : s.alive = true) (hnot : s.gait.drained = false) (hdr : s.drained = true)
    (htr : s.gait.trans = .trotToWalk ∨ s.gait.trans = .walkToStable) :
    exec .drainComplete s = .next (if s.mustReverse then s.reverseNow else s.modGait (fun q => { q with drained := true })) := by
  refine (if_neg (by simp [hal, hnot, hdr])).trans ?_
  rcases htr with htr | htr <;> rw [htr]

/-- Settles O41: each event of a transition under way, its condition met, has its effect; what is drained is log 125, and turning back
log 86. -/
theorem downwardTransitions : Obligations.DownwardTransitions := by
  intro s hal
  refine ⟨fun hnot hdr => ⟨fun htr => ?canter, fun htr => ?below⟩, fun htr hdr => ?walk, fun htr hdr hwb => ?writeBack,
    fun htr hwb => ?stable⟩
  case canter =>
    refine (if_neg (by simp [hal, hnot, hdr])).trans ?_
    rw [htr]
  case below =>
    rw [exec_drainComplete_below hal hnot hdr htr]
    exact ⟨fun hrev => by rw [if_pos hrev], fun hrev => by rw [hrev]; rfl⟩
  case walk => exact if_neg (by simp [hal, htr, hdr])
  case writeBack => exact if_neg (by simp [hal, htr, hdr, hwb])
  case stable => exact if_neg (by simp [hal, htr, hwb])

end Sys2Proof.Machine
end

section
/-! SUPPORT. The fences of every tile settled at once (R396), which the scatter discard of a rein-back ends with, and with it the
statement on the events of a frame after its boundary. -/

namespace Sys2Proof.Machine

/-! ### Fences settled -/

/-- A tile's record after its met fences have retired at `now` (R396). -/
def Tile.settled (now : Nat) (tl : Tile) : Tile :=
  { tl with
    fences := tl.fences.filter (fun f => !(f.met tl))
    lastRetire := if tl.fences.any (fun f => f.met tl) then now else tl.lastRetire }

/-- With no fence met the record stays as it is. -/
theorem Tile.settled_of_none_met (now : Nat) {tl : Tile} (h : tl.fences.any (fun f => f.met tl) = false) : tl.settled now = tl := by
  have hfences : tl.fences.filter (fun f => !(f.met tl)) = tl.fences := by simpa using h
  rw [Tile.settled, hfences, h]
  rfl

theorem State.settleFences_eq (s : State) (t : TileId) : s.settleFences t = s.modTile t (Tile.settled s.time) := by
  unfold State.settleFences
  split
  · next h => simp only [State.modTile, Tile.settled, if_pos h]
  · next h =>
    rw [State.modTile, Tile.settled_of_none_met s.time (Bool.eq_false_iff.mpr h)]
    exact congrArg (fun v => { s with tiles := v }) (Vector.set_getElem_self t.isLt).symm

/-- Settling the fences of several tiles, each named once, settles those and leaves all else. -/
theorem State.foldl_settleFences_spec {l : List TileId} (hl : l.Nodup) (s : State) :
    let t := l.foldl (fun s t => s.settleFences t) s
    t = { s with tiles := t.tiles } ∧ ∀ u : TileId, t.tiles[u] = if u ∈ l then s.tiles[u].settled s.time else s.tiles[u] := by
  induction l generalizing s with
  | nil => exact ⟨rfl, fun u => by simp⟩
  | cons a l ih =>
    obtain ⟨hal, hnd⟩ := List.nodup_cons.mp hl
    obtain ⟨hrest, htiles⟩ := ih hnd (s.modTile a (Tile.settled s.time))
    simp only [List.foldl_cons, s.settleFences_eq]
    refine ⟨hrest, fun u => ?_⟩
    rw [htiles u]
    by_cases hu : u = a
    · subst hu
      rw [if_neg hal, if_pos List.mem_cons_self, State.modTile_self]
    · rw [State.modTile_ne s _ hu]
      simp [hu]

theorem State.settleAllFences_eq (s : State) : s.settleAllFences = { s with tiles := s.settleAllFences.tiles } :=
  (State.foldl_settleFences_spec (List.nodup_finRange 32) s).1

theorem State.settleAllFences_frm (s : State) : s.settleAllFences.frm = s.frm := by rw [State.settleAllFences_eq]

theorem State.settleAllFences_tile (s : State) (u : TileId) : s.settleAllFences.tiles[u] = s.tiles[u].settled s.time := by
  have h := (State.foldl_settleFences_spec (List.nodup_finRange 32) s).2 u
  rwa [if_pos (List.mem_finRange u)] at h

/-! ### The scatter discard -/

/-- A tile's record without its staged scatter entries of tag `g` that were not accepted (R316). -/
def Tile.dropScatter (g : Nat) (tl : Tile) : Tile :=
  { tl with scat := tl.scat.filter (fun x => x.tag != some g || x.accepted) }

/-- A change of an epoch that keeps its frame number keeps the frames that are live. -/
theorem State.modEpoch_frames (s : State) (f : Nat) {g : Epoch → Epoch} (hg : ∀ e, (g e).frame = e.frame) :
    (s.modEpoch f g).frm.live.map (·.frame) = s.frm.live.map (·.frame) := by
  simp only [State.modEpoch, List.map_map]
  refine List.map_congr_left fun e _ => ?_
  simp only [Function.comp_apply]
  split
  · exact hg e
  · rfl

/-- Step 3 of a frame's rein-back done (R316): its entries gone from every tile, the step reported, and the fences that waited on them
alone retired. -/
def State.discardScatter (s : State) (f : Nat) : State :=
  ({ s with tiles := s.tiles.map (Tile.dropScatter (f % 256)) }.modEpoch f (fun e => { e with rein := e.rein.hoard })).settleAllFences

theorem State.discardScatter_frm (s : State) (f : Nat) :
    (s.discardScatter f).frm = (s.modEpoch f (fun e => { e with rein := e.rein.hoard })).frm :=
  State.settleAllFences_frm _

theorem State.discardScatter_eq (s : State) (f : Nat) :
    s.discardScatter f = { s with tiles := (s.discardScatter f).tiles, frm := (s.discardScatter f).frm } := by
  rw [s.discardScatter_frm]
  exact State.settleAllFences_eq _

theorem State.discardScatter_tile (s : State) (f : Nat) (u : TileId) :
    (s.discardScatter f).tiles[u] = (s.tiles[u].dropScatter (f % 256)).settled s.time := by
  refine (State.settleAllFences_tile _ u).trans ?_
  simp

section
variable {s : State} {e : Epoch}

/-- HOARD_SCATTER_DISCARD is for the epoch whose rein-back runs. -/
theorem exec_hoardScatterDiscard (hal : s.alive = true) (hfind : s.frm.live.find? (fun e => e.rein.running) = some e) :
    exec .hoardScatterDiscard s = .next (s.discardScatter e.frame) := by
  refine (if_neg (by simp [hal])).trans ?_
  rw [hfind]
  rfl

/-! ### The tiles a rein-back names -/

/-- The tiles that hold work or state under a frame. -/
def State.tilesUnder (s : State) (f : Nat) : List TileId :=
  (List.finRange 32).filter (fun t => s.tiles[t].seen.contains f || s.tiles[t].items.any (fun w => w.frame == some f))

theorem State.mem_tilesUnder (s : State) (f : Nat) (t : TileId) :
    t ∈ s.tilesUnder f ↔ f ∈ s.tiles[t].seen ∨ ∃ w ∈ s.tiles[t].items, w.frame = some f := by
  simp [State.tilesUnder]

/-- REIN_BACK_START for the epoch that waits, its window over: step 1 in ingest, and the tiles to report (R54 to R58, R146). -/
theorem exec_reinBackStart (hal : s.alive = true) (hfind : s.frm.live.find? (fun e => e.rein == Rein.wait && e.lateDone) = some e) :
    exec .reinBackStart s = .next ((((s.ingestFlush e.frame).count Cnt.ingCntRein).count Cnt.dreyCntRein).modEpoch e.frame
      (fun x => { x with rein := .run (s.tilesUnder e.frame) false false, reined := true })) := by
  refine (if_neg (by simp [hal])).trans ?_
  rw [hfind]
  rfl

end

/-- Settles O46: each event finds its epoch and does its work. -/
theorem frameEvents : Obligations.FrameEvents := by
  intro s e hal
  have halive : ¬ ¬ s.alive = true := by simp [hal]
  refine ⟨fun hfind => ?window, fun hfind => ?deadline, fun hfind => ?start, fun t g hfind => ?tile,
    fun hfind => ⟨?hoard, ?drey⟩, fun hfind => ?release⟩
  case window =>
    refine (if_neg halive).trans ?_
    rw [hfind]
    simp only [Bool.and_eq_true, beq_iff_eq]
    rfl
  case deadline =>
    refine (if_neg halive).trans ?_
    rw [hfind]
    rfl
  case start => exact ⟨_, exec_reinBackStart hal hfind, s.mem_tilesUnder e.frame⟩
  case tile =>
    refine (if_neg halive).trans ?_
    -- the event's search and the statement's each have a matcher of their own: the epochs they find agree by unfolding both
    split
    · next hnone => exact absurd (hnone.symm.trans hfind) nofun
    · next e' hsome =>
      obtain rfl : e' = e := Option.some.inj (hsome.symm.trans hfind)
      rfl
  case hoard =>
    refine ⟨_, exec_hoardScatterDiscard hal hfind, s.discardScatter_eq e.frame, ?_, fun u => ?_⟩
    · rw [s.discardScatter_frm]
      exact s.modEpoch_frames e.frame fun _ => rfl
    · rw [s.discardScatter_tile]
      exact ⟨rfl, rfl⟩
  case drey =>
    refine (if_neg halive).trans ?_
    rw [hfind]
  case release =>
    refine (if_neg halive).trans ?_
    rw [hfind]

end Sys2Proof.Machine
end

section
/-! SUPPORT. The words and the record of a head port (Tables 03-8, 03-9): what a change of PORT_STATE, a link event, an I3C event and the
count of emitter minutes make of them, and how a received frame is sorted. With them the statement on the head ports. -/

namespace Sys2Proof.Machine

/-! ### PORT_STATE[5:0] (Table 03-9) -/

/-- A field within the low bits of a word is that field of those bits. -/
theorem bitsN_bitsN_low (n : Nat) {k hi lo : Nat} (hhi : hi ≤ k) : bitsN (bitsN n k 0) hi lo = bitsN n hi lo := by
  refine bits_ext fun i => ?_
  rw [bitN_bitsN, bitN_bitsN, bitN_bitsN, Nat.zero_add]
  by_cases hi' : i < hi + 1 - lo
  · have : lo + i ≤ k := by omega
    simp [hi', this]
  · simp [hi']

section
variable (s : State) (p : PortId)

/-- Bits [5:0] after a change, with GEN above them. -/
theorem State.bits_setPortBits (v : Nat) : (s.setPortBits p v).fld (Reg.portState p) 5 0 = v % 64 := by
  unfold State.setPortBits
  dsimp only
  split
  · next h => exact h
  · have hfld : ∀ g, (s.put (Reg.portState p) (putBits (putBits (s.rd (Reg.portState p)) 5 0 v) 31 16 g)).fld (Reg.portState p) 5 0 = v % 64 := by
      intro g
      have hlt : putBits (putBits (s.rd (Reg.portState p)) 5 0 v) 31 16 g < 2 ^ 32 :=
        putBits_lt (by decide) (putBits_lt (by decide) (s.rd_lt _) (by decide)) (by decide)
      rw [State.fld, State.rd_put_self, Nat.mod_eq_of_lt hlt, bitsN_putBits_ne (by decide) (.inr (by decide))]
      exact bitsN_putBits_self (by decide)
    split
    · exact hfld _
    · exact hfld _

theorem State.bit_setPortBits (v : Nat) {i : Nat} (hi : i < 6) : (s.setPortBits p v).bit (Reg.portState p) i = bitN v i := by
  have h := congrArg (bitN · i) (s.bits_setPortBits p v)
  have hv : bitN (v % 64) i = bitN v i := (bitN_mod v 6 i).trans (by simp [hi])
  simpa [State.fld, State.bit, bitN_bitsN, hv, hi] using h

theorem State.headOf_setPortBits (v : Nat) : (s.setPortBits p v).headOf p = bitsN v 2 1 := by
  have h := congrArg (bitsN · 2 1) (s.bits_setPortBits p v)
  have hv : v % 64 = bitsN v 5 0 := by simp [bitsN]
  rwa [hv, State.fld, bitsN_bitsN_low _ (by decide), bitsN_bitsN_low _ (by decide)] at h

/-- Nothing but PORT_STATE and the count of its changes changes. -/
theorem State.setPortBits_frame (v : Nat) :
    RegsKept s (s.setPortBits p v) [Reg.portState p]
      ∧ (∃ n, (s.setPortBits p v).ports[p] = { s.ports[p] with reqGen := n })
      ∧ (∀ o : PortId, o ≠ p → (s.setPortBits p v).ports[o] = s.ports[o])
      ∧ s.setPortBits p v = { s with regs := (s.setPortBits p v).regs, ports := (s.setPortBits p v).ports } := by
  unfold State.setPortBits
  dsimp only
  split
  · exact ⟨RegsKept.refl s _, ⟨_, rfl⟩, fun _ _ => rfl, rfl⟩
  · split
    · exact ⟨s.put_kept _ _, ⟨_, rfl⟩, fun _ _ => rfl, rfl⟩
    · exact ⟨s.put_kept _ _, ⟨_, State.modPort_self _ _ _⟩, fun o ho => State.modPort_ne _ _ ho, rfl⟩

end

/-! ### Link (R88, R112) -/

section
variable {s : State} {p : PortId}

theorem exec_linkUp_rises (hal : s.alive = true) (hg : s.gaitN ≠ 0) (hen : s.bit (Reg.portCtrl p) 0 = true)
    (hdn : s.bit (Reg.portState p) 0 = false) :
    exec (.linkUp p) s = .next ((s.modPort p (fun q => { q with phyUp := true })).linkRise p) := by
  refine (if_neg (by simp [hal])).trans ((if_neg hg).trans (if_pos ?_))
  simp [hen, hdn]

theorem exec_linkUp_stays (hal : s.alive = true) (hg : s.gaitN ≠ 0)
    (h : s.bit (Reg.portCtrl p) 0 = false ∨ s.bit (Reg.portState p) 0 = true) :
    exec (.linkUp p) s = .next (s.modPort p (fun q => { q with phyUp := true })) := by
  refine (if_neg (by simp [hal])).trans ((if_neg hg).trans (if_neg ?_))
  rcases h with h | h <;> simp [h]

theorem exec_linkDown (hal : s.alive = true) :
    exec (.linkDown p) s = .next ((s.modPort p (fun q => { q with phyUp := false })).setPortF p 0 0 0) :=
  if_neg (by simp [hal])

/-- The low bits a link gives PORT_STATE: LINK, and a head that was absent is unverified. -/
def linkBits (v : Nat) : Nat :=
  let v := putBits v 0 0 1
  if bitsN v 2 1 = 0 then putBits v 2 1 1 else v

theorem bitN_linkBits (v : Nat) : bitN (linkBits v) 0 = true := by
  unfold linkBits
  dsimp only
  split
  · simp [bitN_putBits]; rfl
  · simp [bitN_putBits]; rfl

theorem head_linkBits (v : Nat) : bitsN (linkBits v) 2 1 = if bitsN v 2 1 = 0 then 1 else bitsN v 2 1 := by
  have hlow : bitsN (putBits v 0 0 1) 2 1 = bitsN v 2 1 := bitsN_putBits_ne (by decide) (.inl (by decide))
  unfold linkBits
  simp only [hlow]
  split
  · exact bitsN_putBits_self (by decide)
  · exact hlow

end

section
variable (s : State) (p : PortId)

theorem State.linkRise_eq : s.linkRise p
    = (s.modPort p (fun q => { q with seqRef := none })).setPortBits p (linkBits (s.fld (Reg.portState p) 5 0)) := rfl

/-- LINK rises: a head that was absent is unverified, and the next packet sets the sequence reference. -/
theorem State.linkRise_spec :
    (s.linkRise p).bit (Reg.portState p) 0 = true ∧ (s.linkRise p).headOf p = (if s.headOf p = 0 then 1 else s.headOf p)
      ∧ (∃ n, (s.linkRise p).ports[p] = { s.ports[p] with seqRef := none, reqGen := n })
      ∧ RegsKept s (s.linkRise p) [Reg.portState p] ∧ (∀ o : PortId, o ≠ p → (s.linkRise p).ports[o] = s.ports[o])
      ∧ s.linkRise p = { s with regs := (s.linkRise p).regs, ports := (s.linkRise p).ports } := by
  rw [State.linkRise_eq]
  obtain ⟨hkept, ⟨n, hself⟩, hother, heq⟩ :=
    State.setPortBits_frame (s.modPort p (fun q => { q with seqRef := none })) p (linkBits (s.fld (Reg.portState p) 5 0))
  refine ⟨?_, ?_, ⟨n, ?_⟩, hkept, fun o ho => ?_, heq.trans rfl⟩
  · rw [State.bit_setPortBits _ _ _ (by decide), bitN_linkBits]
  · rw [State.headOf_setPortBits, head_linkBits, State.fld, bitsN_bitsN_low _ (by decide)]
    rfl
  · rw [hself, State.modPort_self]
  · rw [hother o ho, State.modPort_ne _ _ ho]

/-- LINK falls; HEAD keeps its value (R112). -/
theorem State.linkFall_spec :
    (s.setPortF p 0 0 0).bit (Reg.portState p) 0 = false ∧ (s.setPortF p 0 0 0).headOf p = s.headOf p := by
  unfold State.setPortF
  constructor
  · rw [State.bit_setPortBits _ _ _ (by decide), bitN_putBits (by decide)]
    rfl
  · rw [State.headOf_setPortBits, bitsN_putBits_ne (by decide) (.inl (by decide)), State.fld, bitsN_bitsN_low _ (by decide)]
    rfl

end

/-! ### I3C, life counting, gPTP (R75, R94, R104, R105) -/

section
variable {s : State} {p : PortId}

/-- A hot-join sets its bit, and ENTDAA gives the head an address of seven bits (log 118). -/
theorem exec_i3cHotJoin (b : Fin 2) (h : Fin 4) (hal : s.alive = true) (hg : s.gaitN ≠ 0) :
    ∃ t a, exec (.i3cHotJoin b h) s = .next t ∧ t = { s with i3c := t.i3c, freeCtr := t.freeCtr } ∧ a < 128
      ∧ t.i3c[b] = { s.i3c[b] with hotJoin := s.i3c[b].hotJoin ||| 2 ^ h.val, addr := s.i3c[b].addr.set h (some a) }
      ∧ ∀ o : Fin 2, o ≠ b → t.i3c[o] = s.i3c[o] := by
  have hlt : Config.freeNat s.freeCtr % 2 ^ 7 < 128 := Nat.mod_lt _ (by decide)
  refine ⟨_, _, (if_neg (by simp [hal])).trans (if_neg hg), rfl, hlt, ?_, fun o ho => ?_⟩
  · simp [State.entdaa, State.freeBits]
  · simp [State.entdaa, State.freeBits, Ne.symm (Fin.val_ne_of_ne ho)]

theorem exec_i3cInBandInterrupt (b : Fin 2) (h : Fin 4) (hal : s.alive = true) (hg : s.gaitN ≠ 0) :
    ∃ t, exec (.i3cInBandInterrupt b h) s = .next t ∧ t = { s with i3c := t.i3c }
      ∧ t.i3c[b] = { s.i3c[b] with ibi := s.i3c[b].ibi ||| 2 ^ h.val } ∧ ∀ o : Fin 2, o ≠ b → t.i3c[o] = s.i3c[o] := by
  refine ⟨_, (if_neg (by simp [hal])).trans (if_neg hg), rfl, by simp, fun o ho => ?_⟩
  simp [Ne.symm (Fin.val_ne_of_ne ho)]

/-- A lit second of a minute that is not over yet. -/
theorem exec_litTimeTick_second (hal : s.alive = true) (hg : s.gaitN ≠ 0) (hlit : s.ports[p].litNow = true)
    (hsec : s.ports[p].litSec + 1 < 60) :
    exec (.litTimeTick p) s = .next (s.modPort p (fun q => { q with litNow := false, litSec := s.ports[p].litSec + 1 })) :=
  (if_neg (by simp [hal])).trans ((if_neg (not_or_intro hg (not_not_intro hlit))).trans (if_pos hsec))

/-- The minutes a lit second that ends a minute makes, held at the most the register holds. -/
def State.litMinutes (s : State) (p : PortId) : Nat := min 0xFFFFFF (s.fld (Reg.portLifeMin p) 23 0 + 1)

/-- What the end of a lit minute leaves at once, before LIFE_WARN, LIFE_EXP and the head's own count follow. -/
def State.litMinuteEnds (s : State) (p : PortId) : State :=
  (s.modPort p (fun q => { q with litNow := false, litSec := s.ports[p].litSec + 1 - 60, lifePend := some (s.litMinutes p) })).put
    (Reg.portLifeMin p) (s.litMinutes p)

theorem exec_litTimeTick_minute (hal : s.alive = true) (hg : s.gaitN ≠ 0) (hlit : s.ports[p].litNow = true)
    (hsec : 60 ≤ s.ports[p].litSec + 1) :
    exec (.litTimeTick p) s = .next (((s.litMinuteEnds p).refreshLife p).lifeXfer p (s.litMinutes p)) :=
  (if_neg (by simp [hal])).trans ((if_neg (not_or_intro hg (not_not_intro hlit))).trans (if_neg (Nat.not_lt.2 hsec)))

theorem exec_lifeWriteComplete (nack : Bool) (v : BitVec 24) {m : Nat} (hal : s.alive = true) (hpend : s.ports[p].lifePend = some m) :
    exec (.lifeWriteComplete p nack v) s = .next (if nack || v.toNat != m
      then (s.modPort p (fun q => { q with lifePend := none })).count (Cnt.portCntLifewr p)
      else s.modPort p (fun q => { q with lifePend := none })) := by
  refine (if_neg (by simp [hal])).trans ?_
  rw [hpend]

theorem State.modPort_modPort (s : State) (p : PortId) (f g : PortSt → PortSt) :
    (s.modPort p f).modPort p g = s.modPort p (fun q => g (f q)) := by
  simp [State.modPort]

theorem exec_syncTransmit (hal : s.alive = true) (hon : s.portOn p = true) :
    exec (.syncTransmit p) s = .next (s.modPort p (fun q =>
      { q with sent := [(1, q.syncSeq, s.time), (0, q.syncSeq, s.time)] ++ q.sent, syncSeq := (q.syncSeq + 1) % 65536 })) := by
  refine (if_neg (by simp [hal])).trans ((if_neg (by simp [hon])).trans ?_)
  exact congrArg Host.Outcome.next (State.modPort_modPort s p _ _)

theorem exec_pdelayReqTransmit (hal : s.alive = true) (hon : s.portOn p = true) :
    exec (.pdelayReqTransmit p) s = .next (s.modPort p (fun q =>
      { q with sent := [(2, q.pdelaySeq, s.time)] ++ q.sent, pdelaySeq := (q.pdelaySeq + 1) % 65536 })) := by
  refine (if_neg (by simp [hal])).trans ((if_neg (by simp [hon])).trans ?_)
  exact congrArg Host.Outcome.next (State.modPort_modPort s p _ _)

/-! ### A received frame (R72, R73) -/

/-- The EtherType of a frame behind its tag, where it has one. -/
def frameType (f : List Byte) : Nat :=
  if beNat ((f.drop 12).take 2) = 0x8100 then beNat ((f.drop 16).take 2) else beNat ((f.drop 12).take 2)

/-- Its payload, the tag stripped. -/
def framePayload (f : List Byte) : List Byte := f.drop (if beNat ((f.drop 12).take 2) = 0x8100 then 18 else 14)

variable {f : List Byte}

theorem exec_ethFrameReceive_off (ok : Bool) (hal : s.alive = true) (hoff : s.portOn p = false) :
    exec (.ethFrameReceive p ok f) s = .next s :=
  (if_neg (by simp [hal])).trans (if_pos (by simp [hoff]))

theorem exec_ethFrameReceive_badFcs (hal : s.alive = true) (hon : s.portOn p = true) :
    exec (.ethFrameReceive p false f) s = .next (s.count (Cnt.portCntFcs p)) :=
  (if_neg (by simp [hal])).trans ((if_neg (by simp [hon])).trans (if_pos (by simp)))

/-- A frame past 1,522 bytes with its FCS, or too short for a header, counts. -/
theorem exec_ethFrameReceive_badSize (hal : s.alive = true) (hon : s.portOn p = true) (hsize : 1518 < f.length ∨ f.length < 14) :
    exec (.ethFrameReceive p true f) s = .next (s.count (Cnt.portCntNonsrp p)) := by
  refine (if_neg (by simp [hal])).trans ((if_neg (by simp [hon])).trans ((if_neg (by simp)).trans ?_))
  rcases hsize with hlong | hshort
  · exact if_pos (by omega)
  · exact (if_neg (by omega)).trans (if_pos hshort)

/-- One of a fitting size goes by its EtherType. -/
theorem exec_ethFrameReceive_sorted (hal : s.alive = true) (hon : s.portOn p = true) (hmin : 14 ≤ f.length) (hmax : f.length ≤ 1518) :
    exec (.ethFrameReceive p true f) s = if frameType f = bitsN (s.force Reg.portEtype) 15 0 then .next (s.srpReceive p (framePayload f))
      else if frameType f = 0x88F7 then .next (s.gptpReceive p (framePayload f)) else .next (s.count (Cnt.portCntNonsrp p)) := by
  refine (if_neg (by simp [hal])).trans ((if_neg (by simp [hon])).trans ((if_neg (by simp)).trans ((if_neg (by omega)).trans ?_)))
  simp only [decide_eq_true_eq]
  exact if_neg (by omega)

/-- A range packet too short, or of another magic or version, counts as a bad header. -/
theorem State.srpReceive_badHeader {pl : List Byte} (h : pl.length < 36 ∨ leAt pl 0 2 ≠ 0x5253 ∨ leAt pl 2 1 ≠ 1) :
    s.srpReceive p pl = s.count (Cnt.portCntHdr p) := if_pos h

end

/-- Settles O50: each event of a port has its effect, and a received frame meets FCS, size and EtherType in that order; the address a
hot-join is given is a free value (log 118). -/
theorem portEvents : Obligations.PortEvents := by
  refine ⟨fun s p hal => ⟨?linkDown, fun hg => ⟨fun hen hdn => ?linkUp, exec_linkUp_stays hal hg,
      fun b h => ⟨exec_i3cHotJoin b h hal hg, exec_i3cInBandInterrupt b h hal hg⟩,
      fun hlit => ⟨exec_litTimeTick_second hal hg hlit, exec_litTimeTick_minute hal hg hlit⟩⟩,
      fun hon => ⟨exec_syncTransmit hal hon, exec_pdelayReqTransmit hal hon⟩, fun nack v m hpend => ?lifeWrite⟩,
    fun s p f hal => ⟨fun hoff ok => exec_ethFrameReceive_off ok hal hoff, exec_ethFrameReceive_badFcs hal,
      exec_ethFrameReceive_badSize hal, fun hon hmin hmax => ?sorted⟩⟩
  case linkDown =>
    have hlow := State.linkFall_spec (s.modPort p (fun q => { q with phyUp := false })) p
    obtain ⟨hkept, ⟨n, hself⟩, hother, heq⟩ := State.setPortBits_frame (s.modPort p (fun q => { q with phyUp := false })) p
      (putBits (s.fld (Reg.portState p) 5 0) 0 0 0)
    refine ⟨_, exec_linkDown hal, hlow.1, hlow.2, ?_, hkept, fun o ho => (hother o ho).trans (State.modPort_ne _ _ ho), heq.trans rfl⟩
    exact (congrArg PortSt.phyUp hself).trans (congrArg PortSt.phyUp (State.modPort_self _ _ _))
  case linkUp =>
    obtain ⟨hlink, hhead, ⟨n, hself⟩, hkept, hother, heq⟩ := State.linkRise_spec (s.modPort p (fun q => { q with phyUp := true })) p
    refine ⟨_, exec_linkUp_rises hal hg hen hdn, hlink, hhead, ?_, ?_, hkept, fun o ho => (hother o ho).trans (State.modPort_ne _ _ ho),
      heq.trans rfl⟩
    · rw [hself, State.modPort_self]
    · rw [hself]
  case lifeWrite =>
    rw [exec_lifeWriteComplete nack v hal hpend]
    refine ⟨fun h => ?_, fun h h' => ?_⟩
    · rw [if_pos (by simpa using h)]
    · rw [if_neg (by simp [h, h'])]
  case sorted =>
    rw [exec_ethFrameReceive_sorted hal hon hmin hmax]
    refine ⟨fun het => ⟨if_pos het, State.srpReceive_badHeader⟩, fun hne het => (if_neg hne).trans (if_pos het),
      fun hne hne' => (if_neg hne).trans (if_neg hne')⟩

end Sys2Proof.Machine
end

section
/-! SUPPORT. What the operations of the base die leave alone: the words outside the EVT block and all state but memory, free values, the
frames and the hitch (R424, R602, R659); and what gait transitions leave alone (R552, R567). -/

namespace Sys2Proof.Machine

/-! ### Words outside the EVT block -/

/-- Every register word outside the EVT block (Table 18-6) reads as before. -/
def EvtOnly (s t : State) : Prop := ∀ o, o < 0x80000 ∨ 0xC0000 ≤ o → t.rd o = s.rd o

theorem EvtOnly.refl (s : State) : EvtOnly s s := fun _ _ => rfl

theorem EvtOnly.trans {s t u : State} (h : EvtOnly s t) (h' : EvtOnly t u) : EvtOnly s u :=
  fun o ho => (h' o ho).trans (h o ho)

theorem EvtOnly.bit {s t : State} (h : EvtOnly s t) {o : Nat} (ho : o < 0x80000 ∨ 0xC0000 ≤ o) (i : Nat) : t.bit o i = s.bit o i :=
  congrArg (bitN · i) (h o ho)

section
variable (s : State)

theorem State.put_evtOnly {o : Nat} (v : Nat) (ho : 0x80000 ≤ o) (ho' : o < 0xC0000) : EvtOnly s (s.put o v) :=
  fun x hx => State.rd_put_ne s v (by omega)

theorem State.count_evtOnly {c : Ctr} (n : Nat) (hreg : 0x80000 ≤ c.reg ∧ c.reg < 0xC0000)
    (hovf : 0x80000 ≤ c.ovf + 4 * (c.bit / 32) ∧ c.ovf + 4 * (c.bit / 32) < 0xC0000) : EvtOnly s (s.count c n) :=
  fun _ hx => s.rd_count_ne c n (by omega) (by omega)

theorem logWord_bounds (i : Nat) {k : Nat} (hk : k ≤ 7) : 0x80000 ≤ logWord i k ∧ logWord i k + 4 ≤ 0xC0000 := by
  unfold logWord
  omega

theorem State.logPut_evtOnly (n frm w4 data : Nat) : EvtOnly s (s.logPut n frm w4 data) := by
  intro o ho
  have hword : ∀ k ≤ 7, o ≠ logWord (n % 4096) k := fun k hk => by have := logWord_bounds (n % 4096) hk; omega
  have hnext : ∀ k ≤ 6, o ≠ logWord (n % 4096) k + 4 := fun k hk => by
    have : logWord (n % 4096) k + 4 = logWord (n % 4096) (k + 1) := by unfold logWord; omega
    rw [this]
    exact hword _ (by omega)
  have hseq : o ≠ Reg.evtLogSeq := by unfold Reg.evtLogSeq; omega
  simp [State.logPut, hseq, hword, hnext]

/-- A log entry is written in the EVT block. -/
theorem State.logEvent_evtOnly (code unit src data : Nat) : EvtOnly s (s.logEvent code unit src data) := by
  unfold State.logEvent
  dsimp only
  split
  · obtain ⟨hlo, hhi⟩ := logWord_bounds ((s.rd Reg.evtLogSeq + 4095) % 4096) (by decide : 5 ≤ 7)
    exact s.put_evtOnly _ hlo (by omega)
  · have hfull : EvtOnly s (if 4096 ≤ s.log.used then s.count Cnt.evtLogOvwr else s) := by
      split
      · exact s.count_evtOnly 1 (by decide) (by decide)
      · exact EvtOnly.refl s
    generalize hp : State.logPut _ _ _ _ _ = p
    have hput : EvtOnly s p := hp ▸ hfull.trans (State.logPut_evtOnly _ _ _ _ _)
    exact fun o ho => hput o ho

end

/-! ### The event log (R602) -/

/-- Only the log changes: words of the EVT block and the log's own record (R602). -/
def LogOnly (s t : State) : Prop := EvtOnly s t ∧ t = { s with regs := t.regs, log := t.log }

theorem LogOnly.trans {s t u : State} (h : LogOnly s t) (h' : LogOnly t u) : LogOnly s u :=
  ⟨h.1.trans h'.1, by rw [h'.2, h.2]⟩

theorem State.logEvent_logOnly (s : State) (code unit src data : Nat) : LogOnly s (s.logEvent code unit src data) :=
  ⟨s.logEvent_evtOnly code unit src data, s.logEvent_eq code unit src data⟩

theorem State.logEvent_logOnly_if (s : State) (c : Bool) (code unit src data : Nat) :
    LogOnly s (if c then s.logEvent code unit src data else s) := by
  split
  · exact s.logEvent_logOnly code unit src data
  · exact ⟨EvtOnly.refl s, rfl⟩

/-! ### Accesses of the base-die engines (R659) -/

/-- What an engine's access may change: words of the EVT block, memory, free values, the frames and what the hitch is to send. -/
def EngineOnly (s t : State) : Prop :=
  EvtOnly s t ∧ t = { s with regs := t.regs, freeCtr := t.freeCtr, mem := t.mem, frm := t.frm, hitch := t.hitch }

theorem EngineOnly.refl (s : State) : EngineOnly s s := ⟨EvtOnly.refl s, rfl⟩

theorem EngineOnly.trans {s t u : State} (h : EngineOnly s t) (h' : EngineOnly t u) : EngineOnly s u :=
  ⟨h.1.trans h'.1, by rw [h'.2, h.2]⟩

/-- A run of steps each of which an engine may take. -/
theorem EngineOnly.foldl {α : Type} (l : List α) (f : State → α → State) (s : State)
    (h : ∀ (t : State), ∀ x ∈ l, EngineOnly t (f t x)) : EngineOnly s (l.foldl f s) :=
  List.foldlRecOn l f (EngineOnly.refl s) fun t ht x hx => ht.trans (h t x hx)

section
variable (s : State)

theorem State.count_engineOnly {c : Ctr} (n : Nat) (hreg : 0x80000 ≤ c.reg ∧ c.reg < 0xC0000)
    (hovf : 0x80000 ≤ c.ovf + 4 * (c.bit / 32) ∧ c.ovf + 4 * (c.bit / 32) < 0xC0000) : EngineOnly s (s.count c n) :=
  ⟨s.count_evtOnly n hreg hovf, by rw [State.count_eq]⟩

/-- An error counted by half of burrow memory or by controller (R424, R429). -/
theorem State.count_memory_engineOnly {a : Nat} {bur ddr : Nat → Ctr}
    (hbur : ∀ k < 2, EngineOnly s (s.count (bur k))) (hddr : ∀ k < 2, EngineOnly s (s.count (ddr k))) :
    EngineOnly s (if a < 0x8000000 then s.count (bur (a / 0x4000000)) else s.count (ddr (ddrOf a))) := by
  split
  · exact hbur _ (by omega)
  · exact hddr _ (Nat.mod_lt _ (by decide))

theorem State.countUe_engineOnly (a : Nat) : EngineOnly s
    (if a < 0x8000000 then s.count (Cnt.evtCntBurUe (a / 0x4000000)) else s.count (Cnt.evtCntDdrUe (ddrOf a))) :=
  s.count_memory_engineOnly
    (fun k hk => by rcases (by omega : k = 0 ∨ k = 1) with rfl | rfl <;> exact s.count_engineOnly 1 (by decide) (by decide))
    (fun k hk => by rcases (by omega : k = 0 ∨ k = 1) with rfl | rfl <;> exact s.count_engineOnly 1 (by decide) (by decide))

theorem State.countCe_engineOnly (a : Nat) : EngineOnly s
    (if a < 0x8000000 then s.count (Cnt.evtCntBurCe (a / 0x4000000)) else s.count (Cnt.evtCntDdrCe (ddrOf a))) :=
  s.count_memory_engineOnly
    (fun k hk => by rcases (by omega : k = 0 ∨ k = 1) with rfl | rfl <;> exact s.count_engineOnly 1 (by decide) (by decide))
    (fun k hk => by rcases (by omega : k = 0 ∨ k = 1) with rfl | rfl <;> exact s.count_engineOnly 1 (by decide) (by decide))

theorem State.countBad_engineOnly (ws : List (Nat × Bool)) : EngineOnly s (s.countBad ws) := by
  refine EngineOnly.foldl _ _ _ fun t w _ => ?_
  split
  · exact EngineOnly.refl t
  · exact t.countUe_engineOnly w.1

theorem State.countSoft_engineOnly (a n : Nat) : EngineOnly s (s.countSoft a n) := by
  unfold State.countSoft
  split
  · exact EngineOnly.refl s
  · exact (EngineOnly.foldl _ _ _ fun t w _ => t.countCe_engineOnly w).trans ⟨fun _ _ => rfl, rfl⟩

theorem State.readMeets_engineOnly (a n : Nat) : EngineOnly s (s.readMeets a n) :=
  (s.countSoft_engineOnly a n).trans (State.countBad_engineOnly _ _)

theorem State.memWrite_engineOnly (a : Nat) (bs : List Byte) : EngineOnly s (s.memWrite a bs) := by
  unfold State.memWrite
  dsimp only
  generalize hsoft : List.filter _ s.mem.soft = soft
  have hcount := (State.countSoft_engineOnly { s with mem := { s.mem with soft := soft } } a bs.length).trans
    (State.countBad_engineOnly _ ((s.mem.badIn a bs.length).filter (fun w => !(decide (a ≤ w.1 ∧ w.1 + eccSize w.1 ≤ a + bs.length)))))
  exact EngineOnly.trans ⟨fun _ _ => rfl, rfl⟩ (hcount.trans ⟨fun _ _ => rfl, rfl⟩)

theorem State.degrade_engineOnly (f : Nat) : EngineOnly s (s.degrade f) := ⟨fun _ _ => rfl, rfl⟩

theorem State.sendMember_engineOnly (m a : Nat) (bs : List (Byte × Bool)) : EngineOnly s (s.sendMember m a bs).2 := ⟨fun _ _ => rfl, rfl⟩

/-- A datum lost: counted, and the frame it serves degraded. -/
theorem State.engLost_engineOnly {t : State} (frame : Option Nat) (h : EngineOnly s t) :
    EngineOnly s (match frame with | some f => t.degrade f | none => t) := by
  split
  · exact h.trans (t.degrade_engineOnly _)
  · exact h

theorem State.engRead_engineOnly (unset : Bool) (a n : Nat) (frame : Option Nat) : EngineOnly s (s.engRead unset a n frame).2 := by
  have hlost := s.engLost_engineOnly frame (s.count_engineOnly (c := Cnt.evtCntEngAddr) 1 (by decide) (by decide))
  unfold State.engRead
  dsimp only
  split
  · exact hlost
  · split
    · split
      · exact hlost
      · split
        · exact s.countSoft_engineOnly _ _
        · exact s.engLost_engineOnly frame (s.readMeets_engineOnly _ _)
    · split
      · exact ⟨fun _ _ => rfl, rfl⟩
      · exact hlost
    · exact hlost

theorem State.engWrite_engineOnly (unset : Bool) (a : Nat) (bs : List Byte) (frame : Option Nat) :
    EngineOnly s (s.engWrite unset a bs frame).2 := by
  have hlost := s.engLost_engineOnly frame (s.count_engineOnly (c := Cnt.evtCntEngAddr) 1 (by decide) (by decide))
  unfold State.engWrite
  dsimp only
  split
  · exact hlost
  · split
    · split
      · exact s.memWrite_engineOnly _ _
      · exact hlost
    · split
      · exact s.sendMember_engineOnly _ _ _
      · exact hlost
    · exact hlost

theorem State.countReads_engineOnly (xs : List (Nat × Nat)) (frame : Option Nat) : EngineOnly s (s.countReads xs frame) :=
  EngineOnly.foldl _ _ _ fun t x _ => t.engRead_engineOnly false x.1 x.2 frame

end

/-! ### Gait transitions (R552, R567) -/

section
variable (s : State)

theorem State.setGait_wakeOnly (g : Nat) (forReq : Bool) : WakeOnly s (s.setGait g forReq) := by
  have hput : ∀ v, WakeOnly s (s.put Reg.gaitStat v) := fun v => ⟨(s.put_kept _ v).mono (by simp), rfl⟩
  unfold State.setGait
  split
  · exact WakeOnly.refl s
  · dsimp only
    split
    · exact hput _
    · exact (hput _).trans (State.modGait_wakeOnly _ _)

/-- The gait a change enters. -/
theorem State.gaitN_setGait {g : Nat} (hg : g < 4) (forReq : Bool) : (s.setGait g forReq).gaitN = g := by
  have hput : ∀ v, (s.put Reg.gaitStat (putBits (putBits (s.rd Reg.gaitStat) 1 0 g) 31 16 v)).gaitN = g := fun v => by
    have hlt : putBits (putBits (s.rd Reg.gaitStat) 1 0 g) 31 16 v < 2 ^ 32 :=
      putBits_lt (by decide) (putBits_lt (by decide) (s.rd_lt _) (by decide)) (by decide)
    rw [State.gaitN, State.fld, State.rd_put_self, Nat.mod_eq_of_lt hlt, bitsN_putBits_ne (by decide) (.inr (by decide)),
      bitsN_putBits_self (by decide)]
    exact Nat.mod_eq_of_lt hg
  unfold State.setGait
  split
  · next h => exact h
  · dsimp only
    split
    · exact hput _
    · exact hput _

/-- GAIT_STAT[2] and the transition's own state aside, the gait stays. -/
theorem State.gaitN_setTrans (t : Trans) (own : Bool) : (s.setTrans t own).gaitN = s.gaitN := by
  have hlt : putBits (s.rd Reg.gaitStat) 2 2 (b2n (t != Trans.none)) < 2 ^ 32 := putBits_lt (by decide) (s.rd_lt _) (by decide)
  change bitsN ((s.put Reg.gaitStat _).rd Reg.gaitStat) 1 0 = _
  rw [State.rd_put_self, Nat.mod_eq_of_lt hlt, bitsN_putBits_ne (by decide) (.inr (by decide))]
  rfl

/-- From Canter to Trot or its drain, at a later instant. -/
theorem State.leaveCanter_frame :
    RegsKept s s.leaveCanter [Reg.gaitWakeSrc, Reg.gaitStat]
      ∧ s.leaveCanter = { s with time := s.leaveCanter.time, regs := s.leaveCanter.regs, gait := s.leaveCanter.gait, stack := s.leaveCanter.stack } := by
  unfold State.leaveCanter
  split
  · exact ⟨RegsKept.refl s _, rfl⟩
  · split
    · obtain ⟨hkept, heq⟩ := ((State.setGait_wakeOnly (s.at_ (s.time + 1000)) 2 true).trans (State.setTrans_wakeOnly _ .none false)).trans
        (State.runWake_wakeOnly _)
      refine ⟨hkept, ?_⟩
      unfold State.enterTrot
      rw [heq]
      rfl
    · obtain ⟨hkept, heq⟩ := s.setTrans_wakeOnly .canterToTrot false
      exact ⟨hkept, heq⟩

end

end Sys2Proof.Machine
end

section
/-! SUPPORT. What the start of an item makes of a tile (R375), and what the scheduler's withdrawal of items never does: it changes no
tile's STATE and gives no item to a tile that holds none. With them the failure of a tile (R587 to R590). -/

namespace Sys2Proof.Machine

/-! ### The start of an item (R375) -/

section
variable (s : State) (t : TileId)

/-- The start of an item does nothing, or moves the first queued item to the control core. -/
theorem State.startItem_cases : s.startItem t = s ∨ ∃ w rest g seen v, s.tiles[t].running = none ∧ s.tiles[t].work = w :: rest
    ∧ s.startItem t = ((s.modTile t (fun tl => { tl with work := rest, running := some w, pc := w.pc, ctx := none, g := g, seen := seen })).putB
      (Reg.tileEpoch t) 18 false).put (Reg.tileItem t) v := by
  unfold State.startItem
  dsimp only
  split
  · next w rest hrun hwork =>
    split
    · exact .inl rfl
    · exact .inr ⟨w, rest, _, _, _, hrun, hwork, rfl⟩
  · exact .inl rfl

theorem State.startItem_of_no_work (h : s.tiles[t].work = []) : s.startItem t = s := by
  rcases s.startItem_cases t with hs | ⟨w, rest, g, seen, v, -, hwork, -⟩
  · exact hs
  · exact absurd (h.symm.trans hwork) (by simp)

theorem State.startItem_frame :
    RegsKept s (s.startItem t) [Reg.tileEpoch t, Reg.tileItem t] ∧ (∀ u : TileId, u ≠ t → (s.startItem t).tiles[u] = s.tiles[u])
      ∧ s.startItem t = { s with regs := (s.startItem t).regs, tiles := (s.startItem t).tiles } := by
  rcases s.startItem_cases t with hs | ⟨w, rest, g, seen, v, -, -, hs⟩
  · rw [hs]
    exact ⟨RegsKept.refl s _, fun _ _ => rfl, rfl⟩
  · rw [hs]
    refine ⟨?_, fun u hu => by rw [State.put_tiles, State.putB_tiles, State.modTile_ne s _ hu], rfl⟩
    exact ((State.putB_kept _ _ _ _).mono (by simp)).trans ((State.put_kept _ _ _).mono (by simp))

/-- Its tile keeps all but the item, the context and the G registers. -/
theorem State.startItem_tile : ∃ work running pc ctx g seen,
    (s.startItem t).tiles[t] = { s.tiles[t] with work := work, running := running, pc := pc, ctx := ctx, g := g, seen := seen } := by
  rcases s.startItem_cases t with hs | ⟨w, rest, g, seen, v, -, -, hs⟩
  · rw [hs]
    exact ⟨_, _, _, _, _, _, rfl⟩
  · rw [hs]
    exact ⟨_, _, _, _, _, _, by rw [State.put_tiles, State.putB_tiles, State.modTile_self]⟩

/-- Its tile holds the items it held. -/
theorem State.mem_items_startItem (w : Work) : w ∈ (s.startItem t).tiles[t].items ↔ w ∈ s.tiles[t].items := by
  rcases s.startItem_cases t with hs | ⟨x, rest, g, seen, v, hrun, hwork, hs⟩
  · rw [hs]
  · have htile : (s.startItem t).tiles[t] = { s.tiles[t] with
        work := rest, running := some x, pc := x.pc, ctx := none, g := g, seen := seen } := by
      rw [hs, State.put_tiles, State.putB_tiles, State.modTile_self]
    rw [htile, Tile.items, Tile.items, hrun, hwork]
    simp [or_left_comm]

end

/-! ### Operations that leave a tile without items as it is -/

/-- No item queued or running. -/
def Tile.NoItem (tl : Tile) : Prop := tl.work = [] ∧ tl.running = none

/-- No tile's STATE changes, and none that holds no item gets one. -/
structure StaysDown (s t : State) : Prop where
  state : ∀ u : TileId, t.rd (Reg.tileState u) = s.rd (Reg.tileState u)
  noItem : ∀ u : TileId, s.tiles[u].NoItem → t.tiles[u].NoItem

theorem StaysDown.refl (s : State) : StaysDown s s := ⟨fun _ => rfl, fun _ h => h⟩

theorem StaysDown.trans {s t u : State} (h : StaysDown s t) (h' : StaysDown t u) : StaysDown s u :=
  ⟨fun x => (h'.state x).trans (h.state x), fun x hx => h'.noItem x (h.noItem x hx)⟩

/-- A run of such steps. -/
theorem StaysDown.foldl {α : Type} (l : List α) (f : State → α → State) (s : State)
    (h : ∀ (t : State), ∀ x ∈ l, StaysDown t (f t x)) : StaysDown s (l.foldl f s) :=
  List.foldlRecOn l f (StaysDown.refl s) fun t ht x hx => ht.trans (h t x hx)

/-- A step that leaves the tiles alone, and every TILE_STATE. -/
theorem StaysDown.of_tiles {s t : State} (htiles : t.tiles = s.tiles)
    (hstate : ∀ u : TileId, t.rd (Reg.tileState u) = s.rd (Reg.tileState u)) : StaysDown s t :=
  ⟨hstate, fun u hu => by rwa [htiles]⟩

theorem EngineOnly.staysDown {s t : State} (h : EngineOnly s t) : StaysDown s t :=
  .of_tiles (by rw [h.2]) fun u => h.1 _ (.inr (by unfold Reg.tileState; omega))

section
variable (s : State)

theorem State.put_staysDown {o : Nat} (v : Nat) (ho : ∀ u : TileId, Reg.tileState u ≠ o) : StaysDown s (s.put o v) :=
  .of_tiles rfl fun u => State.rd_put_ne s v (ho u)

theorem State.putB_staysDown {o : Nat} (i : Nat) (b : Bool) (ho : ∀ u : TileId, Reg.tileState u ≠ o) : StaysDown s (s.putB o i b) :=
  s.put_staysDown _ ho

theorem State.count_staysDown {c : Ctr} (n : Nat) (hreg : c.reg < 0x1000000) (hovf : c.ovf + 4 * (c.bit / 32) < 0x1000000) :
    StaysDown s (s.count c n) :=
  .of_tiles (s.count_tiles c n) fun u => s.rd_count_ne c n (by unfold Reg.tileState; omega) (by unfold Reg.tileState; omega)

theorem State.logEvent_staysDown (code unit src data : Nat) : StaysDown s (s.logEvent code unit src data) :=
  .of_tiles (by rw [State.logEvent_eq]) fun u => s.logEvent_evtOnly _ _ _ _ _ (.inr (by unfold Reg.tileState; omega))

theorem State.modEpoch_staysDown (f : Nat) (g : Epoch → Epoch) : StaysDown s (s.modEpoch f g) := .of_tiles rfl fun _ => rfl

theorem State.mapLive_staysDown (f : Epoch → Epoch) : StaysDown s (s.mapLive f) := .of_tiles rfl fun _ => rfl

theorem State.modTile_staysDown (t : TileId) {f : Tile → Tile} (hf : ∀ tl : Tile, tl.NoItem → (f tl).NoItem) : StaysDown s (s.modTile t f) := by
  refine ⟨fun _ => rfl, fun u hu => ?_⟩
  by_cases h : u = t
  · subst h
    rw [State.modTile_self]
    exact hf _ hu
  · rwa [State.modTile_ne s f h]

theorem State.startItem_staysDown (t : TileId) : StaysDown s (s.startItem t) := by
  obtain ⟨hkept, hother, -⟩ := s.startItem_frame t
  refine ⟨fun u => hkept _ ?_, fun u hu => ?_⟩
  · simp only [List.mem_cons, List.not_mem_nil, or_false]
    unfold Reg.tileState Reg.tileEpoch Reg.tileItem
    omega
  · by_cases h : u = t
    · subst h
      rwa [s.startItem_of_no_work u hu.1]
    · rwa [hother u h]

theorem State.settleFences_staysDown (t : TileId) : StaysDown s (s.settleFences t) := by
  rw [State.settleFences_eq]
  exact s.modTile_staysDown t fun _ h => h

theorem State.markBack_staysDown (t : TileId) (p : Work → Bool) : StaysDown s (s.markBack t p) := by
  have hne : ∀ u : TileId, Reg.tileState u ≠ Reg.tileHstat t := fun u => by unfold Reg.tileState Reg.tileHstat; omega
  unfold State.markBack
  split
  · exact (s.putB_staysDown 2 true hne).trans (State.putB_staysDown _ 1 false hne)
  · exact StaysDown.refl s

end

/-! ### The discard of an epoch in a tile (R209) -/

theorem Tile.accSet_noItem {tl : Tile} (a i v : Nat) (h : tl.NoItem) : (tl.accSet a i v).NoItem := h

theorem Tile.dropWork_noItem {tl : Tile} (p : Work → Bool) (h : tl.NoItem) : (tl.dropWork p).NoItem := by
  obtain ⟨hwork, hrun⟩ := h
  exact ⟨by simp [Tile.dropWork, Tile.releaseWork, hwork], by simp [Tile.dropWork, Tile.releaseWork, hrun]⟩

section
variable (s : State) (t : TileId)

theorem State.accUndefined_staysDown (spans : List (Nat × Nat × Nat)) : StaysDown s (s.accUndefined t spans) := by
  refine StaysDown.foldl _ _ _ fun u x _ => ?_
  have hfresh : StaysDown u (u.fresh x.2.2).2 := .of_tiles rfl fun _ => rfl
  exact hfresh.trans (State.modTile_staysDown _ t fun tl h =>
    List.foldlRecOn (motive := Tile.NoItem) _ _ h fun tl' h' i _ => Tile.accSet_noItem _ _ _ h')

theorem State.abortStarted_staysDown (u : UEntry) : StaysDown s (s.abortStarted t u) := by
  have htre : ∀ x : TileId, Reg.tileState x ≠ Reg.treStat t := fun x => by unfold Reg.tileState Reg.treStat; omega
  have harr : ∀ a < 4, ∀ x : TileId, Reg.tileState x ≠ Reg.tileArrStat t a := fun a ha x => by
    unfold Reg.tileState Reg.tileArrStat; omega
  unfold State.abortStarted
  dsimp only
  generalize hs : State.modTile (State.accUndefined s t u.touched) t _ = s1
  have hdrop : StaysDown s s1 := hs ▸ (s.accUndefined_staysDown t u.touched).trans (State.modTile_staysDown _ t fun _ h => h)
  refine hdrop.trans ?_
  split
  case h_1 => exact s1.putB_staysDown 3 false htre
  case h_2 => exact s1.putB_staysDown 4 false htre
  case h_9 =>
    split
    · split
      · exact StaysDown.refl s1
      · exact s1.modTile_staysDown t fun _ h => h
    · exact StaysDown.foldl _ _ _ fun x a ha => x.putB_staysDown 8 false (harr a (by simpa using (List.mem_filter.1 ha).2))
  all_goals exact s1.modTile_staysDown t fun _ h => h

theorem State.discardEpoch_staysDown (g : Nat) : StaysDown s (s.discardEpoch t g) := by
  have htok : ∀ k < 16, ∀ x : TileId, Reg.tileState x ≠ Reg.tileToken t k := fun k hk x => by
    unfold Reg.tileState Reg.tileToken; omega
  unfold State.discardEpoch
  dsimp only
  refine StaysDown.trans ?_ (State.settleFences_staysDown _ t)
  refine StaysDown.trans ?_ (StaysDown.foldl _ _ _ fun x k hk => ?_)
  · exact (StaysDown.foldl _ _ s fun x u _ => x.abortStarted_staysDown t u).trans (State.modTile_staysDown _ t fun _ h => h)
  · split
    · exact x.put_staysDown 0 (htok k (List.mem_range.1 hk))
    · exact StaysDown.refl x

end

/-! ### Items lost and withdrawn (R587 to R590) -/

section
variable (s : State)

theorem State.loseItem_staysDown (e : Epoch) (p : ProgInfo) (i : Nat) : StaysDown s (s.loseItem e p i).2 := by
  unfold State.loseItem
  split
  · exact StaysDown.refl s
  · exact s.count_staysDown 1 (by decide) (by decide)

/-- A run of steps that carry an epoch along. -/
theorem StaysDown.foldl_epoch {α : Type} (l : List α) (f : Epoch × State → α → Epoch × State) (e : Epoch)
    (h : ∀ (x : Epoch × State) (a : α), StaysDown x.2 (f x a).2) : StaysDown s (l.foldl f (e, s)).2 :=
  List.foldlRecOn (motive := fun x => StaysDown s x.2) l f (StaysDown.refl s) fun x hx a _ => hx.trans (h x a)

theorem State.spreadLoss_staysDown (f : Nat) : StaysDown s (s.spreadLoss f) := by
  unfold State.spreadLoss
  split
  · exact StaysDown.refl s
  · split
    · exact StaysDown.refl s
    · refine StaysDown.trans (StaysDown.foldl_epoch s _ _ _ fun x pc => ?_) (State.modEpoch_staysDown _ f _)
      dsimp only
      split_ifs
      · exact State.loseItem_staysDown _ _ _ _
      · exact StaysDown.refl _

theorem State.loseItems_staysDown (f : Nat) (is : List Nat) : StaysDown s (s.loseItems f is) := by
  unfold State.loseItems
  split
  · exact StaysDown.refl s
  · split
    · exact StaysDown.refl s
    · refine StaysDown.trans ?_ (State.spreadLoss_staysDown _ f)
      exact StaysDown.trans (StaysDown.foldl_epoch s _ _ _ fun x i => State.loseItem_staysDown _ _ _ _) (State.modEpoch_staysDown _ f _)

theorem State.loseUnreadable_staysDown (f : Nat) : StaysDown s (s.loseUnreadable f) := by
  unfold State.loseUnreadable
  split
  · exact StaysDown.refl s
  · split
    · exact StaysDown.refl s
    · dsimp only
      split
      · exact StaysDown.refl s
      · exact (s.countReads_engineOnly _ _).staysDown.trans (State.loseItems_staysDown _ _ _)

theorem State.markUnserved_staysDown (f : Nat) : StaysDown s (s.markUnserved f) := by
  unfold State.markUnserved
  refine (s.loseUnreadable_staysDown f).trans ?_
  dsimp only
  split
  · exact StaysDown.refl _
  · split
    · exact StaysDown.refl _
    · exact (State.modEpoch_staysDown _ _ _).trans (State.spreadLoss_staysDown _ f)

theorem State.pullItems_staysDown (f : Nat) (p : Nat → Bool) : StaysDown s (s.pullItems f p) := by
  refine StaysDown.foldl _ _ _ fun x t _ => ?_
  dsimp only
  split
  · exact (((x.modTile_staysDown t fun _ h => Tile.dropWork_noItem _ h).trans (State.markBack_staysDown _ t _)).trans
      (State.settleFences_staysDown _ t)).trans (State.startItem_staysDown _ t)
  · exact StaysDown.refl x

theorem State.limpLog_staysDown (d : Nat) (now : Bool) (uncov : Nat) : StaysDown s (s.limpLog d now uncov) := by
  unfold State.limpLog
  split
  · exact StaysDown.refl s
  · exact (s.putB_staysDown d now fun u => by unfold Reg.tileState Reg.evtLimpStat; omega).trans (State.logEvent_staysDown _ _ _ _ _)

theorem State.reissueAll_staysDown (f : Nat) : StaysDown s (s.reissueAll f) := by
  unfold State.reissueAll
  split
  · exact StaysDown.refl s
  · next e _ =>
    dsimp only
    generalize hs : State.markUnserved _ f = s1
    have hreissue : StaysDown s s1 := hs ▸ ((((s.pullItems_staysDown f _).trans
      (StaysDown.foldl _ _ _ fun x t _ => x.discardEpoch_staysDown t _)).trans (State.modEpoch_staysDown _ _ _)).trans
      (State.count_staysDown _ _ (by decide) (by decide))).trans (State.markUnserved_staysDown _ f)
    split
    · exact hreissue
    · exact (hreissue.trans (State.count_staysDown _ 1 (by decide) (by decide))).trans
        (StaysDown.foldl _ _ _ fun x d _ => x.limpLog_staysDown _ _ _)

theorem State.withdrawClosed_staysDown (t : TileId) (e : Epoch) (items : List Work) : StaysDown s (s.withdrawClosed t e items) := by
  unfold State.withdrawClosed
  split
  · exact StaysDown.refl s
  · exact (s.modEpoch_staysDown _ _).trans (State.loseItems_staysDown _ _ _)

theorem State.untagNext_staysDown (b : Fin 2) (i : Nat) : StaysDown s (s.untagNext b i) := by
  unfold State.untagNext
  split
  · split
    · exact .of_tiles rfl fun _ => rfl
    · exact StaysDown.refl s
  · exact StaysDown.refl s

/-- The scheduler's part of a tile lost to service. -/
theorem State.withdrawTile_staysDown (t : TileId) (items : List Work) : StaysDown s (s.withdrawTile t items) := by
  unfold State.withdrawTile
  refine ((s.mapLive_staysDown _).trans (StaysDown.foldl _ _ _ fun x w _ => ?_)).trans (StaysDown.foldl _ _ _ fun x e _ => ?_)
  · exact (x.count_staysDown 1 (by decide) (by decide)).trans (State.untagNext_staysDown _ _ _)
  · split
    · exact StaysDown.refl x
    · split
      · exact x.withdrawClosed_staysDown t e items
      · exact x.reissueAll_staysDown _

end

/-! ### STATE, reset and failure (R216, R222, R587) -/

section
variable (s : State) (t : TileId)

/-- STATE reads as it is set. -/
theorem State.tileState_setTileState {v : Nat} (hv : v < 8) : (s.setTileState t v).tileState t = v := by
  unfold State.setTileState
  split
  · next h => exact h
  · have hrd : ∀ g, (s.put (Reg.tileState t) (v + 2 ^ 16 * (g % 2 ^ 16))).rd (Reg.tileState t) = v + 2 ^ 16 * (g % 2 ^ 16) := fun g => by
      rw [State.rd_put_self]
      exact Nat.mod_eq_of_lt (by omega)
    change bitsN ((s.put (Reg.tileState t) _).rd (Reg.tileState t)) 2 0 = v
    rw [hrd]
    simp only [bitsN, Nat.shiftRight_zero]
    omega

theorem State.setTileState_frame (v : Nat) : RegsKept s (s.setTileState t v) [Reg.tileState t]
    ∧ (∀ u : TileId, u ≠ t → (s.setTileState t v).tiles[u] = s.tiles[u])
    ∧ (∃ m, (s.setTileState t v).tiles[t] = { s.tiles[t] with mgmt := m })
    ∧ s.setTileState t v = { s with regs := (s.setTileState t v).regs, tiles := (s.setTileState t v).tiles } := by
  unfold State.setTileState
  split
  · exact ⟨RegsKept.refl s _, fun _ _ => rfl, ⟨_, rfl⟩, rfl⟩
  · exact ⟨s.put_kept _ _, fun u hu => State.modTile_ne _ (fun tl => { tl with mgmt := _ }) hu,
      ⟨_, State.modTile_self (s.put _ _) t (fun tl => { tl with mgmt := _ })⟩, rfl⟩

/-- Tile reset leaves the tile with no item, and every STATE alone. -/
theorem State.resetTile_down : StaysDown s (s.resetTile t) ∧ (s.resetTile t).tiles[t].NoItem := by
  have htok : ∀ k < 16, ∀ x : TileId, Reg.tileState x ≠ Reg.tileToken t k := fun k hk x => by
    unfold Reg.tileState Reg.tileToken; omega
  have hseg : ∀ k < 3, ∀ x : TileId, Reg.tileState x ≠ Reg.tileSegState t k := fun k hk x => by
    unfold Reg.tileState Reg.tileSegState; omega
  have harr : ∀ a < 4, ∀ x : TileId, Reg.tileState x ≠ Reg.tileArrStat t a := fun a ha x => by
    unfold Reg.tileState Reg.tileArrStat; omega
  have hone : ∀ k ∈ [Reg.tileEpoch t, Reg.tileEpochTok t, Reg.tileHstat t, Reg.tileItem t, Reg.tileTlbStat t],
      ∀ x : TileId, Reg.tileState x ≠ k := by
    unfold Reg.tileState Reg.tileEpoch Reg.tileEpochTok Reg.tileHstat Reg.tileItem Reg.tileTlbStat
    simp only [List.mem_cons, List.not_mem_nil, or_false]
    omega
  unfold State.resetTile
  dsimp only
  generalize hs : State.modTile _ t _ = s1
  have hmod : StaysDown s s1 := hs ▸ StaysDown.trans (t := ((s.fresh 40).2.fresh (2048 + 65536)).2) (.of_tiles rfl fun _ => rfl)
    (State.modTile_staysDown _ t fun _ _ => ⟨rfl, rfl⟩)
  have hempty : s1.tiles[t].NoItem := by
    rw [← hs, State.modTile_self]
    exact ⟨rfl, rfl⟩
  have hput : ∀ (l : List Nat) (o : Nat → Nat) (x : State), (∀ k ∈ l, ∀ u : TileId, Reg.tileState u ≠ o k) →
      StaysDown x (l.foldl (fun s k => s.put (o k) 0) x) := fun l o x ho => StaysDown.foldl _ _ _ fun y k hk => y.put_staysDown 0 (ho k hk)
  have hclear : StaysDown s1 _ := (hput (List.range 16) (Reg.tileToken t) s1 fun k hk => htok k (List.mem_range.1 hk)).trans
    ((hput (List.range 3) (Reg.tileSegState t) _ fun k hk => hseg k (List.mem_range.1 hk)).trans
    ((State.put_staysDown _ 0 (hone (Reg.tileEpoch t) (by simp))).trans ((State.put_staysDown _ 0 (hone (Reg.tileEpochTok t) (by simp))).trans
    ((State.put_staysDown _ 0 (hone (Reg.tileHstat t) (by simp))).trans ((State.put_staysDown _ 0 (hone (Reg.tileItem t) (by simp))).trans
    ((State.put_staysDown _ 0 (hone (Reg.tileTlbStat t) (by simp))).trans
    (hput (List.range 4) (Reg.tileArrStat t) _ fun k hk => harr k (List.mem_range.1 hk))))))))
  exact ⟨hmod.trans hclear, hclear.noItem t hempty⟩

theorem State.leaveCanter_staysDown : StaysDown s s.leaveCanter := by
  obtain ⟨hkept, heq⟩ := s.leaveCanter_frame
  refine .of_tiles (by rw [heq]) fun u => hkept _ ?_
  simp only [List.mem_cons, List.not_mem_nil, or_false]
  unfold Reg.tileState Reg.gaitWakeSrc Reg.gaitStat
  omega

theorem State.stopTile_staysDown : StaysDown s (s.stopTile t) := by
  unfold State.stopTile
  refine StaysDown.trans ?_ (State.leaveCanter_staysDown _)
  refine StaysDown.trans ?_ (State.modTile_staysDown _ t fun _ h => h)
  split
  · exact .of_tiles rfl fun _ => rfl
  · exact StaysDown.refl s

/-- A tile that fails is quarantined and holds no item. -/
theorem State.failTile_down (cause : Nat) (h : s.tileState t ≠ 4) :
    (s.failTile t cause).tileState t = 4 ∧ (s.failTile t cause).tiles[t].running = none := by
  obtain ⟨hreset, hempty⟩ := (s.setTileState t 4).resetTile_down t
  have hafter : ∀ x : State, StaysDown x (((((x.stopTile t).orReg Reg.evtQuarStat (2 ^ t.val)).mapLive
      (fun e => { e with quarTiles := e.quarTiles ||| 2 ^ t.val })).count Cnt.evtCntQuar |>.logEvent 0x20 t.val 0 cause).withdrawTile t
        s.tiles[t].items) := fun x =>
    (x.stopTile_staysDown t).trans ((State.put_staysDown _ _ fun u => by unfold Reg.tileState Reg.evtQuarStat; omega).trans
      ((State.mapLive_staysDown _ _).trans ((State.count_staysDown _ 1 (by decide) (by decide)).trans
        ((State.logEvent_staysDown _ _ _ _ _).trans (State.withdrawTile_staysDown _ t _)))))
  have hfail : StaysDown ((s.setTileState t 4).resetTile t) (s.failTile t cause) := by
    rw [State.failTile, if_neg h]
    exact hafter _
  refine ⟨?_, (hfail.noItem t hempty).2⟩
  have hset : (s.setTileState t 4).tileState t = 4 := s.tileState_setTileState t (by decide)
  rw [← hset, State.tileState, State.tileState, State.fld, State.fld, (hreset.trans hfail).state]

end

end Sys2Proof.Machine
end

section
/-! SUPPORT. What the events of a head port leave alone: the emitter minutes and what follows them (R104, R108, R109), and a range packet
that passes its checks (R79, R87, R88, R115 to R117). With them that these events complete. -/

namespace Sys2Proof.Machine

/-! ### What is kept -/

/-- The tiles, memory, the frames, the gait, the hitch and the time base as they were. -/
def PortRest (s t : State) : Prop :=
  t.tiles = s.tiles ∧ t.mem = s.mem ∧ t.frm = s.frm ∧ t.gait = s.gait ∧ t.hitch = s.hitch ∧ t.time = s.time

theorem PortRest.of_eq {s t : State} {r : List (Nat × W32)} {ps : Vector PortSt 8} {i : Vector I3cSt 2} {c : Nat} {l : LogSt}
    (h : t = { s with regs := r, ports := ps, i3c := i, freeCtr := c, log := l }) : PortRest s t :=
  ⟨by rw [h], by rw [h], by rw [h], by rw [h], by rw [h], by rw [h]⟩

theorem PortRest.trans {s t u : State} (h : PortRest s t) (h' : PortRest t u) : PortRest s u := by
  obtain ⟨h1, h2, h3, h4, h5, h6⟩ := h
  obtain ⟨h1', h2', h3', h4', h5', h6'⟩ := h'
  exact ⟨h1'.trans h1, h2'.trans h2, h3'.trans h3, h4'.trans h4, h5'.trans h5, h6'.trans h6⟩

/-! ### Emitter minutes (R104 to R110) -/

section
variable (s : State) (p : PortId)

/-- One field of PORT_STATE[5:0] changed changes no more than the bits do. -/
theorem State.setPortF_frame (hi lo v : Nat) :
    RegsKept s (s.setPortF p hi lo v) [Reg.portState p]
      ∧ (∃ n, (s.setPortF p hi lo v).ports[p] = { s.ports[p] with reqGen := n })
      ∧ (∀ o : PortId, o ≠ p → (s.setPortF p hi lo v).ports[o] = s.ports[o])
      ∧ s.setPortF p hi lo v = { s with regs := (s.setPortF p hi lo v).regs, ports := (s.setPortF p hi lo v).ports } :=
  s.setPortBits_frame p _

/-- LIFE_WARN and LIFE_EXP follow the minutes: PORT_STATE and the log alone change. -/
theorem State.refreshLife_frame :
    (∀ o, 0xC0000 ≤ o → o ≠ Reg.portState p → (s.refreshLife p).rd o = s.rd o)
      ∧ (∃ n, (s.refreshLife p).ports[p] = { s.ports[p] with reqGen := n })
      ∧ s.refreshLife p = { s with regs := (s.refreshLife p).regs, ports := (s.refreshLife p).ports, log := (s.refreshLife p).log } := by
  unfold State.refreshLife
  dsimp only
  generalize hs : s.setPortF p 5 4 _ = s1
  obtain ⟨hkept, hself, -, heq⟩ : RegsKept s s1 [Reg.portState p] ∧ (∃ n, s1.ports[p] = { s.ports[p] with reqGen := n })
      ∧ (∀ o : PortId, o ≠ p → s1.ports[o] = s.ports[o]) ∧ s1 = { s with regs := s1.regs, ports := s1.ports } :=
    hs ▸ s.setPortF_frame p _ _ _
  have hlogged : ∀ t, LogOnly s1 t → (∀ o, 0xC0000 ≤ o → o ≠ Reg.portState p → t.rd o = s.rd o)
      ∧ (∃ n, t.ports[p] = { s.ports[p] with reqGen := n }) ∧ t = { s with regs := t.regs, ports := t.ports, log := t.log } := by
    rintro t ⟨hwords, hlog⟩
    refine ⟨fun o ho hne => (hwords o (.inr ho)).trans (hkept o (by simpa using hne)), ?_, ?_⟩
    · rw [hlog]
      exact hself
    · rw [hlog, heq]
  exact hlogged _ ((State.logEvent_logOnly_if _ _ _ _ _ _).trans (State.logEvent_logOnly_if _ _ _ _ _ _))

/-- The head's own count is written by its I3C controller. -/
theorem State.lifeXfer_eq (m : Nat) : s.lifeXfer p m = { s with i3c := (s.lifeXfer p m).i3c } := by
  unfold State.lifeXfer
  dsimp only
  split <;> rfl

/-- A lit minute that ends: the minutes held, the seconds past them, and what follows. -/
theorem State.litMinute_spec : let t := ((s.litMinuteEnds p).refreshLife p).lifeXfer p (s.litMinutes p)
    t.ports[p].litNow = false ∧ t.ports[p].litSec = s.ports[p].litSec + 1 - 60 ∧ t.fld (Reg.portLifeMin p) 23 0 = s.litMinutes p
      ∧ PortRest s t := by
  intro t
  obtain ⟨hwords, ⟨n, hself⟩, heq⟩ := (s.litMinuteEnds p).refreshLife_frame p
  have hport : (s.litMinuteEnds p).ports[p]
      = { s.ports[p] with litNow := false, litSec := s.ports[p].litSec + 1 - 60, lifePend := some (s.litMinutes p) } := by
    rw [State.litMinuteEnds, State.put_ports, State.modPort_self]
  have hle : s.litMinutes p ≤ 0xFFFFFF := Nat.min_le_left _ _
  have ht : t = { (s.litMinuteEnds p).refreshLife p with i3c := t.i3c } := State.lifeXfer_eq _ _ _
  have hports : t.ports[p] = _ := (congrArg (fun x : State => x.ports[p]) ht).trans hself
  rw [hport] at hports
  refine ⟨by rw [hports], by rw [hports], ?_, ?_⟩
  · have hrd : t.rd (Reg.portLifeMin p) = s.litMinutes p := by
      rw [ht]
      refine (hwords _ (by unfold Reg.portLifeMin; omega) (by unfold Reg.portLifeMin Reg.portState; omega)).trans ?_
      exact (State.rd_put_self _ _ _).trans (Nat.mod_eq_of_lt (by omega))
    rw [State.fld, hrd]
    exact Nat.mod_eq_of_lt (by omega)
  · exact (PortRest.of_eq (t := s.litMinuteEnds p) rfl).trans ((PortRest.of_eq heq).trans (PortRest.of_eq ht))

end

/-! ### A range packet that passes its checks -/

/-- What the store of a packet leaves of its port and of the machine. -/
structure PacketKept (p : PortId) (s t : State) : Prop where
  seqRef : t.ports[p].seqRef = s.ports[p].seqRef
  state : t.rd (Reg.portState p) = s.rd (Reg.portState p)
  tiles : t.tiles = s.tiles
  gait : t.gait = s.gait
  time : t.time = s.time

section
variable {p : PortId}

theorem PacketKept.refl (s : State) : PacketKept p s s := ⟨rfl, rfl, rfl, rfl, rfl⟩

theorem PacketKept.trans {s t u : State} (h : PacketKept p s t) (h' : PacketKept p t u) : PacketKept p s u :=
  ⟨h'.seqRef.trans h.seqRef, h'.state.trans h.state, h'.tiles.trans h.tiles, h'.gait.trans h.gait, h'.time.trans h.time⟩

theorem EngineOnly.packetKept {s t : State} (h : EngineOnly s t) : PacketKept p s t := by
  obtain ⟨hwords, heq⟩ := h
  exact ⟨by rw [heq], hwords _ (.inr (by unfold Reg.portState; omega)), by rw [heq], by rw [heq], by rw [heq]⟩

variable (s : State)

theorem State.count_packetKept {c : Ctr} (n : Nat) (hreg : Reg.portState p ≠ c.reg) (hovf : Reg.portState p ≠ c.ovf + 4 * (c.bit / 32)) :
    PacketKept p s (s.count c n) :=
  ⟨by rw [State.count_ports], s.rd_count_ne c n hreg hovf, s.count_tiles c n, s.count_gait c n, s.count_time c n⟩

theorem State.lateFuture_packetKept (pkt : List Byte) : PacketKept p s (s.lateFuture p pkt) := by
  have hfut : ∀ (x : State) n, PacketKept p x (x.count (Cnt.portCntFuture p) n) := fun x n =>
    x.count_packetKept n (by simp only [Cnt.portCntFuture, Reg.portState, Reg.portCntFuture]; omega)
      (by simp only [Cnt.portCntFuture, Reg.portState, Reg.portCntOvf]; omega)
  have hlate : ∀ (x : State) n, PacketKept p x (x.count (Cnt.portCntLate p) n) := fun x n =>
    x.count_packetKept n (by simp only [Cnt.portCntLate, Reg.portState, Reg.portCntLate]; omega)
      (by simp only [Cnt.portCntLate, Reg.portState, Reg.portCntOvf]; omega)
  exact (hfut s _).trans (hlate _ _)

theorem State.storePacket_packetKept (pkt : List Byte) (slot : Nat) : PacketKept p s (s.storePacket p pkt slot) := by
  unfold State.storePacket
  dsimp only
  have hfresh : PacketKept p s (s.fresh 1504).2 := ⟨rfl, rfl, rfl, rfl, rfl⟩
  generalize hw : State.engWrite _ _ _ _ _ = r
  have hwrite : PacketKept p s r.2 := hw ▸ hfresh.trans (State.engWrite_engineOnly _ _ _ _ _).packetKept
  split
  · exact hwrite.trans ⟨rfl, rfl, rfl, rfl, rfl⟩
  · exact hwrite.trans ⟨rfl, rfl, rfl, rfl, rfl⟩

theorem State.psLoss_packetKept (f n : Nat) : PacketKept p s (s.psLoss f p n) := by
  unfold State.psLoss
  split
  · exact ⟨rfl, rfl, rfl, rfl, rfl⟩
  · exact ⟨rfl, rfl, rfl, rfl, rfl⟩

theorem State.storeOrDrop_packetKept (pkt : List Byte) : PacketKept p s (s.storeOrDrop p pkt) := by
  have hfull : ∀ (x : State) n, PacketKept p x (x.count (Cnt.ingCntPsfull p) n) := fun x n =>
    x.count_packetKept n (by simp only [Cnt.ingCntPsfull, Reg.portState, Reg.ingCntPsfull]; omega)
      (by simp only [Cnt.ingCntPsfull, Reg.portState, Reg.ingCntOvf]; omega)
  unfold State.storeOrDrop
  split
  · exact PacketKept.refl s
  · refine (s.lateFuture_packetKept pkt).trans ?_
    dsimp only
    split
    · exact State.storePacket_packetKept _ _ _
    · exact (hfull _ _).trans (List.foldlRecOn _ _ (PacketKept.refl _) fun x hx i _ => hx.trans (State.psLoss_packetKept x _ _))

theorem State.phaseCheck_packetKept (t : Nat) : PacketKept p s (s.phaseCheck p t) := by
  have hphase : ∀ (x : State) n, PacketKept p x (x.count (Cnt.portCntPhase p) n) := fun x n =>
    x.count_packetKept n (by simp only [Cnt.portCntPhase, Reg.portState, Reg.portCntPhase]; omega)
      (by simp only [Cnt.portCntPhase, Reg.portState, Reg.portCntOvf]; omega)
  unfold State.phaseCheck
  dsimp only
  generalize hs : State.modPort _ p _ = s1
  have hfree : PacketKept p s s1 := hs ▸ ⟨by rw [State.modPort_self]; rfl, rfl, rfl, rfl, rfl⟩
  split
  · exact hfree.trans (hphase _ _)
  · exact hfree

/-- A packet past every check sets the sequence reference and clears the tunnel bit, and goes to the store (R87, R88). -/
theorem State.srpReceive_accepted {pl : List Byte} (hlen : 36 ≤ pl.length) (hmagic : leAt pl 0 2 = 0x5253) (hver : leAt pl 2 1 = 1)
    (hn : srpCount pl ≤ 180) (hfit : 36 + 8 * srpCount pl ≤ pl.length)
    (hcrc : crc32c (pl.take (32 + 8 * srpCount pl)) = leAt pl (32 + 8 * srpCount pl) 4) (hhead : s.headOf p = 2)
    (hser : leAt pl 8 8 = s.rd64 (Reg.portHeadSerial p)) (htunl : bitN (leAt pl 0x1C 2) 3 = false)
    (hnew : seqDelta s.ports[p].seqRef (leAt pl 0x18 4) ≠ 0) (hnew' : seqDelta s.ports[p].seqRef (leAt pl 0x18 4) < 2 ^ 31) :
    (s.srpReceive p pl).ports[p].seqRef = some (leAt pl 0x18 4) ∧ (s.srpReceive p pl).bit (Reg.portState p) 6 = false
      ∧ (s.srpReceive p pl).tiles = s.tiles ∧ (s.srpReceive p pl).gait = s.gait ∧ (s.srpReceive p pl).time = s.time := by
  have hserial : s.serialCheck p (leAt pl 8 8) = s := if_pos (.inl hser)
  unfold State.srpReceive
  rw [if_neg (by simp [hmagic, hver]; omega)]
  dsimp only
  rw [if_neg (by omega), if_neg (not_not_intro hcrc), hserial, if_neg (by simp [hhead, hser]), if_neg (by simp [htunl]),
    if_neg (not_or_intro hnew (Nat.not_le.2 hnew'))]
  generalize hs : State.putB _ (Reg.portState p) 6 false = s1
  have htaken : s1.ports[p].seqRef = some (leAt pl 0x18 4) ∧ s1.bit (Reg.portState p) 6 = false ∧ s1.tiles = s.tiles ∧ s1.gait = s.gait
      ∧ s1.time = s.time := by
    subst hs
    refine ⟨?_, ?_, ?_, ?_, ?_⟩
    · rw [State.putB_ports, State.modPort_self]
    · rw [State.bit_putB _ _ (by decide), if_pos rfl]
    · simp
    · simp
    · simp
  generalize ht : State.storeOrDrop _ p _ = t
  have hkept : PacketKept p s1 t := by
    subst ht
    refine PacketKept.trans ?_ (State.storeOrDrop_packetKept _ _)
    split
    · exact s1.phaseCheck_packetKept _
    · exact PacketKept.refl s1
  obtain ⟨hseq, hbit, htiles, hgait, htime⟩ := htaken
  exact ⟨hkept.seqRef.trans hseq, (congrArg (bitN · 6) hkept.state).trans hbit, hkept.tiles.trans htiles, hkept.gait.trans hgait,
    hkept.time.trans htime⟩

end

/-! ### The events of a port complete -/

section
variable {s : State} {p : PortId}

/-- A lit second, with the minutes and seconds that have been counted. -/
theorem exec_litTimeTick_counts (hal : s.alive = true) (hg : s.gaitN ≠ 0) (hlit : s.ports[p].litNow = true) :
    ∃ t, exec (.litTimeTick p) s = .next t ∧ t.ports[p].litNow = false ∧ PortRest s t
      ∧ (s.ports[p].litSec < 60 → s.fld (Reg.portLifeMin p) 23 0 < 0xFFFFFF →
        60 * t.fld (Reg.portLifeMin p) 23 0 + t.ports[p].litSec = 60 * s.fld (Reg.portLifeMin p) 23 0 + s.ports[p].litSec + 1) := by
  by_cases hsec : s.ports[p].litSec + 1 < 60
  · refine ⟨_, exec_litTimeTick_second hal hg hlit hsec, ?_, PortRest.of_eq rfl, fun _ _ => ?_⟩
    · rw [State.modPort_self]
    · rw [State.modPort_self, State.modPort_fld]
      dsimp only
      omega
  · obtain ⟨hnow, hleft, hmin, hrest⟩ := s.litMinute_spec p
    refine ⟨_, exec_litTimeTick_minute hal hg hlit (Nat.not_lt.1 hsec), hnow, hrest, fun hlt hroom => ?_⟩
    rw [hleft, hmin, State.litMinutes, Nat.min_eq_right (by omega)]
    omega

/-- A life write that ends, counted where it failed (R105). -/
theorem exec_lifeWriteComplete_counts (nack : Bool) (v : BitVec 24) {m : Nat} (hal : s.alive = true) (hpend : s.ports[p].lifePend = some m) :
    ∃ t, exec (.lifeWriteComplete p nack v) s = .next t ∧ t.ports[p].lifePend = none ∧ PortRest s t
      ∧ t.rd (Cnt.portCntLifewr p).reg = min 0xFFFFFFFF (s.rd (Cnt.portCntLifewr p).reg + b2n (nack || v.toNat != m)) := by
  refine ⟨_, exec_lifeWriteComplete nack v hal hpend, ?_⟩
  cases hfail : nack || v.toNat != m with
  | false =>
    rw [if_neg (by simp)]
    refine ⟨by rw [State.modPort_self], PortRest.of_eq rfl, ?_⟩
    have hlt := s.rd_lt (Cnt.portCntLifewr p).reg
    exact (Nat.min_eq_right (Nat.le_of_lt_succ hlt)).symm
  | true =>
    rw [if_pos rfl]
    refine ⟨by rw [State.count_ports, State.modPort_self], PortRest.of_eq (by rw [State.count_eq]; rfl), ?_⟩
    exact State.rd_count _ _ 1 (by simp only [Cnt.portCntLifewr, Reg.portCntLifewr, Reg.portCntOvf]; omega)

/-- A range packet of a verified head, past every check (R72, R88). -/
theorem exec_ethFrameReceive_accepted {f : List Byte} (hal : s.alive = true) (hon : s.portOn p = true) (hmin : 50 ≤ f.length)
    (hmax : f.length ≤ 1518) (het : beNat ((f.drop 12).take 2) = bitsN (s.force Reg.portEtype) 15 0)
    (htag : bitsN (s.force Reg.portEtype) 15 0 ≠ 0x8100) :
    exec (.ethFrameReceive p true f) s = .next (s.srpReceive p (f.drop 14)) := by
  have hpl : framePayload f = f.drop 14 := by rw [framePayload, if_neg (het ▸ htag)]
  have hty : frameType f = bitsN (s.force Reg.portEtype) 15 0 := by rw [frameType, if_neg (het ▸ htag), het]
  rw [exec_ethFrameReceive_sorted hal hon (by omega) hmax, if_pos hty, hpl]

end

end Sys2Proof.Machine
end

section
/-! SUPPORT. The tile scheduler's and the tiles' own events (R218, R377, R552 to R554, R586, R591), the end of a program check (R227) and
the shards' events (R331, R333): the effect of each, and the parts of the machine it leaves as they were. -/

namespace Sys2Proof.Machine

/-! ### Dispatch (R218, R229, R231) -/

/-- The machine once the scheduler has lost the items it cannot read (R659). -/
def State.dispatchRead (s : State) : State := s.frm.live.foldl (fun (s : State) e => s.loseUnreadable e.frame) s

/-- The record of an item that goes to a tile (R228). -/
def dispatched (f : Option Nat) (b : Fin 2) (p : ProgInfo) (i : Nat) (d : ItemDesc) : Work :=
  { frame := f, idx := i, buf := b, pc := bitsN d.pc 21 0, g1 := BitVec.ofNat 64 (p.itemBase + 64 * i)
    g2 := BitVec.ofNat 64 d.g2, closing := bitN d.flags 1, slot := 0 }

/-- The place of an untagged item that goes out: a kicked one leaves the kicks, else the sequence runs. -/
def State.untagSent (s : State) (kick : Option Nat) : State :=
  match kick with
  | some k => { s with sched := { s.sched with kicks := s.sched.kicks.eraseIdx k } }
  | none => { s with sched := { s.sched with untagBusy := true } }

section
variable {s s1 : State} {e : Epoch} {p : ProgInfo} {i : Nat} {t : TileId} {d : ItemDesc}

/-- An item that goes to a tile is among those the tile holds. -/
theorem State.sendItem_holds (s : State) (t : TileId) (w : Work) :
    ∃ x ∈ (s.sendItem t w).tiles[t].items, x.frame = w.frame ∧ x.idx = w.idx := by
  refine ⟨{ w with slot := s.tiles[t].freeSlot }, (State.mem_items_startItem _ t _).2 ?_, rfl, rfl⟩
  rw [State.count64_tiles, State.modTile_self]
  simp [Tile.items]

theorem exec_itemDispatch_tagged (hal : s.alive = true) (hg : 2 ≤ s.gaitN) (htr : s.gait.trans = .none)
    (hnext : s.dispatchRead.nextTagged = some (e, p, i, t, d)) (hwake : s.dispatchRead.wakeTile t = (true, s1)) :
    exec .itemDispatch s =
      .next ((s1.modEpoch e.frame (fun e => e.setItem i (.held t))).sendItem t (dispatched (some e.frame) e.buf p i d)) := by
  refine (if_neg (not_or_intro (Nat.not_lt.2 hg) (not_or_intro (not_not_intro htr) (not_not_intro hal)))).trans ?_
  unfold State.dispatchRead at hnext hwake
  dsimp only
  rw [hnext]
  dsimp only
  rw [hwake]
  rfl

theorem exec_itemDispatch_untagged {kick : Option Nat} {b : Fin 2} (hal : s.alive = true) (hg : 2 ≤ s.gaitN) (htr : s.gait.trans = .none)
    (hnone : s.dispatchRead.nextTagged = none) (hnext : s.dispatchRead.nextUntagged = some (kick, b, i, t, d, p))
    (hwake : s.dispatchRead.wakeTile t = (true, s1)) :
    exec .itemDispatch s = .next ((s1.untagSent kick).sendItem t (dispatched none b p i d)) := by
  refine (if_neg (not_or_intro (Nat.not_lt.2 hg) (not_or_intro (not_not_intro htr) (not_not_intro hal)))).trans ?_
  unfold State.dispatchRead at hnone hnext hwake
  dsimp only
  rw [hnone]
  dsimp only
  rw [hnext]
  dsimp only
  rw [hwake]
  cases kick with
  | none => rfl
  | some k => rfl

end

/-! ### Items finished, and the tile's clock (R377, R552 to R554) -/

section
variable {s : State} {t : TileId}

theorem State.untagNext_eq (s : State) (b : Fin 2) (i : Nat) : s.untagNext b i = { s with sched := (s.untagNext b i).sched } := by
  unfold State.untagNext
  split
  · split <;> rfl
  · rfl

/-- An item the scheduler counts as finished leaves its tile. -/
theorem State.finishItem_spec (s : State) (t : TileId) (w : Work) :
    (s.finishItem t w).tiles[t].ended = s.tiles[t].ended.erase w ∧ (s.finishItem t w).mem = s.mem
      ∧ ∀ u : TileId, u ≠ t → (s.finishItem t w).tiles[u] = s.tiles[u] := by
  have hsame : ∃ x : State, s.finishItem t w = x ∧ x.mem = s.mem
      ∧ x.tiles = (s.modTile t (fun tl => { tl with ended := tl.ended.erase w, idleSince := s.time })).tiles := by
    refine ⟨_, rfl, ?_⟩
    unfold State.finishItem
    dsimp only
    split
    · exact ⟨rfl, rfl⟩
    · split
      · rw [State.untagNext_eq]
        exact ⟨rfl, rfl⟩
      · exact ⟨rfl, rfl⟩
  obtain ⟨x, hx, hmem, htiles⟩ := hsame
  refine ⟨?_, hx ▸ hmem, fun u hu => ?_⟩
  · rw [hx, htiles, State.modTile_self]
  · rw [hx, htiles, State.modTile_ne s _ hu]

theorem exec_itemComplete {w : Work} (hal : s.alive = true)
    (hfind : s.tiles[t].ended.find? (fun w => !(s.tiles[t].openU.any (fun u => u.work == some w))) = some w) :
    exec (.itemComplete t) s = .next (s.finishItem t w) := by
  refine (if_neg (by simp [hal])).trans ?_
  rw [hfind]

/-- A tile that wakes is clocked, the package is in Canter, and its next item starts. -/
theorem exec_tileWakeComplete_spec (hal : s.alive = true) (hwake : s.tiles[t].waking = true) :
    ∃ s', exec (.tileWakeComplete t) s = .next s' ∧ s'.tiles[t].waking = false ∧ s'.tiles[t].clocked = true
      ∧ s'.gaitN = (if s.gaitN = 2 then 3 else s.gaitN) ∧ s'.mem = s.mem ∧ ∀ u : TileId, u ≠ t → s'.tiles[u] = s.tiles[u] := by
  refine ⟨_, (if_neg (by simp [hal])).trans (if_neg (not_not_intro hwake)), ?_⟩
  generalize hs1 : s.modTile t _ = s1
  have htile : s1.tiles[t].waking = false ∧ s1.tiles[t].clocked = true := by
    rw [← hs1, State.modTile_self]
    exact ⟨rfl, rfl⟩
  have hother : ∀ u : TileId, u ≠ t → s1.tiles[u] = s.tiles[u] := fun u hu => by rw [← hs1, State.modTile_ne s _ hu]
  have hgait1 : s1.gaitN = s.gaitN := by rw [← hs1]; rfl
  have hmem1 : s1.mem = s.mem := by rw [← hs1, State.modTile_mem]
  generalize hs2 : (if s1.gaitN = 2 then s1.setGait 3 true else s1) = s2
  have hcanter : s2.tiles = s1.tiles ∧ s2.mem = s1.mem ∧ s2.gaitN = (if s.gaitN = 2 then 3 else s.gaitN) := by
    rw [← hs2, hgait1]
    split
    · exact ⟨by rw [(s1.setGait_wakeOnly 3 true).2], by rw [(s1.setGait_wakeOnly 3 true).2], s1.gaitN_setGait (by decide) true⟩
    · exact ⟨rfl, rfl, hgait1⟩
  obtain ⟨htiles, hmem, hgait⟩ := hcanter
  obtain ⟨hkept, hrest, heq⟩ := s2.startItem_frame t
  obtain ⟨work, running, pc, ctx, g, seen, hself⟩ := s2.startItem_tile t
  rw [htiles] at hself
  refine ⟨?_, ?_, ?_, ?_, fun u hu => ?_⟩
  · rw [hself]
    exact htile.1
  · rw [hself]
    exact htile.2
  · rw [← hgait, State.gaitN, State.gaitN, State.fld, State.fld, hkept]
    simp only [List.mem_cons, List.not_mem_nil, or_false]
    unfold Reg.gaitStat Reg.tileEpoch Reg.tileItem
    omega
  · rw [heq, hmem, hmem1]
  · rw [hrest u hu, htiles, hother u hu]

/-- A tile that has been idle for its time is clock-gated. -/
theorem exec_tileClockGate_spec (hal : s.alive = true) (hclk : s.tiles[t].clocked = true) (hidle : s.tiles[t].isIdle = true)
    (hend : s.tiles[t].ended = []) (hhand : s.inHandler t = false) (hexc : s.tiles[t].exc = none) :
    ∃ s', exec (.tileClockGate t) s = .next s' ∧ s'.tiles[t].clocked = false ∧ s'.mem = s.mem
      ∧ ∀ u : TileId, u ≠ t → s'.tiles[u] = s.tiles[u] := by
  have hcond : ¬ (¬ s.tiles[t].clocked = true ∨ ¬ s.tiles[t].isIdle = true ∨ ¬ s.tiles[t].ended.isEmpty = true ∨ s.inHandler t = true
      ∨ s.tiles[t].exc.isSome = true) := by
    simp only [hclk, hidle, hend, hhand, hexc]
    simp
  refine ⟨_, (if_neg (by simp [hal])).trans (if_neg hcond), ?_⟩
  generalize hs1 : State.at_ s _ = s1
  have htiles : s1.tiles = s.tiles ∧ s1.mem = s.mem := by rw [← hs1]; exact ⟨rfl, rfl⟩
  obtain ⟨-, heq⟩ := ((s1.countCycles t).modTile t (fun tl => { tl with clocked := false })).leaveCanter_frame
  have hgated : ((s1.countCycles t).modTile t (fun tl => { tl with clocked := false })).leaveCanter.tiles
      = ((s1.countCycles t).modTile t (fun tl => { tl with clocked := false })).tiles := by rw [heq]
  refine ⟨?_, ?_, fun u hu => ?_⟩
  · rw [hgated, State.modTile_self]
  · rw [heq]
    exact htiles.2
  · rw [hgated, State.modTile_ne _ _ hu, State.countCycles_tiles, State.modTile_ne s1 _ hu, htiles.1]

theorem StaysDown.tileState {s s' : State} (h : StaysDown s s') (u : TileId) : s'.tileState u = s.tileState u :=
  congrArg (bitsN · 2 0) (h.state u)

/-- A watchdog that expires fails its tile (R586). -/
theorem exec_tileWatchdogExpiry_fails (hal : s.alive = true) (hclk : s.tiles[t].clocked = true) (hwork : s.tiles[t].hasWork = true)
    (hst : s.tileState t ≠ 4) :
    ∃ s', exec (.tileWatchdogExpiry t) s = .next s' ∧ s'.tileState t = 4 ∧ s'.tiles[t].running = none := by
  refine ⟨_, (if_neg (by simp [hal])).trans (if_neg ?_), State.failTile_down _ t 1 ?_⟩
  · exact not_or_intro (not_not_intro hclk) (not_or_intro (not_not_intro hwork) hst)
  · have hrd : ∀ x : State, (x.count (Cnt.tileCntWdog t)).rd (Reg.tileState t) = x.rd (Reg.tileState t) := fun x =>
      x.rd_count_ne _ 1 (by simp only [Cnt.tileCntWdog, Reg.tileState, Reg.tileCntWdog]; omega)
        (by simp only [Cnt.tileCntWdog, Reg.tileState, Reg.tileCntOvf]; omega)
    rwa [State.tileState, State.fld, hrd]

/-- An uncorrectable word of a tile's SRAM fails the tile (R585). -/
theorem exec_sramUncorrectableError_tile (hal : s.alive = true) (hst : s.tileState t ≠ 4) :
    ∃ s', exec (.sramUncorrectableError (.tile t)) s = .next s' ∧ s'.tileState t = 4 ∧ s'.tiles[t].running = none :=
  ⟨_, if_neg (by simp [hal]), State.failTile_down s t 0 hst⟩

/-! ### Self-test and translation (R440, R591) -/

/-- What a self-test's patterns leave of a tile (R591). -/
def State.overwritten (s : State) (t : TileId) : State :=
  let (b, s) := s.fresh (tileStoreBytes + 65536)
  let s := s.modTile t (fun tl => { tl with
    selfTest := false, store := [], storeFill := some b, voids := [], acc := [], accFill := some (b + tileStoreBytes)
    nodes := [], ladder := [], arr := tl.arr.map (fun a => { a with active := Bank.empty, shadow := Bank.empty, armed := false }) })
  (s.putB (Reg.treStat t) 3 false).putB (Reg.treStat t) 4 false

theorem State.overwritten_spec (s : State) (t : TileId) : (s.overwritten t).tiles[t].selfTest = false
    ∧ (s.overwritten t).tileState t = s.tileState t ∧ (s.overwritten t).mem = s.mem := by
  have htre : ∀ u : TileId, Reg.tileState u ≠ Reg.treStat t := fun u => by unfold Reg.tileState Reg.treStat; omega
  have hputs : ∀ x : State, ((x.putB (Reg.treStat t) 3 false).putB (Reg.treStat t) 4 false).tileState t = x.tileState t := fun x =>
    ((x.putB_staysDown 3 false htre).trans (State.putB_staysDown _ 4 false htre)).tileState t
  unfold State.overwritten
  dsimp only
  refine ⟨?_, hputs _, rfl⟩
  rw [State.putB_tiles, State.putB_tiles, State.modTile_self]

theorem exec_tileSelfTestEnd (ok : Bool) (hal : s.alive = true) (htest : s.tiles[t].selfTest = true) :
    exec (.tileSelfTestEnd t ok) s = .next (if ok
      then (((s.overwritten t).setTileState t 1).putB Reg.evtQuarStat t.val false).logEvent 0x22 t.val 0 0
      else (s.overwritten t).logEvent 0x22 t.val 0 1) := by
  refine (if_neg (by simp [hal])).trans ((if_neg (not_not_intro htest)).trans ?_)
  cases ok with
  | false => rfl
  | true => rfl

/-- The self-test's end: a tile that passes is in service. -/
theorem exec_tileSelfTestEnd_spec (hal : s.alive = true) (htest : s.tiles[t].selfTest = true) (ok : Bool) :
    ∃ s', exec (.tileSelfTestEnd t ok) s = .next s' ∧ s'.tiles[t].selfTest = false
      ∧ s'.tileState t = (if ok then 1 else s.tileState t) ∧ s'.mem = s.mem := by
  have hquar : ∀ u : TileId, Reg.tileState u ≠ Reg.evtQuarStat := fun u => by unfold Reg.tileState Reg.evtQuarStat; omega
  obtain ⟨hself, hstate, hmem⟩ := s.overwritten_spec t
  obtain ⟨-, -, ⟨m, hmgmt⟩, heq⟩ := (s.overwritten t).setTileState_frame t 1
  refine ⟨_, exec_tileSelfTestEnd ok hal htest, ?_⟩
  cases ok with
  | false =>
    rw [if_neg (by decide), if_neg (by decide)]
    refine ⟨?_, ((State.logEvent_staysDown _ _ _ _ _).tileState t).trans hstate, ?_⟩
    · rw [State.logEvent_eq]
      exact hself
    · rw [State.logEvent_eq]
      exact hmem
  | true =>
    rw [if_pos rfl, if_pos rfl]
    refine ⟨?_, ?_, ?_⟩
    · rw [State.logEvent_eq]
      exact (congrArg Tile.selfTest hmgmt).trans hself
    · rw [(State.logEvent_staysDown _ _ _ _ _).tileState, (State.putB_staysDown _ _ _ hquar).tileState]
      exact State.tileState_setTileState _ t (by decide)
    · rw [State.logEvent_eq]
      exact (congrArg State.mem heq).trans hmem

/-- A TLB invalidation is done once nothing is in flight (R440). -/
theorem exec_tlbInvPendClear_done (hal : s.alive = true) (hidle : s.tiles[t].inFlight = false) :
    ∃ s', exec (.tlbInvPendClear t) s = .next s' ∧ s'.bit (Reg.tileTlbStat t) 0 = false ∧ RegsKept s s' [Reg.tileTlbStat t]
      ∧ s' = { s with regs := s'.regs } :=
  ⟨_, (if_neg (by simp [hal])).trans (if_neg (Bool.eq_false_iff.1 hidle)), by rw [State.bit_putB s false (by decide), if_pos rfl],
    s.putB_kept _ 0 false, rfl⟩

end

/-! ### Program checks (R227) -/

/-- A check reads and counts; it changes nothing else. -/
theorem State.checkProgram_engineOnly (s : State) (b : Nat) : EngineOnly s (s.checkProgram b).2.2 := by
  unfold State.checkProgram
  dsimp only
  have hread := s.engRead_engineOnly (s.isUnset (Reg.tileSchedProg b) 2) (s.rd64 (Reg.tileSchedProg b) / 64 * 64) 128 none
  split
  · next x hx => rwa [hx] at hread
  · next d x hx =>
    rw [hx] at hread
    have hcount := fun l => hread.trans (State.countReads_engineOnly x l none)
    split_ifs
    · exact hread
    · exact hread
    · exact hcount _
    · exact hcount _
    · exact hcount _
    · exact hread
    · exact hread

/-- What a check that failed at `step`, 0 for a pass, leaves of buffer `k`. -/
def State.checkEnds (s : State) (k : Fin 2) (step : Nat) (info : Option ProgInfo) : State :=
  let s := { s with sched := { s.sched with
    checking := s.sched.checking.set k false, progs := s.sched.progs.set k (if decide (step = 0) then info else none) } }
  let s := (s.putB Reg.tileSchedStat (2 + k.val) (decide (step = 0))).putF Reg.tileSchedStat 10 8 step
  s.putB Reg.tileSchedStat 5 (s.sched.checking[(0 : Fin 2)] || s.sched.checking[(1 : Fin 2)])

theorem exec_programCheckEnd {s : State} (b : Bool) (hal : s.alive = true)
    (hchk : s.sched.checking[(if b then 1 else 0 : Fin 2)] = true) :
    exec (.programCheckEnd b) s = .next ((s.checkProgram (if b then 1 else 0 : Fin 2).val).2.2.checkEnds (if b then 1 else 0)
      (s.checkProgram (if b then 1 else 0 : Fin 2).val).1 (s.checkProgram (if b then 1 else 0 : Fin 2).val).2.1) :=
  (if_neg (by simp [hal])).trans (if_neg (not_not_intro hchk))

/-- The buffer is checked no more, its valid bit says whether the check passed, and a check of the other buffer still shows. -/
theorem State.checkEnds_spec (s : State) (k : Fin 2) (step : Nat) (info : Option ProgInfo) :
    (s.checkEnds k step info).sched.checking[k] = false
      ∧ (s.checkEnds k step info).bit Reg.tileSchedStat 5 = s.sched.checking[1 - k]
      ∧ (s.checkEnds k step info).fld Reg.tileSchedStat 10 8 = step % 8
      ∧ (s.checkEnds k step info).bit Reg.tileSchedStat (2 + k.val) = decide (step = 0) := by
  have hk := k.isLt
  have hother : ((s.sched.checking.set k false)[(0 : Fin 2)] || (s.sched.checking.set k false)[(1 : Fin 2)]) = s.sched.checking[1 - k] := by
    rcases (by omega : k = 0 ∨ k = 1) with rfl | rfl <;> simp
  unfold State.checkEnds
  dsimp only
  refine ⟨?_, ?_, ?_, ?_⟩
  · simp
  · rw [State.bit_putB _ _ (by decide), if_pos rfl]
    exact hother
  · rw [State.putB, State.fld, State.rd_putF_self _ (by decide) (by decide), bitsN_putBits_ne (by decide) (.inl (by decide))]
    exact State.fld_putF_self _ (by decide) (by decide)
  · rw [State.bit_putB _ _ (by decide), if_neg (by omega), State.bit_putF _ (by decide) (by decide), if_neg (by omega),
      State.bit_putB _ _ (by omega), if_pos rfl]

/-! ### Shards (R331, R333) -/

section
variable (s : State)

/-- The window of one shard ends: its load count restarts. -/
theorem State.shardWindow_eq (k h : Nat) : s.shardWindow k h = { s with regs := (s.shardWindow k h).regs } := rfl

theorem State.rd_shardWindow {k h : Nat} (hh : h < 64) {k' h' : Nat} (hh' : h' < 64) :
    (s.shardWindow k h).rd (Reg.hrdShdLoad k' h') = if k' = k ∧ h' = h then s.fld (Reg.hrdShdLoad k h) 31 16 else s.rd (Reg.hrdShdLoad k' h') := by
  have hne : Reg.hrdShdLoad k' h' ≠ Reg.hrdShdState k h := by unfold Reg.hrdShdLoad Reg.hrdShdState; omega
  have hlt : s.fld (Reg.hrdShdLoad k h) 31 16 < 2 ^ 16 := bitsN_lt _ 31 16
  have hinj : Reg.hrdShdLoad k' h' = Reg.hrdShdLoad k h ↔ k' = k ∧ h' = h := by unfold Reg.hrdShdLoad; omega
  unfold State.shardWindow
  rw [State.rd_putB_ne _ _ _ hne, State.rd_put, Nat.mod_eq_of_lt (by omega)]
  simp only [hinj]

theorem State.rd_shardWindow_num (k h : Nat) : (s.shardWindow k h).rd Reg.hrdWinNum = s.rd Reg.hrdWinNum := by
  have h1 : Reg.hrdWinNum ≠ Reg.hrdShdState k h := by unfold Reg.hrdWinNum Reg.hrdShdState; omega
  have h2 : Reg.hrdWinNum ≠ Reg.hrdShdLoad k h := by unfold Reg.hrdWinNum Reg.hrdShdLoad; omega
  unfold State.shardWindow
  rw [State.rd_putB_ne _ _ _ h1, State.rd_put_ne _ _ h2]

/-- The windows of the first `n` shards, of the 1,024 of all tables, end. -/
def State.shardWindows (n : Nat) : State := (List.range n).foldl (fun (s : State) i => s.shardWindow (i / 64) (i % 64)) s

theorem State.shardWindows_succ (n : Nat) : s.shardWindows (n + 1) = (s.shardWindows n).shardWindow (n / 64) (n % 64) := by
  simp [State.shardWindows, List.range_succ]

theorem State.shardWindows_eq (n : Nat) : s.shardWindows n = { s with regs := (s.shardWindows n).regs } := by
  induction n with
  | zero => rfl
  | succ n ih =>
    rw [State.shardWindows_succ, State.shardWindow_eq, ih]

theorem State.rd_shardWindows {n : Nat} (hn : n ≤ 1024) :
    (s.shardWindows n).rd Reg.hrdWinNum = s.rd Reg.hrdWinNum
      ∧ ∀ k < 16, ∀ h < 64, (s.shardWindows n).rd (Reg.hrdShdLoad k h)
        = if 64 * k + h < n then s.fld (Reg.hrdShdLoad k h) 31 16 else s.rd (Reg.hrdShdLoad k h) := by
  induction n with
  | zero => exact ⟨rfl, fun k _ h _ => rfl⟩
  | succ n ih =>
    obtain ⟨hnum, hload⟩ := ih (by omega)
    rw [State.shardWindows_succ]
    refine ⟨(State.rd_shardWindow_num _ _ _).trans hnum, fun k hk h hh => ?_⟩
    rw [State.rd_shardWindow _ (by omega) hh]
    by_cases hlast : k = n / 64 ∧ h = n % 64
    · obtain ⟨rfl, rfl⟩ := hlast
      rw [if_pos ⟨rfl, rfl⟩, State.fld, hload _ hk _ hh, if_neg (by omega), if_pos (by omega)]
      rfl
    · rw [if_neg hlast, hload k hk h hh]
      exact if_congr (by omega) rfl rfl

/-- The window of shard loads ends on the time base, for every shard. -/
theorem exec_shardLoadWindow_spec {s : State} (hal : s.alive = true) :
    ∃ s', exec .shardLoadWindow s = .next s' ∧ s'.rd Reg.hrdWinNum = (s.rd Reg.hrdWinNum + 1) % 2 ^ 32 ∧ s'.tiles = s.tiles ∧ s'.mem = s.mem
      ∧ s'.time = max s.time ((s.rd Reg.hrdWinNum + 1) * 1000000000)
      ∧ ∀ (k : Fin 16) (h : Fin 64), s'.rd (Reg.hrdShdLoad k h) = s.fld (Reg.hrdShdLoad k h) 31 16 := by
  have hexec : exec .shardLoadWindow s = .next (((s.at_ ((s.rd Reg.hrdWinNum + 1) * 1000000000)).shardWindows 1024).put Reg.hrdWinNum
      (((s.at_ ((s.rd Reg.hrdWinNum + 1) * 1000000000)).shardWindows 1024).rd Reg.hrdWinNum + 1)) := if_neg (by simp [hal])
  generalize hs1 : s.at_ ((s.rd Reg.hrdWinNum + 1) * 1000000000) = s1 at hexec
  have hrd : ∀ o, s1.rd o = s.rd o := fun o => by rw [← hs1]; rfl
  have heq := s1.shardWindows_eq 1024
  obtain ⟨hnum, hload⟩ := s1.rd_shardWindows (le_refl 1024)
  refine ⟨_, hexec, ?_, ?_, ?_, ?_, fun k h => ?_⟩
  · rw [State.rd_put_self, hnum, hrd]
  · rw [State.put_tiles, heq, ← hs1]
    rfl
  · rw [State.put_mem, heq, ← hs1]
    rfl
  · rw [State.put_time, heq, ← hs1]
    rfl
  · have hne : Reg.hrdShdLoad k h ≠ Reg.hrdWinNum := by unfold Reg.hrdShdLoad Reg.hrdWinNum; omega
    rw [State.rd_put_ne _ _ hne, hload k k.isLt h h.isLt, if_pos (by omega), State.fld, State.fld, hrd]

/-- The shard's record after a change of it. -/
theorem State.shardAt_modShard (k h : Nat) (f : ShardSt → ShardSt) : (s.modShard k h f).shardAt k h = f (s.shardAt k h) := by
  simp [State.shardAt, State.modShard]

/-- Bits [1:0] of a shard's state read as they are set; its record keeps all but the mark on a waiting request. -/
theorem State.setShard_spec (k h : Nat) {v : Nat} (hv : v < 4) :
    (s.setShard k h v).fld (Reg.hrdShdState k h) 1 0 = v ∧ ((s.setShard k h v).shardAt k h).switching = (s.shardAt k h).switching
      ∧ s.setShard k h v = { s with regs := (s.setShard k h v).regs, shards := (s.setShard k h v).shards } := by
  unfold State.setShard
  dsimp only
  split
  · next hsame => exact ⟨hsame, rfl, rfl⟩
  · refine ⟨?_, ?_, rfl⟩
    · have hlt : ∀ g, putBits (putBits (s.rd (Reg.hrdShdState k h)) 1 0 v) 31 16 g < 2 ^ 32 := fun g =>
        putBits_lt (by decide) (putBits_lt (by decide) (s.rd_lt _) (by decide)) (by decide)
      change bitsN ((s.put (Reg.hrdShdState k h) _).rd (Reg.hrdShdState k h)) 1 0 = v
      rw [State.rd_put_self, Nat.mod_eq_of_lt (hlt _), bitsN_putBits_ne (by decide) (.inr (by decide)), bitsN_putBits_self (by decide)]
      exact Nat.mod_eq_of_lt hv
    · rw [State.shardAt_modShard]
      rfl

/-- The version of a table moves on: its word and what the hitch is to send change. -/
theorem State.bumpVersion_frame (k : Nat) : RegsKept s (s.bumpVersion k) [Reg.hrdTblVer k]
    ∧ s.bumpVersion k = { s with regs := (s.bumpVersion k).regs, hitch := (s.bumpVersion k).hitch } :=
  ⟨s.putF_kept _ _ _ _, rfl⟩

/-- A switched shard is applied once nothing is out to its old homes (R333). -/
theorem exec_shardSwitchApplied_spec {s : State} {k : Fin 16} {h : Fin 64} (hal : s.alive = true) (hsw : (s.shardAt k h).switching = true)
    (hout : ∀ u : TileId, s.tiles[u].asksHome k (s.shardAt k h).old = false) :
    ∃ s', exec (.shardSwitchApplied k h) s = .next s' ∧ (s'.shardAt k h).switching = false ∧ s'.bit (Reg.hrdShdState k h) 1 = true
      ∧ s'.tiles = s.tiles ∧ s'.mem = s.mem ∧ s'.frm = s.frm := by
  have hnone : s.tiles.toList.any (fun tl => tl.asksHome k (s.shardAt k h).old) = false := by
    rw [List.any_eq_false]
    intro tl htl
    obtain ⟨i, hi, rfl⟩ := Vector.mem_iff_getElem.1 (Vector.mem_toList_iff.1 htl)
    simpa using hout ⟨i, hi⟩
  refine ⟨_, (if_neg (by simp [hal])).trans (if_neg (by simp [hsw, hnone])), ?_⟩
  generalize hs1 : s.modShard k h _ = s1
  have hrec : s1.shardAt k h = { s.shardAt k h with switching := false, old := [] } := by rw [← hs1, State.shardAt_modShard]
  have hbit : s1.fld (Reg.hrdShdState k h) 0 0 < 2 := bitsN_lt _ 0 0
  obtain ⟨hfld, hswitch, heq⟩ := s1.setShard_spec k h (v := s1.fld (Reg.hrdShdState k h) 0 0 + 2) (by omega)
  obtain ⟨hkept, heq'⟩ := (s1.setShard k h (s1.fld (Reg.hrdShdState k h) 0 0 + 2)).bumpVersion_frame k
  have hne : Reg.hrdShdState k h ∉ [Reg.hrdTblVer k] := by
    simp only [List.mem_singleton]
    unfold Reg.hrdShdState Reg.hrdTblVer
    omega
  have hrest : s1.tiles = s.tiles ∧ s1.mem = s.mem ∧ s1.frm = s.frm := by rw [← hs1]; exact ⟨rfl, rfl, rfl⟩
  refine ⟨?_, ?_, ?_, ?_, ?_⟩
  · rw [heq']
    exact hswitch.trans (by rw [hrec])
  · have htop : bitN (bitsN ((s1.setShard k h (s1.fld (Reg.hrdShdState k h) 0 0 + 2)).rd (Reg.hrdShdState k h)) 1 0) 1 = true := by
      rw [show bitsN _ 1 0 = _ from hfld]
      rcases (by omega : s1.fld (Reg.hrdShdState k h) 0 0 = 0 ∨ s1.fld (Reg.hrdShdState k h) 0 0 = 1) with hz | hz <;> rw [hz] <;> rfl
    rw [bitN_bitsN] at htop
    rw [State.bit, hkept _ hne]
    simpa using htop
  · rw [heq', heq, hrest.1]
  · rw [heq', heq, hrest.2.1]
  · rw [heq', heq, hrest.2.2]

end

end Sys2Proof.Machine
end

section
/-! SUPPORT. The die stack's events: an error of a flit and the end of an access it lost (R474, R475), a window without errors (R476), the
field wire test (R485), a die that comes up or is absent (R470 to R472), and the test access instructions (R479 to R482). -/

namespace Sys2Proof.Machine

/-! ### Parity (R474 to R476) -/

/-- A parity error counted and attributed to its tile. -/
def State.flitError (s : State) (d : DieId) (p : Fin 8) (t : TileId) : State :=
  let s := s.count (Cnt.tileBondCntPar d p)
  { s with stack := { s.stack with winErrs := (d.val, p.val, t.val) :: s.stack.winErrs } }

section
variable {s : State} {d : DieId} {p : Fin 8} {t : TileId} {de ce : Bool} {tag : Option (BitVec 8)}

/-- A flit with an error, at a port in service, outside a rein-back. -/
theorem exec_bondFlitReceive (hal : s.alive = true) (hdie : s.bit (Reg.tileDieStat d) 0 = true)
    (hport : s.bit (Reg.tileBondPstat d p) 0 = true) (herr : de = true ∨ ce = true) (ht : t.val / 16 = d.val)
    (hrein : (s.flitError d p t).tagReined (tag.map (·.toNat)) = false) :
    exec (.bondFlitReceive d p t de ce tag) s = match (s.flitError d p t).bondFind t p (tag.map (·.toNat)) with
      | none => .next (s.flitError d p t)
      | some h => .next (if ce then (s.flitError d p t).bondLose t h
          else ((s.flitError d p t).degradeTag (tag.map (·.toNat))).bondPoison t h) := by
  refine (if_neg (by simp [hal])).trans ((if_neg ?_).trans ((if_neg (Bool.eq_false_iff.1 hrein)).trans rfl))
  have hany : (de || ce) = true := by simpa using herr
  exact not_or_intro (not_not_intro hdie) (not_or_intro (not_not_intro hport) (not_or_intro (by simp [hany]) (not_not_intro ht)))

/-- A tile's load whose flit was discarded waits for its end. -/
theorem State.bondLose_load_spec (s : State) (t : TileId) (q : LoadReq) :
    s.bondLose t (.load q) = { s with tiles := (s.bondLose t (.load q)).tiles }
      ∧ (∀ u : TileId, u ≠ t → (s.bondLose t (.load q)).tiles[u] = s.tiles[u])
      ∧ (s.bondLose t (.load q)).tiles[t]
        = { s.tiles[t] with loads := s.tiles[t].loads.map (fun x => if x = q then { x with lost := some s.time } else x) } :=
  ⟨rfl, fun _ hu => State.modTile_ne s _ hu, State.modTile_self s t _⟩

/-- The tiles of a die stand in the order of their logical IDs. -/
theorem dieTileIds_sorted (d : Nat) : (dieTileIds d).Pairwise (· < ·) :=
  (List.pairwise_lt_finRange 32).filter _

/-- The first tile of a die that answers, where none before it does. -/
theorem findSome_dieTileIds {α : Type} {f : TileId → Option α} {a : α} (ht : t.val / 16 = d.val) (hf : f t = some a)
    (hbefore : ∀ x : TileId, x < t → x.val / 16 = d.val → f x = none) : (dieTileIds d).findSome? f = some a := by
  have hmem : t ∈ dieTileIds d := by simp [dieTileIds, ht]
  obtain ⟨l, r, hl⟩ := List.append_of_mem hmem
  have hsorted := dieTileIds_sorted d
  rw [hl, List.pairwise_append] at hsorted
  refine List.findSome?_eq_some_iff.2 ⟨l, t, r, hl, hf, fun x hx => hbefore x (hsorted.2.2 x hx t List.mem_cons_self) ?_⟩
  have hx' : x ∈ dieTileIds d := hl ▸ List.mem_append_left _ hx
  simpa [dieTileIds] using hx'

/-- The oldest lost access of a die is the one a timeout ends. -/
theorem exec_bondTimeout_load {q : LoadReq} {at0 : Nat} (hal : s.alive = true) (ht : t.val / 16 = d.val)
    (hlost : s.tiles[t].lostAccess (tag.map (·.toNat)) = some (.load q, at0))
    (hbefore : ∀ x : TileId, x < t → x.val / 16 = d.val → s.tiles[x].lostAccess (tag.map (·.toNat)) = none) :
    exec (.bondTimeout d tag) s =
      .next ((((s.at_ (at0 + 2000)).count (Cnt.tileBondCntTmo d)).degradeTag (tag.map (·.toNat))).bondPoison t (.load q)) := by
  have hfind : (dieTileIds d).findSome? (fun t => (s.tiles[t].lostAccess (tag.map (·.toNat))).map (fun x => (t, x.1, x.2)))
      = some (t, .load q, at0) :=
    findSome_dieTileIds ht (by rw [hlost]; rfl) fun x hx hd => by rw [hbefore x hx hd]; rfl
  refine (if_neg (by simp [hal])).trans ?_
  dsimp only
  rw [hfind]

/-- An access found lost under a tag has that tag. -/
theorem Tile.tag_of_lostAccess {tl : Tile} {g : Option Nat} {q : LoadReq} {at0 : Nat} (h : tl.lostAccess g = some (.load q, at0)) :
    q.tag = g := by
  unfold Tile.lostAccess at h
  split at h
  · next x hx =>
    obtain ⟨r, -, hr⟩ := List.exists_of_findSome?_eq_some hx
    split at hr
    · next htag =>
      obtain ⟨y, -, hy⟩ := Option.map_eq_some_iff.1 hr
      have hload : BondHit.load r = .load q := (Prod.mk.inj (hy.trans (Option.some.inj h))).1
      exact BondHit.load.inj hload ▸ htag
    · cases hr
  · obtain ⟨r, -, hr⟩ := List.exists_of_findSome?_eq_some h
    split at hr
    · obtain ⟨y, -, hy⟩ := Option.map_eq_some_iff.1 hr
      exact absurd (Prod.mk.inj hy).1 nofun
    · cases hr

/-- An untagged load of the control core that ends as poisoned gives its register zeros, with the bytes forwarded at issue in place. -/
theorem State.bondPoison_untagged_load (s : State) (t : TileId) {q : LoadReq} (htag : q.tag = none) (hvec : q.vec = none) :
    s.bondPoison t (.load q) = s.modTile t (fun tl =>
      { tl with loads := tl.loads.erase q }.setG q.dst (BitVec.ofNat 64 (leNat (mergeFwd (List.replicate q.len 0) q.fwd)))) := by
  simp only [State.bondPoison, State.loadLand, htag, hvec, State.degradeTag, State.respOk, if_true, State.modTile_modTile]

/-- A window in which no flit had an error tests nothing. -/
theorem exec_bondErrorWindow_quiet (hal : s.alive = true) (hnone : s.stack.winErrs = []) :
    exec .bondErrorWindow s = .next { s with
      time := max s.time ((s.stack.windows + 1) * 1000000000), stack := { s.stack with windows := s.stack.windows + 1 } } := by
  have hthr : ∀ n, ¬ max 1 n ≤ 0 := fun n => by omega
  refine (if_neg (by simp [hal])).trans ?_
  simp [State.portErrs, State.at_, hnone, hthr]

end

/-! ### The field wire test (R485) -/

/-- Registers, the stack's own record and the log alone change. -/
def StackOnly (s t : State) : Prop := t = { s with regs := t.regs, stack := t.stack, log := t.log }

theorem StackOnly.trans {s t u : State} (h : StackOnly s t) (h' : StackOnly t u) : StackOnly s u := by
  unfold StackOnly at *
  rw [h', h]

theorem StackOnly.of_eq {s t : State} (h : StackOnly s t) (rg : List (Nat × W32)) (sk : StackSt) (lg : LogSt) :
    StackOnly s { t with regs := rg, stack := sk, log := lg } := by
  unfold StackOnly at *
  rw [h]

theorem LogOnly.stackOnly {s t : State} (h : LogOnly s t) : StackOnly s t := by
  unfold StackOnly
  rw [h.2]

theorem exec_bondTestDone_spec {s : State} (fail : BitVec 16) (gs : List (BitVec 7)) (hal : s.alive = true) (htest : s.stack.testing ≠ 0) :
    ∃ s', exec (.bondTestDone fail gs) s = .next s' ∧ s'.stack.testing = 0 ∧ s'.bit Reg.tileBondTest 2 = false
      ∧ s'.bit Reg.tileBondTest 3 = true ∧ s'.tiles = s.tiles ∧ s'.mem = s.mem := by
  refine ⟨_, (if_neg (by simp [hal])).trans (if_neg htest), ?_⟩
  generalize hs1 : List.foldl _ s _ = s1
  have hports : StackOnly s s1 := hs1 ▸ List.foldlRecOn _ _ rfl fun x hx y _ =>
    ((hx.of_eq _ x.stack x.log).trans (State.logEvent_logOnly _ _ _ _ _).stackOnly).of_eq _ _ _
  refine ⟨rfl, ?_, ?_, ?_, ?_⟩
  · rw [State.bit_putB _ _ (by decide), if_neg (by decide), State.bit_putB _ _ (by decide), if_pos rfl]
  · rw [State.bit_putB _ _ (by decide), if_pos rfl]
  · exact (congrArg State.tiles hports).trans rfl
  · exact (congrArg State.mem hports).trans rfl

/-! ### Bring-up (R470 to R472) -/

/-- TILE_DIE_STAT of both dies, memory and the stack's own record as they were. -/
structure DieKept (s t : State) : Prop where
  stat : ∀ d : DieId, t.rd (Reg.tileDieStat d) = s.rd (Reg.tileDieStat d)
  mem : t.mem = s.mem
  stack : t.stack = s.stack

theorem DieKept.refl (s : State) : DieKept s s := ⟨fun _ => rfl, rfl, rfl⟩

theorem DieKept.trans {s t u : State} (h : DieKept s t) (h' : DieKept t u) : DieKept s u :=
  ⟨fun d => (h'.stat d).trans (h.stat d), h'.mem.trans h.mem, h'.stack.trans h.stack⟩

theorem DieKept.foldl {α : Type} (l : List α) (f : State → α → State) (s : State)
    (h : ∀ (t : State), ∀ x ∈ l, DieKept t (f t x)) : DieKept s (l.foldl f s) :=
  List.foldlRecOn l f (DieKept.refl s) fun t ht x hx => ht.trans (h t x hx)

theorem DieKept.bit {s t : State} (h : DieKept s t) (d : DieId) (i : Nat) : t.bit (Reg.tileDieStat d) i = s.bit (Reg.tileDieStat d) i :=
  congrArg (bitN · i) (h.stat d)

theorem LogOnly.dieKept {s t : State} (h : LogOnly s t) : DieKept s t :=
  ⟨fun d => h.1 _ (.inr (by unfold Reg.tileDieStat; omega)), by rw [h.2], by rw [h.2]⟩

section
variable (s : State)

theorem State.putB_dieKept {o : Nat} (i : Nat) (b : Bool) (ho : ∀ d : DieId, Reg.tileDieStat d ≠ o) : DieKept s (s.putB o i b) :=
  ⟨fun d => State.rd_putB_ne s i b (ho d), rfl, rfl⟩

theorem State.putB_pstat_dieKept (d : DieId) {p : Nat} (hp : p < 8) (i : Nat) (b : Bool) :
    DieKept s (s.putB (Reg.tileBondPstat d p) i b) :=
  s.putB_dieKept i b fun x => by unfold Reg.tileDieStat Reg.tileBondPstat; omega

theorem State.putB_oos_dieKept (i : Nat) (b : Bool) : DieKept s (s.putB Reg.evtOosStat i b) :=
  s.putB_dieKept i b fun x => by unfold Reg.tileDieStat Reg.evtOosStat; omega

theorem State.setTileState_dieKept (t : TileId) (v : Nat) : DieKept s (s.setTileState t v) := by
  obtain ⟨hkept, -, -, heq⟩ := s.setTileState_frame t v
  refine ⟨fun d => hkept _ ?_, by rw [heq], by rw [heq]⟩
  simp only [List.mem_singleton]
  unfold Reg.tileDieStat Reg.tileState
  omega

/-- The low half of TILE_DIE_STAT reads as it is set. -/
theorem State.bit_setDieStat (d v : Nat) {i : Nat} (hi : i < 16) : (s.setDieStat d v).bit (Reg.tileDieStat d) i = bitN v i := by
  have hlow : ∀ g, bitN ((v % 2 ^ 16 + 2 ^ 16 * (g % 2 ^ 16)) % 2 ^ 32) i = bitN v i := fun g => by
    have hmod : (v % 2 ^ 16 + 2 ^ 16 * (g % 2 ^ 16)) % 2 ^ 32 % 2 ^ 16 = v % 2 ^ 16 := by omega
    have hbit := bitN_mod ((v % 2 ^ 16 + 2 ^ 16 * (g % 2 ^ 16)) % 2 ^ 32) 16 i
    rw [hmod, bitN_mod, decide_eq_true hi, Bool.true_and, Bool.true_and] at hbit
    exact hbit.symm
  rw [State.bit, State.setDieStat, State.rd_put_self]
  exact hlow _

/-- In Trot with no transition a wake is over. -/
theorem State.runWake_of_trot (hg : 2 ≤ s.gaitN) : s.runWake = { s with gait := s.runWake.gait } := by
  unfold State.runWake
  split
  · rw [if_neg (by omega), if_neg (by omega)]
    rfl
  · rfl

/-- The entry to Trot once both dies are settled leaves all but the gait. -/
theorem State.bringUpEnd_frame : RegsKept s s.bringUpEnd [Reg.gaitWakeSrc, Reg.gaitStat]
    ∧ s.bringUpEnd = { s with regs := s.bringUpEnd.regs, gait := s.bringUpEnd.gait } := by
  unfold State.bringUpEnd
  split
  · exact ⟨RegsKept.refl s _, rfl⟩
  · generalize hs1 : (s.setGait 2 s.gait.ownMove).setTrans .none false = s1
    have hwake : WakeOnly s s1 := hs1 ▸ (s.setGait_wakeOnly 2 _).trans (State.setTrans_wakeOnly _ _ _)
    have hstack : s1.stack = s.stack := by
      rw [← hs1]
      unfold State.setGait
      split
      · rfl
      · dsimp only
        split <;> rfl
    have htrot : 2 ≤ s1.gaitN := by rw [← hs1, State.gaitN_setTrans, State.gaitN_setGait s (by decide)]
    refine ⟨(hwake.trans s1.runWake_wakeOnly).1, ?_⟩
    rw [s1.runWake_of_trot htrot, hwake.2, hstack]

theorem State.bringUpEnd_bit (d : DieId) (i : Nat) : s.bringUpEnd.bit (Reg.tileDieStat d) i = s.bit (Reg.tileDieStat d) i := by
  refine congrArg (bitN · i) (s.bringUpEnd_frame.1 _ ?_)
  simp only [List.mem_cons, List.not_mem_nil, or_false]
  unfold Reg.tileDieStat Reg.gaitWakeSrc Reg.gaitStat
  omega

/-- A die settled: how bring-up left it, and what that leaves of its status and of memory. -/
theorem State.settleDie_spec (d : DieId) (n : Nat) : let t := ({ s with stack := { s.stack with bring := s.stack.bring.set d n } } : State).bringUpEnd
    (∀ i, t.bit (Reg.tileDieStat d) i = s.bit (Reg.tileDieStat d) i) ∧ t.stack.bring[d] = n ∧ t.mem = s.mem := by
  intro t
  have heq := (({ s with stack := { s.stack with bring := s.stack.bring.set d n } } : State).bringUpEnd_frame).2
  refine ⟨fun i => State.bringUpEnd_bit _ d i, ?_, ?_⟩
  · rw [show t = _ from heq]
    simp
  · rw [show t = _ from heq]

end

/-- A sum of powers of the ports that pass is not 0 where one passes. -/
theorem portMask_pos {ok : Nat → Bool} (l : List Nat) (m : Nat) (h : 0 < m ∨ ∃ p ∈ l, ok p = true) :
    0 < l.foldl (fun m p => if ok p then m + 2 ^ p else m) m := by
  induction l generalizing m with
  | nil => simpa using h
  | cons p l ih =>
    rw [List.foldl_cons]
    apply ih
    rcases h with hm | ⟨q, hq, hok⟩
    · left
      split
      · exact Nat.add_pos_left hm _
      · exact hm
    · rcases List.mem_cons.1 hq with rfl | hq
      · left
        rw [if_pos hok]
        exact Nat.add_pos_right m (Nat.two_pow_pos q)
      · exact .inr ⟨q, hq, hok⟩

section
variable {s : State} {d : DieId}

/-- A die that comes up with a port in service is present. -/
theorem exec_computeDieBringUp_spec (m : BitVec 8) (hal : s.alive = true) (htr : s.gait.trans = .walkToTrot) (hpend : s.stack.bring[d] = 0)
    (hport : ∃ p : Fin 8, bitN m.toNat p = true ∧ s.bit (Reg.tileBondPstat d p) 2 = false ∧ s.bit (Reg.tileBondPstat d p) 3 = false) :
    ∃ s', exec (.computeDieBringUp d m) s = .next s' ∧ s'.bit (Reg.tileDieStat d) 0 = true ∧ s'.stack.bring[d] = 1 ∧ s'.mem = s.mem := by
  obtain ⟨p, hp, hpar, htest⟩ := hport
  unfold State.bit at hpar htest
  have hmask := portMask_pos (ok := fun p => bitN m.toNat p && !(bitN (s.rd (Reg.tileBondPstat d p)) 2) && !(bitN (s.rd (Reg.tileBondPstat d p)) 3))
    (List.range 8) 0 (.inr ⟨p, List.mem_range.2 p.isLt, by simp [hp, hpar, htest]⟩)
  refine ⟨_, (if_neg (by simp [hal])).trans (if_neg (not_or_intro (not_not_intro htr) (not_or_intro (not_not_intro hpend) hmask.ne'))), ?_⟩
  generalize hmaskEq : List.foldl _ 0 (List.range 8) = mask
  generalize hs1 : List.foldl _ (List.foldl _ (s.setDieStat d _) _) _ = s1
  have hset : (s.setDieStat d (1 + 4 + 2 ^ 8 * mask)).bit (Reg.tileDieStat d) 0 = true := by
    rw [State.bit_setDieStat s d _ (by decide), bitN]
    simp only [Nat.shiftRight_zero, beq_iff_eq]
    omega
  have hkept : DieKept (s.setDieStat d (1 + 4 + 2 ^ 8 * mask)) s1 := by
    subst hs1
    refine DieKept.trans (DieKept.foldl _ _ _ fun x p hp => ?_) (DieKept.foldl _ _ _ fun x t _ => ?_)
    · have hbits := (x.putB_pstat_dieKept d (List.mem_range.1 hp) 0
        (bitN m.toNat p && !(bitN (s.rd (Reg.tileBondPstat d p)) 2) && !(bitN (s.rd (Reg.tileBondPstat d p)) 3))).trans
        (State.putB_pstat_dieKept _ d (List.mem_range.1 hp) 1 (bitN m.toNat p))
      dsimp only
      split
      · exact hbits
      · exact hbits.trans (State.logEvent_logOnly _ _ _ _ _).dieKept
    · split
      · exact (x.setTileState_dieKept t 1).trans (State.putB_oos_dieKept _ _ _)
      · exact DieKept.refl x
  obtain ⟨hbit, hbring, hmem⟩ := s1.settleDie_spec d 1
  exact ⟨(hbit 0).trans ((hkept.bit d 0).trans hset), hbring, hmem.trans hkept.mem⟩

/-- The status of a die declared absent. -/
theorem State.declareAbsent_spec (s : State) (d : DieId) (cause : Nat) :
    (s.declareAbsent d cause).bit (Reg.tileDieStat d) 0 = false ∧ (s.declareAbsent d cause).bit (Reg.tileDieStat d) 1 = true
      ∧ (s.declareAbsent d cause).mem = s.mem ∧ (s.declareAbsent d cause).stack = s.stack := by
  have hout : ∀ x : State, DieKept x ((x.dieTilesOut d).logEvent 0x23 d 0 cause) := fun x =>
    (DieKept.foldl _ _ _ fun y t _ => by
      split
      · exact DieKept.refl y
      · exact (y.setTileState_dieKept t 5).trans (State.putB_oos_dieKept _ _ _)).trans (State.logEvent_logOnly _ _ _ _ _).dieKept
  unfold State.declareAbsent
  dsimp only
  refine ⟨?_, ?_, (hout _).mem, (hout _).stack⟩
  · rw [(hout _).bit, State.bit_setDieStat s d _ (by decide)]
    simp [bitN_putBits]
    rfl
  · rw [(hout _).bit, State.bit_setDieStat s d _ (by decide)]
    simp [bitN_putBits]
    rfl

/-- A die that failed is declared absent. -/
theorem exec_dieAbsent_spec (c : BitVec 5) (hal : s.alive = true) (htr : s.gait.trans = .walkToTrot) (hpend : s.stack.bring[d] = 0)
    (hc : c ≠ 0) :
    ∃ s', exec (.dieAbsent d c) s = .next s' ∧ s'.bit (Reg.tileDieStat d) 0 = false ∧ s'.bit (Reg.tileDieStat d) 1 = true
      ∧ s'.stack.bring[d] = 2 ∧ s'.mem = s.mem := by
  refine ⟨_, (if_neg (by simp [hal])).trans (if_neg (not_or_intro (not_not_intro htr) (not_or_intro (not_not_intro hpend) hc))), ?_⟩
  generalize hs1 : State.putB _ (Reg.tileDieStat d) 2 _ = s1
  have hmem1 : s1.mem = s.mem := by
    rw [← hs1, State.putB_mem]
    split
    · exact List.foldlRecOn (motive := fun x : State => x.mem = s.mem) _ _ rfl fun x hx p _ => hx
    · rfl
  obtain ⟨habs, hdecl, hmem, -⟩ := s1.declareAbsent_spec d c.toNat
  obtain ⟨hbit, hbring, hmem'⟩ := (s1.declareAbsent d c.toNat).settleDie_spec d 2
  exact ⟨(hbit 0).trans habs, (hbit 1).trans hdecl, hbring, hmem'.trans (hmem.trans hmem1)⟩

end

/-! ### Test access (R479 to R482) -/

/-- The stack register as STACK_SEL loads it: the dies named, of those present (R480). -/
theorem stackSel_bit (v : BitVec 2) (on : Nat → Bool) {d : Nat} (hd : d < 2) :
    bitN (BitVec.ofNat 2 ((List.range 2).foldl (fun m d => if bitN v.toNat d && on d then m + 2 ^ d else m) 0)).toNat d
      = (bitN v.toNat d && on d) := by
  have hrange : List.range 2 = [0, 1] := rfl
  rw [hrange]
  simp only [List.foldl_cons, List.foldl_nil]
  rcases (by omega : d = 0 ∨ d = 1) with rfl | rfl <;> cases bitN v.toNat 0 && on 0 <;> cases bitN v.toNat 1 && on 1 <;> rfl

end Sys2Proof.Machine
end

section
/-! SUPPORT. The memory's own events (R424, R430, R452, R584, R652), and then each part of O59 from the layers above: the head ports, the
tiles with their scheduler, the die stack with test access, and memory with PCI Express. -/

namespace Sys2Proof.Machine

/-! ### The patrol scrubber (R424, R584) -/

/-- What the scrubber may change: what an engine's access may, and of memory the records of errors alone. -/
def ScrubOnly (s t : State) : Prop := EngineOnly s t ∧ t.mem.cells = s.mem.cells

theorem ScrubOnly.trans {s t u : State} (h : ScrubOnly s t) (h' : ScrubOnly t u) : ScrubOnly s u :=
  ⟨h.1.trans h'.1, h'.2.trans h.2⟩

section
variable (s : State)

theorem State.fresh_scrubOnly (k : Nat) : ScrubOnly s (s.fresh k).2 := ⟨⟨fun _ _ => rfl, rfl⟩, rfl⟩

theorem State.freeBits_scrubOnly (w : Nat) : ScrubOnly s (s.freeBits w).2 := ⟨⟨fun _ _ => rfl, rfl⟩, rfl⟩

theorem State.softAt_scrubOnly (a : Nat) : ScrubOnly s (s.softAt a) := by
  unfold State.softAt
  dsimp only
  split
  · exact ⟨⟨fun _ _ => rfl, rfl⟩, rfl⟩
  · exact ⟨EngineOnly.refl s, rfl⟩

/-- The counters of the four SRAM classes stand in the EVT block. -/
theorem State.countSramCe_engineOnly {k : Nat} (hk : k < 4) : EngineOnly s (s.count (Cnt.evtCntSramCe k)) := by
  refine s.count_engineOnly 1 ?_ ?_
  · simp only [Cnt.evtCntSramCe, Reg.evtCntSramCe]
    omega
  · simp only [Cnt.evtCntSramCe, Reg.evtOvf]
    omega

theorem State.upset_scrubOnly : ScrubOnly s s.upset := by
  have hfree := (s.freeBits_scrubOnly 3).trans ((s.freeBits 3).2.freeBits_scrubOnly 42)
  unfold State.upset
  dsimp only
  split
  · next hk => exact hfree.trans ⟨State.countSramCe_engineOnly _ hk, by rw [State.count_mem]⟩
  · exact hfree.trans (State.softAt_scrubOnly _ _)

theorem State.upsets_scrubOnly : ScrubOnly s s.upsets :=
  List.foldlRecOn (motive := ScrubOnly s) _ _ (s.fresh_scrubOnly 1) fun x hx _ _ => hx.trans x.upset_scrubOnly

theorem State.readMeets_scrubOnly (a n : Nat) : ScrubOnly s (s.readMeets a n) := by
  refine ⟨s.readMeets_engineOnly a n, ?_⟩
  unfold State.readMeets
  rw [State.countBad_mem, State.countSoft_mem]

end

section
variable {s : State}

/-- The scrubber's next line; no byte of memory changes. -/
theorem exec_patrolScrub_spec (hal : s.alive = true) (hg : s.gaitN ≠ 0) :
    ∃ t, exec .patrolScrub s = .next t ∧ t.ddr.scrub = (s.ddr.scrub + 1) % 2 ^ 20 ∧ t.tiles = s.tiles ∧ t.time = s.time
      ∧ t.mem.cells = s.mem.cells := by
  refine ⟨_, if_neg (not_or_intro (not_not_intro hal) hg), ?_⟩
  dsimp only
  generalize 64 * s.upsets.ddr.scrub = l
  obtain ⟨⟨-, heq⟩, hcells⟩ :=
    (s.upsets_scrubOnly.trans (s.upsets.readMeets_scrubOnly l 64)).trans (State.readMeets_scrubOnly _ (0x4000000 + l) 64)
  exact ⟨(congrArg (fun x : State => (x.ddr.scrub + 1) % 2 ^ 20) heq).trans rfl, (congrArg State.tiles heq).trans rfl,
    (congrArg State.time heq).trans rfl, hcells⟩

theorem exec_refreshRateRead_spec (k : Fin 2) (r : BitVec 8) (hal : s.alive = true) (hg : s.gaitN ≠ 0) :
    ∃ t, exec (.refreshRateRead k r) s = .next t ∧ t.ddr.rate[k] = r.toNat ∧ t = { s with ddr := t.ddr } :=
  ⟨_, if_neg (not_or_intro (not_not_intro hal) hg), by simp, rfl⟩

/-- Drift beyond 1/16 UI retrains write DQ (R652). -/
theorem exec_dqsOscillatorCheck_spec (k : Fin 2) {r : BitVec 8} (hal : s.alive = true) (hg : s.gaitN ≠ 0) (hr : 4 < r.toNat) :
    ∃ t, exec (.dqsOscillatorCheck k r) s = .next t ∧ t.ddr.retrains[k] = s.ddr.retrains[k] + 1 ∧ t = { s with ddr := t.ddr } :=
  ⟨_, if_neg (not_or_intro (not_not_intro hal) (not_or_intro hg (Nat.not_le.2 hr))), by simp, rfl⟩

/-- A write through BAR2 reaches burrow memory (R452). -/
theorem exec_pcieInboundRequest_burrowWrite {a : Nat} {d : List Byte} (hal : s.alive = true) (hg : s.gaitN ≠ 0)
    (hend : s.pcie.endpoint = true) (hrdy : s.pcie.ready = true) (hfit : a + d.length ≤ 0x8000000) (hmem : s.memRange a d.length = true) :
    exec (.pcieInboundRequest 2 true a 0 d) s = .next ((s.memWrite a d).pcieCpl 0 [] []) := by
  refine (if_neg ?_).trans ((if_neg (by decide)).trans ((if_pos rfl).trans ((if_pos hfit).trans (congrArg Host.Outcome.next ?_))))
  · exact not_or_intro (not_not_intro hal) (not_or_intro hg (not_or_intro (not_not_intro hend) (not_not_intro hrdy)))
  · exact (if_neg (not_not_intro hmem)).trans (if_pos rfl)

end

/-! ### Head ports -/

section
variable {s : State} {p : PortId}

theorem exec_linkUp_spec (hal : s.alive = true) (hg : s.gaitN ≠ 0) (hen : s.bit (Reg.portCtrl p) 0 = true)
    (hdn : s.bit (Reg.portState p) 0 = false) :
    ∃ t, exec (.linkUp p) s = .next t ∧ t.bit (Reg.portState p) 0 = true ∧ t.ports[p].seqRef = none ∧ PortRest s t := by
  obtain ⟨hbit, -, ⟨n, hport⟩, -, -, heq⟩ := (s.modPort p (fun q => { q with phyUp := true })).linkRise_spec p
  exact ⟨_, exec_linkUp_rises hal hg hen hdn, hbit, by rw [hport], PortRest.of_eq heq⟩

theorem exec_linkDown_spec (p : PortId) (hal : s.alive = true) :
    ∃ t, exec (.linkDown p) s = .next t ∧ t.bit (Reg.portState p) 0 = false ∧ PortRest s t := by
  obtain ⟨-, -, -, heq⟩ := (s.modPort p (fun q => { q with phyUp := false })).setPortF_frame p 0 0 0
  exact ⟨_, exec_linkDown hal, (State.linkFall_spec _ p).1, PortRest.of_eq heq⟩

/-- A head's bit in a mask of its bus. -/
theorem bitN_or_two_pow (n k : Nat) : bitN (n ||| 2 ^ k) k = true := by
  rw [bitN_or, bitN_two_pow, decide_eq_true rfl, Bool.or_true]

theorem exec_i3cHotJoin_spec (b : Fin 2) (h : Fin 4) (hal : s.alive = true) (hg : s.gaitN ≠ 0) :
    ∃ t, exec (.i3cHotJoin b h) s = .next t ∧ bitN t.i3c[b].hotJoin h = true ∧ t.i3c[b].addr[h].isSome = true
      ∧ t.regs = s.regs ∧ PortRest s t := by
  obtain ⟨t, a, hexec, heq, -, hbus, -⟩ := exec_i3cHotJoin b h hal hg
  refine ⟨t, hexec, ?_, ?_, by rw [heq], PortRest.of_eq heq⟩
  · rw [hbus]
    exact bitN_or_two_pow _ _
  · rw [hbus]
    simp

theorem exec_i3cInBandInterrupt_spec (b : Fin 2) (h : Fin 4) (hal : s.alive = true) (hg : s.gaitN ≠ 0) :
    ∃ t, exec (.i3cInBandInterrupt b h) s = .next t ∧ bitN t.i3c[b].ibi h = true ∧ t.regs = s.regs ∧ PortRest s t := by
  obtain ⟨t, hexec, heq, hbus, -⟩ := exec_i3cInBandInterrupt b h hal hg
  refine ⟨t, hexec, ?_, by rw [heq], PortRest.of_eq heq⟩
  rw [hbus]
  exact bitN_or_two_pow _ _

theorem exec_syncTransmit_spec (hal : s.alive = true) (hon : s.portOn p = true) :
    ∃ t, exec (.syncTransmit p) s = .next t
      ∧ t.ports[p].sent = [(1, s.ports[p].syncSeq, s.time), (0, s.ports[p].syncSeq, s.time)] ++ s.ports[p].sent
      ∧ t.ports[p].syncSeq = (s.ports[p].syncSeq + 1) % 65536 ∧ t.regs = s.regs ∧ PortRest s t :=
  ⟨_, exec_syncTransmit hal hon, by rw [State.modPort_self], by rw [State.modPort_self], rfl, PortRest.of_eq rfl⟩

theorem exec_pdelayReqTransmit_spec (hal : s.alive = true) (hon : s.portOn p = true) :
    ∃ t, exec (.pdelayReqTransmit p) s = .next t ∧ t.ports[p].sent = [(2, s.ports[p].pdelaySeq, s.time)] ++ s.ports[p].sent
      ∧ t.ports[p].pdelaySeq = (s.ports[p].pdelaySeq + 1) % 65536 ∧ t.regs = s.regs ∧ PortRest s t :=
  ⟨_, exec_pdelayReqTransmit hal hon, by rw [State.modPort_self], by rw [State.modPort_self], rfl, PortRest.of_eq rfl⟩

end

/-! ### Scheduler and die stack -/

section
variable {s : State}

/-- A check that ends no longer runs; one that failed leaves its buffer invalid. -/
theorem State.checkEnds_checkProgram_spec (s : State) (k : Fin 2) :
    let t := (s.checkProgram k.val).2.2.checkEnds k (s.checkProgram k.val).1 (s.checkProgram k.val).2.1
    t.sched.checking[k] = false ∧ t.bit Reg.tileSchedStat 5 = s.sched.checking[1 - k]
      ∧ (t.fld Reg.tileSchedStat 10 8 ≠ 0 → t.bit Reg.tileSchedStat (2 + k.val) = false) := by
  intro t
  obtain ⟨hdone, hother, hstep, hvalid⟩ :=
    (s.checkProgram k.val).2.2.checkEnds_spec k (s.checkProgram k.val).1 (s.checkProgram k.val).2.1
  refine ⟨hdone, ?_, fun hne => hvalid.trans (decide_eq_false fun h0 => hne ?_)⟩
  · rw [hother, (s.checkProgram_engineOnly k.val).2]
  · rw [hstep, h0]

section
variable {d : DieId} {p : Fin 8} {t : TileId} {q : LoadReq}

theorem exec_bondFlitReceive_noAccess {de ce : Bool} (hal : s.alive = true) (hdie : s.bit (Reg.tileDieStat d) 0 = true)
    (hport : s.bit (Reg.tileBondPstat d p) 0 = true) (herr : de = true ∨ ce = true) (ht : t.val / 16 = d.val)
    (hfind : (s.flitError d p t).bondFind t p none = none) :
    exec (.bondFlitReceive d p t de ce none) s = .next (s.flitError d p t) := by
  have hexec := exec_bondFlitReceive (tag := none) hal hdie hport herr ht rfl
  rwa [show Option.map _ none = none from rfl, hfind] at hexec

/-- An untagged load whose flit had an error in its control. -/
theorem exec_bondFlitReceive_losesLoad {de ce : Bool} (hal : s.alive = true) (hdie : s.bit (Reg.tileDieStat d) 0 = true)
    (hport : s.bit (Reg.tileBondPstat d p) 0 = true) (herr : de = true ∨ ce = true) (ht : t.val / 16 = d.val)
    (hfind : (s.flitError d p t).bondFind t p none = some (.load q)) (hce : ce = true) :
    ∃ s', exec (.bondFlitReceive d p t de ce none) s = .next s' ∧ s' = { s.flitError d p t with tiles := s'.tiles }
      ∧ (∀ u : TileId, u ≠ t → s'.tiles[u] = s.tiles[u])
      ∧ s'.tiles[t] = { s.tiles[t] with loads := s.tiles[t].loads.map (fun x => if x = q then { x with lost := some s.time } else x) } := by
  have htiles : (s.flitError d p t).tiles = s.tiles := State.count_tiles _ _ _
  have htime : (s.flitError d p t).time = s.time := State.count_time _ _ _
  have hexec := exec_bondFlitReceive (tag := none) hal hdie hport herr ht rfl
  rw [show Option.map _ none = none from rfl, hfind] at hexec
  obtain ⟨heq, hother, hself⟩ := (s.flitError d p t).bondLose_load_spec t q
  refine ⟨_, hexec.trans (congrArg Host.Outcome.next (if_pos hce)), heq, fun u hu => ?_, ?_⟩
  · rw [hother u hu, htiles]
  · rw [hself, htiles, htime]

/-- The oldest lost access of a die, an untagged load of the control core, ends as poisoned. -/
theorem exec_bondTimeout_endsLoad {at0 : Nat} (hal : s.alive = true) (ht : t.val / 16 = d.val)
    (hlost : s.tiles[t].lostAccess none = some (.load q, at0)) (hvec : q.vec = none)
    (hbefore : ∀ x : TileId, x < t → x.val / 16 = d.val → s.tiles[x].lostAccess none = none) :
    ∃ s', exec (.bondTimeout d none) s = .next s' ∧ s'.time = max s.time (at0 + 2000)
      ∧ s'.rd (Cnt.tileBondCntTmo d).reg = min 0xFFFFFFFF (s.rd (Cnt.tileBondCntTmo d).reg + 1)
      ∧ s'.tiles[t] = { s.tiles[t] with loads := s.tiles[t].loads.erase q }.setG q.dst
        (BitVec.ofNat 64 (leNat (mergeFwd (List.replicate q.len 0) q.fwd)))
      ∧ ∀ u : TileId, u ≠ t → s'.tiles[u] = s.tiles[u] := by
  have hword : (Cnt.tileBondCntTmo d).reg ≠ (Cnt.tileBondCntTmo d).ovf + 4 * ((Cnt.tileBondCntTmo d).bit / 32) := by
    simp only [Cnt.tileBondCntTmo, Reg.tileBondCntTmo, Reg.tileBondOvf]
    omega
  have htag := Tile.tag_of_lostAccess hlost
  refine ⟨_, exec_bondTimeout_load (tag := none) hal ht hlost hbefore, ?_⟩
  rw [show State.degradeTag _ _ = (s.at_ (at0 + 2000)).count (Cnt.tileBondCntTmo d) from rfl, State.bondPoison_untagged_load _ t htag hvec]
  refine ⟨State.count_time _ _ _, State.rd_count _ _ 1 hword, ?_, fun u hu => ?_⟩
  · rw [State.modTile_self, State.count_tiles]
    rfl
  · rw [State.modTile_ne _ _ hu, State.count_tiles]
    rfl

end

end

/-! ### Test access (R479 to R482) -/

/-- An instruction is held at the base die; the stack's record and free values alone change. -/
def JtagHeld (i : Instr) (n : Nat) (s : State) : Prop :=
  ∃ t, exec i s = .next t ∧ t.stack.jtagIr = n ∧ t = { s with stack := t.stack, freeCtr := t.freeCtr }

theorem exec_jtagExtest_held {s : State} (h : s.gait.testmodeN = false) : JtagHeld .jtagExtest 3 s :=
  ⟨_, congrArg Host.Outcome.next (if_neg (Bool.eq_false_iff.1 h)), rfl, rfl⟩

theorem exec_jtagIntest_held {s : State} (h : s.gait.testmodeN = false) : JtagHeld .jtagIntest 4 s :=
  ⟨_, congrArg Host.Outcome.next (if_neg (Bool.eq_false_iff.1 h)), rfl, rfl⟩

/-! ### O59 -/

/-- Settles O59: each event completes with its effect, part by part; a hot-join takes a free address (log 118), the scrubber meets free
errors (log 121), a lost access is the oldest of its tile (log 122), and test access captures free values (log 123). -/
theorem eventsComplete : Obligations.EventsComplete := by
  unfold Obligations.EventsComplete
  refine ⟨fun s p hal hg => ?ports, fun s t hal => ?tiles, fun s d hal => ?bond, fun s => ?jtag, fun s hal hg => ?mem⟩
  case ports =>
    refine ⟨exec_linkUp_spec hal hg, exec_linkDown_spec p hal,
      fun b h => ⟨exec_i3cHotJoin_spec b h hal hg, exec_i3cInBandInterrupt_spec b h hal hg⟩, exec_litTimeTick_counts hal hg,
      fun hon => ⟨exec_syncTransmit_spec hal hon, exec_pdelayReqTransmit_spec hal hon⟩,
      fun m nack v hpend => exec_lifeWriteComplete_counts nack v hal hpend, ?_⟩
    intro f pl n d hon hmin hmax het hvlan hmagic hver hn hfit hcrc hhead hser htunl hnew hnew'
    have hlen : 36 ≤ pl.length := by
      simp only [pl, List.length_drop]
      omega
    exact ⟨_, exec_ethFrameReceive_accepted hal hon hmin hmax het hvlan,
      s.srpReceive_accepted hlen hmagic hver hn hfit hcrc hhead hser htunl hnew hnew'⟩
  case tiles =>
    refine ⟨fun hg htr => ⟨fun e p i k d s1 hnext hwake => ?_, fun kick b i k d p s1 hnone hnext hwake => ?_⟩,
      fun w hfind => ⟨_, exec_itemComplete hal hfind, s.finishItem_spec t w⟩, exec_tileWakeComplete_spec hal,
      exec_tileClockGate_spec hal, exec_tileWatchdogExpiry_fails hal, exec_sramUncorrectableError_tile hal,
      exec_tileSelfTestEnd_spec hal, exec_tlbInvPendClear_done hal,
      fun b hchk => ⟨_, exec_programCheckEnd b hal hchk, s.checkEnds_checkProgram_spec _⟩,
      fun k h => exec_shardSwitchApplied_spec hal, exec_shardLoadWindow_spec hal⟩
    · exact ⟨_, exec_itemDispatch_tagged hal hg htr hnext hwake, State.sendItem_holds _ _ _⟩
    · exact ⟨_, exec_itemDispatch_untagged hal hg htr hnone hnext hwake, State.sendItem_holds _ _ _⟩
  case bond =>
    exact ⟨fun p t de ce hdie hport herr ht =>
        ⟨exec_bondFlitReceive_noAccess hal hdie hport herr ht, fun q => exec_bondFlitReceive_losesLoad hal hdie hport herr ht⟩,
      fun t q at0 ht hlost hvec hbefore => exec_bondTimeout_endsLoad hal ht hlost hvec hbefore, exec_bondErrorWindow_quiet hal,
      fun fail gs => exec_bondTestDone_spec fail gs hal,
      fun htr hpend => ⟨fun m => exec_computeDieBringUp_spec m hal htr hpend, fun c => exec_dieAbsent_spec c hal htr hpend⟩⟩
  case jtag =>
    exact ⟨⟨_, rfl, rfl, rfl⟩, ⟨_, rfl, rfl, rfl⟩, ⟨_, rfl, rfl, rfl⟩, fun h => ⟨exec_jtagExtest_held h, exec_jtagIntest_held h⟩,
      fun v => ⟨⟨_, rfl, rfl, rfl⟩, _, rfl, fun d hd => stackSel_bit v s.dieOn hd⟩⟩
  case mem =>
    refine ⟨exec_patrolScrub_spec hal hg,
      fun k r => ⟨exec_refreshRateRead_spec k r hal hg, exec_dqsOscillatorCheck_spec k hal hg⟩, fun a d hend hrdy hfit hmem => ?_⟩
    have heq := (s.memWrite_engineOnly a d).2
    exact ⟨_, exec_pcieInboundRequest_burrowWrite hal hg hend hrdy hfit hmem, rfl, rfl, (congrArg State.tiles heq).trans rfl,
      (congrArg State.time heq).trans rfl⟩

end Sys2Proof.Machine
end

section
/-! SUPPORT. What closing a sector changes, and what the commands on a sector and its kernel-map lists do where they do something (R174 to
R179). With them the statement on sectors. -/

namespace Sys2Proof.Machine

section
variable {s : State} {par : Bool} {k : SectId} {e : Epoch}

/-- The highest bit of a sector lies in the word. -/
theorem sectBits_lt (par : Bool) (k : SectId) : 16 * b2n par + 8 + k.val < 32 := by
  have hk := k.isLt
  have hpar : b2n par ≤ 1 := by cases par <;> decide
  omega

theorem State.closeSector_closed : (s.closeSector (b2n par) k).sectClosed (b2n par) k = true := by
  have := sectBits_lt par k
  rw [State.sectClosed, State.closeSector, State.bit_putB _ _ (by omega), if_neg (by omega), State.bit_putB _ _ (by omega), if_pos rfl]

theorem State.closeSector_notReopened : (s.closeSector (b2n par) k).sectReopened (b2n par) k = false := by
  rw [State.sectReopened, State.closeSector, State.bit_putB _ _ (sectBits_lt par k), if_pos rfl]

theorem State.closeSector_kept (p j : Nat) : RegsKept s (s.closeSector p j) [Reg.dreySectState] :=
  (s.putB_kept _ _ _).trans (State.putB_kept _ _ _ _)

/-- A sector that is open closes with ride-ahead (R178). -/
theorem exec_sectorClose_ride (hal : s.alive = true) (hpar : s.epochOfParity (b2n par) = some e) (hopen : s.sectClosed (b2n par) k = false)
    (hride : e.ride = true) (hrein : e.rein ≠ .rerun) :
    exec (.sectorClose par k) s =
      if e.lateDone then .next (s.closeSector (b2n par) k)
      else if e.openT + regN e.conf (Reg.dreySectClose k) * 100000 < e.closeT ∧ ¬ s.sectReopened (b2n par) k then
        .next ((s.at_ (e.openT + regN e.conf (Reg.dreySectClose k) * 100000)).closeSector (b2n par) k)
      else .next s := by
  refine (if_neg (by simp [hal])).trans ?_
  dsimp only
  rw [hpar]
  exact (if_neg (by simp [hopen])).trans (if_pos (by simp [hride, hrein]))

/-- A sector that is open closes without ride-ahead, and on a rerun, once the inserts have ended (R178). -/
theorem exec_sectorClose_ended (hal : s.alive = true) (hpar : s.epochOfParity (b2n par) = some e) (hopen : s.sectClosed (b2n par) k = false)
    (hride : e.ride = false ∨ e.rein = .rerun) (hclosed : e.closed = true) (hlate : e.lateDone = true) (hmay : e.mayDeskew = true)
    (hended : s.passEnded e = true) : exec (.sectorClose par k) s = .next (s.closeSector (b2n par) k) := by
  refine (if_neg (by simp [hal])).trans ?_
  dsimp only
  rw [hpar]
  refine (if_neg (by simp [hopen])).trans ((if_neg ?_).trans (if_pos (by simp [hclosed, hlate, hmay, hended])))
  rcases hride with h | h <;> simp [h]

/-- The lists of a sector start once it and its neighbours have closed (R179). -/
theorem exec_kernelMapGenerate_starts (hal : s.alive = true) (hpar : s.epochOfParity (b2n par) = some e) (hon : s.bit Reg.dreyCtrl 0 = true)
    (hnear : ∀ j ∈ [(k.val + 7) % 8, k.val, (k.val + 1) % 8], s.sectClosed (b2n par) j = true) (hidle : bitN e.kmBusy k = false)
    (hrein : e.rein.running = false) :
    exec (.kernelMapGenerate par k) s = .next (s.modEpoch e.frame (fun e => { e with kmBusy := e.kmBusy ||| 2 ^ k.val })) := by
  refine (if_neg (by simp [hal])).trans ?_
  dsimp only
  rw [hpar]
  exact if_pos (by simp only [hon, List.all_eq_true.2 hnear, hidle, hrein]; rfl)

/-- The lists under way end: where the region holds its header table they are written first, and read ready last (R177, R179). -/
theorem exec_kernelMapReady_ends (hal : s.alive = true) (hpar : s.epochOfParity (b2n par) = some e) (hbusy : bitN e.kmBusy k = true) :
    let done := fun (t : State) => t.modEpoch e.frame (fun e => { e with kmBusy := putBits e.kmBusy k k 0 })
    exec (.kernelMapReady par k) s =
      .next (if e.isUnset Reg.dreyKmSize 2 || decide (regN64 e.conf Reg.dreyKmSize / 65536 * 65536 < 131072) then done s
        else (done (s.writeSector e.frame k)).setReady (b2n par) k e.kdMask true) := by
  refine (if_neg (by simp [hal])).trans ?_
  dsimp only
  rw [hpar]
  refine (if_neg (by simp [hbusy])).trans (congrArg Host.Outcome.next ?_)
  split <;> rfl

end

/-- Settles O48: a sector closes when its time or the pass has come, and its word alone changes; its lists start, and then are
written and read ready. -/
theorem sectorEvents : Obligations.SectorEvents := by
  intro s par k e hal hpar
  refine ⟨fun hopen => ⟨fun hride hrein => ⟨fun hlate => ?late, fun hlate hdue hre => ?due⟩, fun hride hclosed hlate hmay hended => ?ended⟩,
    ⟨State.closeSector_closed, State.closeSector_notReopened, State.closeSector_kept _ _⟩,
    exec_kernelMapGenerate_starts hal hpar, fun hbusy => ⟨fun hsmall => ?small, fun hsmall => ?lists⟩⟩
  case late => rw [exec_sectorClose_ride hal hpar hopen hride hrein, if_pos hlate]
  case due => rw [exec_sectorClose_ride hal hpar hopen hride hrein, if_neg (by simp [hlate]), if_pos ⟨hdue, by simp [hre]⟩]; rfl
  case ended => exact exec_sectorClose_ended hal hpar hopen hride hclosed hlate hmay hended
  case small => exact (exec_kernelMapReady_ends hal hpar hbusy).trans (congrArg Host.Outcome.next (if_pos hsmall))
  case lists => exact (exec_kernelMapReady_ends hal hpar hbusy).trans (congrArg Host.Outcome.next (if_neg (Bool.eq_false_iff.1 hsmall)))

end Sys2Proof.Machine
end

section
/-! SUPPORT. The token counters of a tile (R195, R196): what adding to one makes of it and of TILE_TOK_OVF. With it the statement on a
signal that overflows. -/

namespace Sys2Proof.Machine

section
variable (s : State) (t : TileId) (k : Nat)

theorem State.tok_lt : s.tok t k < 65536 := bitsN_lt _ 15 0

/-- A counter reads as the number written to it. -/
theorem State.tok_put_self {v : Nat} (hv : v < 65536) : (s.put (Reg.tileToken t k) v).tok t k = v := by
  rw [State.tok, State.fld, State.rd_put_self, bitsN, Nat.shiftRight_zero]
  omega

/-- A counter whose word is kept holds what it held. -/
theorem RegsKept.tok {s s' : State} {l : List Nat} (h : RegsKept s s' l) {t : TileId} {k : Nat} (hk : Reg.tileToken t k ∉ l) :
    s'.tok t k = s.tok t k := congrArg (bitsN · 15 0) (h _ hk)

/-- The machine with counter `k` saturated and its overflow bit set (R196). -/
def State.tokFull : State := (s.put (Reg.tileToken t k) 65535).orReg (Reg.tileTokOvf t) (2 ^ k)

theorem State.tokAdd_fits {n : Nat} (h : s.tok t k + n ≤ 65535) :
    s.tokAdd t k n = (false, s.put (Reg.tileToken t k) (s.tok t k + n)) := if_pos h

theorem State.tokAdd_overflows {n : Nat} (h : 65535 < s.tok t k + n) : s.tokAdd t k n = (true, s.tokFull t k) :=
  if_neg (Nat.not_le.2 h)

theorem tileToken_ne_tileTokOvf (t : TileId) (k : Nat) : Reg.tileToken t k ≠ Reg.tileTokOvf t := by
  unfold Reg.tileToken Reg.tileTokOvf
  omega

theorem State.tokFull_tok : (s.tokFull t k).tok t k = 65535 := by
  have hne := tileToken_ne_tileTokOvf t k
  have hword : (s.tokFull t k).rd (Reg.tileToken t k) = (s.put (Reg.tileToken t k) 65535).rd (Reg.tileToken t k) := State.rd_orReg_ne _ _ hne
  exact (congrArg (bitsN · 15 0) hword).trans (s.tok_put_self t k (by decide))

theorem State.tokFull_kept : RegsKept s (s.tokFull t k) [Reg.tileToken t k, Reg.tileTokOvf t] :=
  ((s.put_kept _ _).mono (by simp)).trans ((State.put_kept _ _ _).mono (by simp))

/-- The overflow bits: the counter's own is set and every other as before. -/
theorem State.bit_tokFull (hk : k < 16) (j : Nat) :
    (s.tokFull t k).bit (Reg.tileTokOvf t) j = (s.bit (Reg.tileTokOvf t) j || decide (k = j)) := by
  have hmask : 2 ^ k < 2 ^ 32 := Nat.pow_lt_pow_right (by decide) (by omega)
  rw [State.tokFull, State.bit_orReg _ hmask, bitN_two_pow, State.bit_put_ne _ _ _ (tileToken_ne_tileTokOvf t k).symm]

/-- Adding to a counter: it saturates, and at most its own word and TILE_TOK_OVF change. -/
theorem State.tokAdd_spec (n : Nat) : (s.tokAdd t k n).2.tok t k = min 65535 (s.tok t k + n)
    ∧ RegsKept s (s.tokAdd t k n).2 [Reg.tileToken t k, Reg.tileTokOvf t] ∧ (s.tokAdd t k n).2 = { s with regs := (s.tokAdd t k n).2.regs } := by
  rcases Nat.lt_or_ge 65535 (s.tok t k + n) with h | h
  · rw [s.tokAdd_overflows t k h, Nat.min_eq_left h.le]
    exact ⟨s.tokFull_tok t k, s.tokFull_kept t k, rfl⟩
  · rw [s.tokAdd_fits t k h, Nat.min_eq_right h]
    exact ⟨s.tok_put_self t k (by omega), (s.put_kept _ _).mono (by simp), rfl⟩

/-- A signal that fits its counter adds to it and does nothing else. -/
theorem State.signal_fits {n : Nat} (u : Option UEntry) (h : s.tok t k + n ≤ 65535) :
    s.signal t k n u = s.put (Reg.tileToken t k) (s.tok t k + n) := by
  rw [State.signal, s.tokAdd_fits t k h]
  rfl

end

/-- Settles O26: the counter is full and its bit set before the exception is raised, whoever signals. -/
theorem tokenOverflow : Obligations.TokenOverflow := by
  intro s t k n hover
  have hadd := s.tokAdd_overflows t k hover
  refine ⟨s.tokFull t k, s.tokFull_tok t k, ?_, s.tokFull_kept t k, fun j hj => ?_, rfl, fun a hgo hok hk hn => ?tsig, fun u => ?unit,
    fun u hn hse hst => ?retiring, fun a hn hsqs hst => ?squashed⟩
  · rw [s.bit_tokFull t k k.isLt]
    simp
  · rw [s.bit_tokFull t k k.isLt]
    simp [Ne.symm hj]
  case tsig =>
    have hexec : exec (.tsig t a) s = execTsig t a s := rfl
    rw [hexec, execTsig, hok, State.ccIssue_go s _ hgo, hk, hn, hadd]
    rfl
  case unit =>
    rw [State.signal, hadd]
    rfl
  case retiring =>
    rw [State.signalU, hse, hst, ← hn, State.signal, hadd]
    rfl
  case squashed =>
    rw [State.squash, hsqs, hst, ← hn, hadd]
    rfl

end Sys2Proof.Machine
end

section
/-! SUPPORT. The start of a unit instruction (R192, R194, R389): the wait it takes, and what its checks make of it. With it the statement
on UNIT_INSTRUCTION_START. -/

namespace Sys2Proof.Machine

/-! ### The wait (R194, R195) -/

section
variable {s : State} {t : TileId} {u : UEntry} {q : Nat}

/-- An instruction that names no wait, or has taken it, waits for nothing. -/
theorem State.takeWait_of_none_due (h : u.consumed = true ∨ u.args.wc.toNat = 0) : s.takeWait t u q = some s := if_pos h

/-- A wait still due, whose count the counter does not hold beside the waiters of lower queues. -/
theorem State.takeWait_short (hdue : u.consumed = false) (hwc : u.args.wc.toNat ≠ 0)
    (hleft : s.tokLeft t (fun v => !(s.tiles[t].blocked v) && v.seq != u.seq) u.args.wt.toNat q < u.args.wc.toNat) :
    s.takeWait t u q = none :=
  (if_neg (by simp [hdue, hwc])).trans (if_pos hleft)

/-- A wait still due, whose count the counter holds: it takes the count. -/
theorem State.takeWait_takes (hdue : u.consumed = false) (hwc : u.args.wc.toNat ≠ 0)
    (hleft : u.args.wc.toNat ≤ s.tokLeft t (fun v => !(s.tiles[t].blocked v) && v.seq != u.seq) u.args.wt.toNat q) :
    s.takeWait t u q = some ((s.put (Reg.tileToken t u.args.wt.toNat) (s.tok t u.args.wt.toNat - u.args.wc.toNat)).modEntry t u.seq
      (fun e => { e with consumed := true })) :=
  (if_neg (by simp [hdue, hwc])).trans (if_neg (Nat.not_lt.2 hleft))

/-- A change of a window entry changes the window of its tile and nothing else. -/
theorem State.modEntry_frame (s : State) (t : TileId) (seq : Nat) (f : UEntry → UEntry) :
    (s.modEntry t seq f).tiles[t] = { s.tiles[t] with window := (s.modEntry t seq f).tiles[t].window }
      ∧ ∀ v : TileId, v ≠ t → (s.modEntry t seq f).tiles[v] = s.tiles[v] := by
  refine ⟨?_, fun v hv => s.modTile_ne _ hv⟩
  rw [State.modEntry, State.modTile_self]
  rfl

end

/-! ### Values, checks, start (R389) -/

/-- What the outcome of its checks makes of an instruction whose values stand and whose wait is taken. -/
def State.startedBy (s : State) (t : TileId) (u : UEntry) : Acc3 (List (Nat × Bank)) → State
  | .ok b => ((s.startU t u b).modEntry t u.seq (fun e => { e with started := true })).fillSlots t
  | .miss va st => s.addWalk t va st (some u.seq)
  | .fault c x => s.startFault t u c x

section
variable {s s1 : State} {t : TileId} {q : Fin 8} {u u1 : UEntry}

theorem exec_unitInstructionStart (hal : s.alive = true) (hu : s.tiles[t].startable q.val = some u) :
    exec (.unitInstructionStart t q) s = .next (if s.valuesOk t u then s.startNow t u else s.startFault t u .illegal 0) := by
  refine (if_neg (by simp [hal])).trans ?_
  rw [hu]

theorem State.startNow_short (hw : s.takeWait t u ((u.queues.find? u.inQ).getD 0) = none) :
    s.startNow t u = s.count64 (Reg.tileCntTokwait t) := by
  rw [State.startNow, hw]

/-- With its wait taken: HPREF waits for a list to close, a device VLD for the bond, and any other is started by its checks. -/
theorem State.startNow_waited (hw : s.takeWait t u ((u.queues.find? u.inQ).getD 0) = some s1) (he : s1.entry t u.seq = some u1) :
    s.startNow t u = if u1.op = .hpref ∧ 4 ≤ s1.tiles[t].openLists then s1.count64 (Reg.hrdCntOutfull t)
      else if u1.op = .vld ∧ bitN u1.args.imm.toNat 2 = true ∧ s1.bondHeld t = true then s1
      else s1.startedBy t u1 (s1.checkU t u1) := by
  rw [State.startNow, hw]
  dsimp only
  rw [he, Option.getD_some]
  cases s1.checkU t u1 <;> rfl

end

/-- Settles O18: the values come first, then the wait, then what holds the instruction back, then its checks (log 58); a command that
finds it waiting counts one stall (log 56). -/
theorem unitStart : Obligations.UnitStart := by
  refine ⟨fun s t q u hal hu => ⟨fun hval => ?_, fun hval hw => ?_, fun s1 u1 hval hw he => ?_⟩, fun s t u q => ⟨?_, ?_, ?_, ?_⟩⟩
  · rw [exec_unitInstructionStart hal hu, hval]
    rfl
  · rw [exec_unitInstructionStart hal hu, hval, if_pos rfl, State.startNow_short hw]
  · have hexec := exec_unitInstructionStart hal hu
    rw [hval, if_pos rfl, State.startNow_waited hw he] at hexec
    refine ⟨fun hfull => ?_, fun hheld => ?_, fun hfull hheld => ?_⟩
    · rw [hexec, if_pos hfull]
    · have hfull : ¬ (u1.op = .hpref ∧ 4 ≤ s1.tiles[t].openLists) := fun h => by simp [hheld.1] at h
      rw [hexec, if_neg hfull, if_pos hheld]
    · rw [if_neg hfull, if_neg hheld] at hexec
      exact ⟨fun b hb => by rw [hexec, hb]; rfl, fun va st hmiss => by rw [hexec, hmiss]; rfl,
        fun c x hfault => by rw [hexec, hfault]; rfl⟩
  · exact State.takeWait_of_none_due
  · intro hq
    rw [hq]
    rfl
  · exact State.takeWait_short
  · intro hdue hwc hleft
    obtain ⟨hself, hother⟩ := (s.put (Reg.tileToken t u.args.wt.toNat) (s.tok t u.args.wt.toNat - u.args.wc.toNat)).modEntry_frame t u.seq
      (fun e => { e with consumed := true })
    have hlt := s.tok_lt t u.args.wt.toNat
    exact ⟨_, State.takeWait_takes hdue hwc hleft, s.tok_put_self t _ (by omega), s.put_kept _ _, rfl, hself, hother⟩

end Sys2Proof.Machine
end

section
/-! SUPPORT. The retirement of a unit instruction (R192, R194): what leaves with it, and its signal. With it the statement on
UNIT_INSTRUCTION_RETIRE. -/

namespace Sys2Proof.Machine

/-- An instruction gone from the window with its scalar result written, before it signals. -/
def State.leaves (s : State) (t : TileId) (u : UEntry) (ret : Nat) : State :=
  (((s.modTile t (fun tl =>
    let tl := tl.leave u.seq true
    if u.op.scalar then tl.setG u.args.rd.toNat (BitVec.ofNat 64 ret) else tl)).count64 (Reg.tileCntRetire t)).retiredAt t).settleFences t

section
variable (s : State) (t : TileId) (u : UEntry) (v : Nat)

/-- A weight load whose banks were complete has signalled already; any other instruction signals as it retires. -/
theorem State.retireU_eq : s.retireU t u v = if u.op.isWld && u.done != 0 then s.leaves t u v else (s.leaves t u v).signalU t u := rfl

theorem State.signalU_of_not_se (h : u.args.se = false) : s.signalU t u = s := by
  rw [State.signalU, h]
  rfl

/-- An instruction that does not signal only leaves. -/
theorem State.retireU_of_not_se (h : u.args.se = false) : s.retireU t u v = s.leaves t u v := by
  rw [State.retireU_eq, State.signalU_of_not_se _ t u h, ite_self]

/-- The record of its tile once it has left. -/
theorem State.leaves_tile : (s.leaves t u v).tiles[t] = Tile.settled s.time
    { (if u.op.scalar then (s.tiles[t].leave u.seq true).setG u.args.rd.toNat (BitVec.ofNat 64 v) else s.tiles[t].leave u.seq true) with
      lastRetire := s.time } := by
  rw [State.leaves, State.settleFences_eq, State.modTile_self, State.retiredAt, State.modTile_self, State.count64_tiles, State.modTile_self]
  rfl

theorem State.leaves_window : (s.leaves t u v).tiles[t].window = s.tiles[t].window.filter (fun e => e.seq ≠ u.seq) := by
  rw [State.leaves_tile]
  split
  · rw [Tile.setG_eq]
    rfl
  · rfl

theorem State.leaves_getG (hsc : u.op.scalar = true) (hrd : u.args.rd ≠ 0) :
    (s.leaves t u v).tiles[t].getG u.args.rd.toNat = BitVec.ofNat 64 v := by
  have hne : u.args.rd.toNat ≠ 0 := fun h => hrd (BitVec.eq_of_toNat_eq h)
  rw [State.leaves_tile, hsc, if_pos rfl]
  exact (Tile.getG_setG _ _ _ _ u.args.rd.isLt).trans (if_pos ⟨rfl, hne⟩)

/-- No register but the count of retirements changes. -/
theorem State.leaves_kept : RegsKept s (s.leaves t u v) [Reg.tileCntRetire t, Reg.tileCntRetire t + 4] := by
  rw [State.leaves, State.settleFences_eq]
  exact State.count64_kept _ _ 1

/-- One that signals, and was not counted when its banks were complete, adds one to its counter. -/
theorem State.retireU_tok (hse : u.args.se = true) (hwld : u.op.isWld = false ∨ u.done = 0) (htok : s.tok t u.args.st.toNat < 65535) :
    (s.retireU t u v).tok t u.args.st.toNat = s.tok t u.args.st.toNat + 1 := by
  have hnot : (u.op.isWld && u.done != 0) = false := by rcases hwld with h | h <;> simp [h]
  have hkept : (s.leaves t u v).tok t u.args.st.toNat = s.tok t u.args.st.toNat := by
    refine (s.leaves_kept t u v).tok ?_
    have hst := u.args.st.isLt
    simp only [List.mem_cons, List.not_mem_nil, or_false]
    unfold Reg.tileToken Reg.tileCntRetire
    omega
  rw [State.retireU_eq, hnot, if_neg (by decide), State.signalU, hse, if_pos rfl, State.signal_fits _ _ _ _ (by omega), hkept]
  exact State.tok_put_self _ _ _ (by omega)

end

/-- What an instruction that has gone as far as it can leaves of its tile, at queue `q`. -/
def Prog.settles (t : TileId) (q : Nat) (u : UEntry) : Prog → State
  | .fin ret s => (s.retireU t u ret).fillSlots t
  | .stay s => (s.behind t q).fillSlots t
  | .fault c a s => s.hoardFault t u.seq c a

section
variable {s : State} {t : TileId} {q : Fin 8} {u : UEntry}

theorem exec_unitInstructionRetire_waits (hal : s.alive = true) (hu : s.tiles[t].first q.val = some u)
    (h : u.started = false ∨ ¬ ∀ k ∈ u.queues, (s.tiles[t].first k).map (·.seq) = some u.seq) :
    exec (.unitInstructionRetire t q) s = .next (s.behind t q.val) := by
  refine (if_neg (by simp [hal])).trans ?_
  rw [hu]
  refine if_pos ?_
  rcases h with h | h
  · simp [h]
  · have hall : (u.queues.all fun k => (s.tiles[t].first k).map (·.seq) == some u.seq) = false :=
      Bool.eq_false_iff.2 fun htrue => h fun k hk => beq_iff_eq.1 (List.all_eq_true.1 htrue k hk)
    rw [hall, Bool.not_false, Bool.or_true]

theorem exec_unitInstructionRetire_oldest (hal : s.alive = true) (hu : s.tiles[t].first q.val = some u) (hstart : u.started = true)
    (hold : ∀ k ∈ u.queues, (s.tiles[t].first k).map (·.seq) = some u.seq) :
    exec (.unitInstructionRetire t q) s =
      .next (if u.op = .lblSt ∧ s.bondHeld t = true then s else (s.stepU t u).settles t q.val u) := by
  have hall : (u.queues.all fun k => (s.tiles[t].first k).map (·.seq) == some u.seq) = true :=
    List.all_eq_true.2 fun k hk => beq_iff_eq.2 (hold k hk)
  refine (if_neg (by simp [hal])).trans ?_
  rw [hu]
  refine (if_neg (by rw [hstart, hall]; decide)).trans ?_
  split
  · rfl
  · cases s.stepU t u <;> rfl

end

/-- Settles O19: a started instruction that is the oldest of all its queues goes as far as its unit brings it (log 68), a label store waits for
the bond, and any other leaves its place to a weight load behind it (log 119). -/
theorem unitRetire : Obligations.UnitRetire := by
  intro s t q u hal hu oldest
  refine ⟨fun hstart hold hfree => ?_, fun hstart hold hop hheld => ?_, exec_unitInstructionRetire_waits hal hu, fun hnone => ?_, fun w hw => ?_⟩
  · have hexec := exec_unitInstructionRetire_oldest hal hu hstart hold
    rw [if_neg hfree] at hexec
    refine ⟨fun v s1 hfin => ⟨by rw [hexec, hfin]; rfl, fun hse e he => ?_, fun hse hsc hrd => ?_, s1.retireU_tok t u v⟩,
      fun s1 hstay => by rw [hexec, hstay]; rfl, fun c x s1 hfault => by rw [hexec, hfault]; rfl⟩
    · rw [s1.retireU_of_not_se t u v hse, s1.leaves_window] at he
      simpa using (List.mem_filter.1 he).2
    · rw [s1.retireU_of_not_se t u v hse]
      exact s1.leaves_getG t u v hsc hrd
  · rw [exec_unitInstructionRetire_oldest hal hu hstart hold, if_pos ⟨hop, hheld⟩]
  · rw [State.behind, hnone]
  · rw [State.behind, hw]

end Sys2Proof.Machine
end

section
/-! SUPPORT. What issues (R190, R191, R369, R393): a unit instruction enters the window, for every unit; a device load is on its way, and a
device store stands in the store buffer. With it the statements on the issue of unit instructions and on device accesses. -/

namespace Sys2Proof.Machine

/-! ### Unit instructions -/

/-- The entry of an instruction that issues: its operands as they stand, and nothing of it done. -/
def State.newEntry (s : State) (t : TileId) (op : UOp) (a : UArgs) (qs : List Nat) : UEntry :=
  let tl := s.tiles[t]
  { seq := tl.nextSeq, op := op, args := a, queues := qs, tag := tl.ctx, pc := tl.pc
    ga := tl.getG a.ga.toNat, gb := tl.getG a.gb.toNat, gc := tl.getG a.gc.toNat, work := tl.running
    consumed := false, started := false, armed := [], banks := [], done := 0, touched := [], buf := [], ret := 0, wrote := false
    takes := false, drain := [], ver := s.fld (Reg.hrdTblVer (bitsN a.imm.toNat 12 9)) 15 0, rows := [] }

/-- Entering the window is one change of the tile's record. -/
theorem State.enterWindow_eq (s : State) (t : TileId) (op : UOp) (a : UArgs) (qs : List Nat) :
    s.enterWindow t op a qs = s.modTile t (fun tl => { tl with
      window := tl.window ++ [s.newEntry t op a qs], nextSeq := tl.nextSeq + 1, pc := (tl.pc + 8) % 2 ^ 64, lastRetire := s.time }) := by
  rw [State.enterWindow, State.advance, State.modTile_modTile]
  rfl

/-- Settles O17: every instruction of a unit is that unit's issue, which enters the window where nothing holds it. -/
theorem unitIssue : Obligations.UnitIssue := by
  refine ⟨fun s t a => ⟨?pass, ?wld, s.uIssue_go, ?vec, ?quill, ?hoard, ?tree⟩, fun s t op a qs => ?frame⟩
  case frame =>
    rw [s.enterWindow_eq]
    exact ⟨s.modTile_only t _, s.newEntry t op a qs, s.modTile_self t _, rfl, rfl, rfl, rfl, rfl, rfl, rfl, rfl, rfl, rfl, rfl, rfl⟩
  -- each member of a unit's list issues as that unit does, by definition: only the list is to be taken apart
  all_goals
    simp only [passOps, wldOps, vecOps, quillOps, hoardOps, treeOps, List.forall_mem_cons, List.not_mem_nil, false_implies, implies_true,
      and_true]
    and_intros
  all_goals exact s.uIssue_go

/-! ### Device loads and stores (R200, R371, R393) -/

section
variable {s : State} {t : TileId} {a : CcArgs} {n pa l : Nat}

/-- An access under a tag that is live, or under none, has its effect. -/
theorem State.asTagged_live (hst : s.ctxClass t ≠ .stale) (hinv : s.ctxClass t ≠ .invalid) (body : State → State) :
    s.asTagged t body = body s := by
  unfold State.asTagged
  split
  · next h => exact absurd h hst
  · next h => exact absurd h hinv
  · rfl

/-- The device load of a control core as it goes on its way, to a local address. -/
def State.coreLoad (s : State) (t : TileId) (a : CcArgs) (n pa l : Nat) : LoadReq :=
  { dst := a.rd.toNat, vec := none, addr := l, len := n, fwd := s.tiles[t].forward pa n, tag := s.tiles[t].ctx, remote := none
    work := s.tiles[t].running, lost := none, hold := false }

/-- A load that translates to this package goes on its way, or stalls while the bond is held (R477). -/
theorem State.ldN_here (hst : s.ctxClass t ≠ .stale) (hinv : s.ctxClass t ≠ .invalid) (hal : s.ea t a % n = 0)
    (hgo : CcGo s t a .both .coreMem [a.rs1.toNat] [a.rd.toNat]) (hpa : s.devAddr t (s.ea t a) n false = .ok pa)
    (hl : s.whereIs pa = .here l) :
    s.ldN t a n = .next (if s.bondHeld t = true then s
      else (s.modTile t (fun tl => { tl with loads := tl.loads ++ [s.coreLoad t a n pa l] })).advance t) := by
  rw [State.ldN, State.ccIssue_go s _ hgo, State.asTagged_live hst hinv]
  dsimp only
  rw [if_neg (not_not_intro hal), hpa]
  dsimp only
  rw [hl]
  rfl

/-- A store that translates into its tag's window stands in the store buffer. -/
theorem State.stN_buffered {tl' : Tile} (hst : s.ctxClass t ≠ .stale) (hinv : s.ctxClass t ≠ .invalid) (hal : s.ea t a % n = 0)
    (hgo : CcGo s t a .both .coreMem [a.rs1.toNat, a.rs2.toNat] []) (hpa : s.devAddr t (s.ea t a) n true = .ok pa)
    (hwin : s.inWindow t s.tiles[t].ctx pa n = true) (hput : s.tiles[t].sbPut pa (toLe (s.rs2 t a).toNat n) s.tiles[t].ctx = some tl') :
    s.stN t a n = .next ((s.modTile t (fun _ => tl')).advance t) := by
  rw [State.stN, State.ccIssue_go s _ hgo, State.asTagged_live hst hinv]
  dsimp only
  rw [if_neg (not_not_intro hal), hpa]
  dsimp only
  rw [if_neg (not_not_intro hwin), hput]

end

/-- Settles O12: a load or store of either width is the access of its bytes, which nothing stops. -/
theorem deviceAccess : Obligations.DeviceAccess := by
  intro s t a n pa l hst hinv hal
  refine ⟨fun hgo hpa hl => ?_, fun hgo hpa hwin tl' hput => ?_⟩
  · have hload := State.ldN_here hst hinv hal hgo hpa hl
    exact ⟨fun hn => by subst hn; exact hload, fun hn => by subst hn; exact hload⟩
  · have hstore := State.stN_buffered hst hinv hal hgo hpa hwin hput
    exact ⟨fun hn => by subst hn; exact hstore, fun hn => by subst hn; exact hstore⟩

end Sys2Proof.Machine
end

section
/-! SUPPORT. Responses to a tile (R202, R306, R314, R318, R450) and the end of a page walk (R436, R437), each where nothing keeps it from its
effect. With it the statement on both. -/

namespace Sys2Proof.Machine

/-! ### Requests of the Hoard unit, lookups and prefetched rows -/

section
variable {s : State} {t : TileId} {i : Nat} {q : GatherReq}

theorem exec_gatherResponse_waits (hal : s.alive = true) (hq : (s.fillSlots t).tiles[t].gathers[i]? = some q) (hhome : q.home = none) :
    exec (.gatherResponse t i) s = .next ((s.fillSlots t).count64 (Reg.hrdCntOutfull t)) := by
  refine (if_neg (by simp [hal])).trans ?_
  rw [hq]
  exact if_pos (by rw [hhome]; rfl)

theorem exec_gatherResponse_served (hal : s.alive = true) (hq : (s.fillSlots t).tiles[t].gathers[i]? = some q) (hhome : q.home ≠ none)
    (hlook : q.look = none) (hlost : q.lost = none) (hremote : q.remote = none ∨ q.drop = true) :
    exec (.gatherResponse t i) s = .next (((s.fillSlots t).serveReq t q).fillSlots t) := by
  refine (if_neg (by simp [hal])).trans ?_
  rw [hq]
  refine (if_neg (by simpa using hhome)).trans (if_neg ?_)
  rcases hremote with h | h <;> simp [hlook, hlost, h]

theorem exec_dreyLookup (hal : s.alive = true)
    (hq : (s.fillSlots t).tiles[t].gathers.find? (fun q => q.look.isSome && q.lost.isNone) = some q) :
    exec (.dreyLookup t) s = .next (if q.home = none then (s.fillSlots t).count64 (Reg.hrdCntOutfull t)
      else ((s.fillSlots t).serveLook t q).fillSlots t) := by
  refine (if_neg (by simp [hal])).trans ?_
  rw [hq]
  exact congrArg Host.Outcome.next (if_congr Option.isNone_iff_eq_none rfl rfl)

theorem exec_prefetchRowLand {p : Prefetch} {k h : Nat} (hal : s.alive = true)
    (hx : (s.fillSlots t).tiles[t].pfOut[i]? = some (p, k, h)) :
    exec (.prefetchRowLand t i) s = .next (((s.fillSlots t).pfServe t p k).fillSlots t) := by
  refine (if_neg (by simp [hal])).trans ?_
  rw [hx]

end

/-! ### Device loads (R200, R450) -/

section
variable {s : State} {t : TileId} {i : Nat} {q : LoadReq}

/-- With no correctable error in memory there is none to count. -/
theorem State.countSoft_clean (h : s.mem.soft = []) (a n : Nat) : s.countSoft a n = s :=
  if_pos (by rw [Mem.softIn, h]; rfl)

/-- A read of memory that meets no error is of the bytes there. -/
theorem State.tileRead_clean {a n : Nat} (harea : s.area a ≠ .pcie)
    (hbad : s.mem.badIn (a / 64 * 64) ((a + n + 63) / 64 * 64 - a / 64 * 64) = []) (hsoft : s.mem.soft = []) :
    s.tileRead a n = (s.mem.bytes a n, false, s) := by
  rw [State.tileRead, if_neg harea]
  dsimp only
  rw [hbad, s.countSoft_clean hsoft]
  rfl

/-- The data of an untagged load of the control core are written, those the store buffer forwarded in place. -/
theorem State.loadLand_core {bs : List Byte} (htag : q.tag = none) (hvec : q.vec = none) :
    s.loadLand t q bs false = s.modTile t (fun tl =>
      { tl with loads := tl.loads.erase q }.setG q.dst (BitVec.ofNat 64 (leNat (mergeFwd bs q.fwd)))) := by
  rw [State.loadLand, htag, hvec]
  exact s.modTile_modTile t (fun tl => { tl with loads := tl.loads.erase q })
    (fun tl => tl.setG q.dst (BitVec.ofNat 64 (leNat (mergeFwd bs q.fwd))))

theorem exec_deviceLoadReturn_local (hal : s.alive = true) (hq : s.tiles[t].loads[i]? = some q) (hremote : q.remote = none)
    (hlost : q.lost = none) :
    exec (.deviceLoadReturn t i) s =
      .next ((s.tileRead q.addr q.len).2.2.loadLand t q (s.tileRead q.addr q.len).1 (s.tileRead q.addr q.len).2.1) := by
  refine (if_neg (by simp [hal])).trans ?_
  rw [hq]
  exact if_neg (by simp [hremote, hlost])

end

/-! ### Page walks (R436, R437) -/

section
variable {s s2 : State} {t : TileId} {w : Walk}

/-- The machine with a walk of a tile taken off it. -/
def State.walkTaken (s : State) (t : TileId) (w : Walk) : State := s.modTile t (fun tl => { tl with walks := tl.walks.erase w })

/-- A translation fault: that of a unit instruction is the instruction's, that of a prefetched row leaves the row out, that of the control
core is its own, where it still runs. -/
def State.walkFault (s : State) (t : TileId) (w : Walk) : State :=
  match w.seq with
  | some q => s.hoardFault t q .translation w.vaddr
  | none =>
    if w.pf then (s.count (Cnt.tileCntTfault t)).pfSkip t w.vaddr
    else if s.coreRuns t then s.raiseC t .translation w.vaddr
    else s

theorem exec_pageWalkEnd_waits (hal : s.alive = true) (hnone : s.nextWalk t = none) (hwalks : s.tiles[t].walks ≠ []) :
    exec (.pageWalkEnd t) s = .next (s.count64 (Reg.tileCntWalkwait t)) := by
  refine (if_neg (by simp [hal])).trans ?_
  rw [hnone]
  refine congrArg Host.Outcome.next (if_neg ?_)
  rwa [List.isEmpty_iff]

theorem exec_pageWalkEnd_entry {e : TlbEntry} (hal : s.alive = true) (hw : s.nextWalk t = some w)
    (hend : (s.walkTaken t w).walkFor (s.walkTaken t w).tiles[t] w.vaddr w.store = (.entry e, s2)) :
    exec (.pageWalkEnd t) s = .next (s2.modTile t (fun tl => tl.tlbPut e)) := by
  refine (if_neg (by simp [hal])).trans ?_
  rw [hw]
  unfold State.walkTaken at hend
  dsimp only
  rw [hend]

theorem exec_pageWalkEnd_fault {lost : Bool} (hal : s.alive = true) (hw : s.nextWalk t = some w)
    (hend : (s.walkTaken t w).walkFor (s.walkTaken t w).tiles[t] w.vaddr w.store = (.fault lost, s2)) :
    exec (.pageWalkEnd t) s = .next ((if lost then s2.degradeTag (s.tiles[t].walkTag w) else s2).walkFault t w) := by
  refine (if_neg (by simp [hal])).trans ?_
  rw [hw]
  unfold State.walkTaken at hend
  dsimp only
  rw [hend]
  unfold State.walkFault
  dsimp only
  generalize (if lost = true then s2.degradeTag (s.tiles[t].walkTag w) else s2) = s3
  cases w.seq with
  | some q => rfl
  | none =>
    dsimp only
    split
    · rfl
    · split <;> rfl

/-- The entry put last in a TLB is its newest. -/
theorem Tile.tlbPut_getLast (tl : Tile) (e : TlbEntry) : (tl.tlbPut e).tlb.getLast? = some e := List.getLast?_concat

end

/-- Settles O23: a request served is the oldest that holds a slot (log 127), each command that finds one waiting counts once (log 56), and a
walk that faults for a prefetched row leaves the row out (log 38). -/
theorem unitResponses : Obligations.UnitResponses := by
  refine ⟨fun s t i hal => ⟨fun q hq => ⟨exec_gatherResponse_waits hal hq, fun hhome hlook hlost hremote => ?served⟩,
    fun q hq => exec_dreyLookup hal hq, fun p k h hx => exec_prefetchRowLand hal hx,
    fun q hq hremote hlost hvec htag _ _ harea hbad hsoft => ?load⟩, fun s t w hal => ⟨exec_pageWalkEnd_waits hal, fun hw =>
      ⟨fun e s2 hend => ⟨exec_pageWalkEnd_entry hal hw hend, Tile.tlbPut_getLast _ e⟩, fun lost s2 hend => ?fault⟩⟩⟩
  case served =>
    have hserved := exec_gatherResponse_served hal hq hhome hlook hlost hremote
    refine ⟨hserved, fun hdrop => ?_⟩
    rw [hserved, State.serveReq, if_pos hdrop]
    rfl
  case load =>
    rw [exec_deviceLoadReturn_local hal hq hremote hlost, s.tileRead_clean harea hbad hsoft, State.loadLand_core htag hvec]
  case fault =>
    have hfault := exec_pageWalkEnd_fault hal hw hend
    refine ⟨fun q hseq => ?_, fun hseq hpf => ?_, fun hseq hpf hruns => ?_⟩
    · rw [hfault, State.walkFault, hseq]
    · rw [hfault, State.walkFault, hseq, hpf]
      rfl
    · rw [hfault, State.walkFault, hseq, hpf]
      exact congrArg Host.Outcome.next (if_pos hruns)

end Sys2Proof.Machine
end

section
/-! SUPPORT. Device memory that holds no error, written byte by byte (R424): what a line of the store buffer and the pieces of a scattered
row make of it. With it the statement on accepted entries. -/

namespace Sys2Proof.Machine

/-! ### Bytes of memory -/

section
variable (m : Mem) (a : Nat)

theorem Mem.byte_setByte_self (v : Byte) : (m.setByte a v).byte a = v := by
  have hclean : (m.setByte a v).l2Dirty.find? (fun c => c.1 == a) = none := by simp [Mem.setByte]
  rw [Mem.byte, hclean]
  exact spGet_set_self _ _ _

theorem Mem.byte_setByte_ne (v : Byte) {k : Nat} (h : k ≠ a) : (m.setByte a v).byte k = m.byte k := by
  have hdirty : (m.setByte a v).l2Dirty.find? (fun c => c.1 == k) = m.l2Dirty.find? (fun c => c.1 == k) := by
    rw [Mem.setByte, List.find?_filter]
    congr 1
    funext c
    by_cases hc : c.1 = k <;> simp [hc, h]
  have hcell : spGet (m.setByte a v).dflt (m.setByte a v).cells k = spGet m.dflt m.cells k := spGet_set_ne _ _ h
  rw [Mem.byte, hdirty, hcell, Mem.byte]

/-- Bytes of a line put over those of memory, each at its offset. -/
def Mem.putCells (m : Mem) (a : Nat) (cs : List Host.Cell) : Mem := cs.foldl (fun m c => m.setByte (a + c.1) c.2) m

theorem Mem.byte_putCells_ne {cs : List Host.Cell} {k : Nat} (h : ∀ c ∈ cs, k ≠ a + c.1) : (m.putCells a cs).byte k = m.byte k := by
  induction cs generalizing m with
  | nil => rfl
  | cons c r ih =>
    obtain ⟨hc, hr⟩ := List.forall_mem_cons.1 h
    exact (ih _ hr).trans (m.byte_setByte_ne _ _ hc)

/-- Each byte put reads as put, where no two have one offset. -/
theorem Mem.byte_putCells_mem {cs : List Host.Cell} (hcs : cs.Pairwise (fun x y => x.1 < y.1)) :
    ∀ c ∈ cs, (m.putCells a cs).byte (a + c.1) = c.2 := by
  induction cs generalizing m with
  | nil => simp
  | cons c r ih =>
    obtain ⟨hc, hr⟩ := List.pairwise_cons.1 hcs
    refine List.forall_mem_cons.2 ⟨?_, ih _ hr⟩
    refine (Mem.byte_putCells_ne (m.setByte (a + c.1) c.2) a fun y hy => ?_).trans (m.byte_setByte_self _ _)
    have := hc y hy
    omega

/-- Writing bytes makes and clears no error. -/
theorem Mem.putCells_errors (cs : List Host.Cell) : (m.putCells a cs).bad = m.bad ∧ (m.putCells a cs).soft = m.soft := by
  induction cs generalizing m with
  | nil => exact ⟨rfl, rfl⟩
  | cons c r ih => exact ih (m.setByte (a + c.1) c.2)

theorem Mem.setBytes_errors (bs : List Byte) : (m.setBytes a bs).bad = m.bad ∧ (m.setBytes a bs).soft = m.soft := by
  induction bs generalizing m a with
  | nil => exact ⟨rfl, rfl⟩
  | cons b r ih => exact ih (m.setByte a b) (a + 1)

end

/-- Without errors there is none to clear. -/
theorem Mem.filter_errors_clean {m : Mem} (hbad : m.bad = []) (hsoft : m.soft = []) (f : Nat × Bool → Bool) (g : Nat → Bool) :
    { m with bad := m.bad.filter f, soft := m.soft.filter g } = m := by
  obtain ⟨cells, bur, ddr, bad, soft, l2⟩ := m
  subst hbad hsoft
  rfl

/-! ### A line written by its ECC units (R424, R429) -/

/-- The bytes of a line that lie in its ECC unit `k`. -/
def unitCells (size : Nat) (cells : List Host.Cell) (k : Nat) : List Host.Cell :=
  cells.filter (fun c => decide (k * size ≤ c.1 ∧ c.1 < k * size + size))

theorem mem_unitCells {size : Nat} (hsize : 0 < size) {cells : List Host.Cell} {k : Nat} {c : Host.Cell} :
    c ∈ unitCells size cells k ↔ c ∈ cells ∧ c.1 / size = k := by
  have hunit : k * size ≤ c.1 ∧ c.1 < k * size + size ↔ c.1 / size = k := by
    rw [Nat.div_eq_iff hsize]
    omega
  rw [unitCells, List.mem_filter, decide_eq_true_eq, hunit]

/-- The bytes of some units of a line put over those of memory. -/
def Mem.putUnits (m : Mem) (a size : Nat) (cells : List Host.Cell) (ks : List Nat) : Mem :=
  ks.foldl (fun m k => m.putCells a (unitCells size cells k)) m

section
variable (m : Mem) (a : Nat) {size : Nat} {cells : List Host.Cell} {ks : List Nat}

theorem Mem.byte_putUnits_ne (hsize : 0 < size) {j : Nat} (h : ∀ c ∈ cells, c.1 / size ∈ ks → j ≠ a + c.1) :
    (m.putUnits a size cells ks).byte j = m.byte j := by
  induction ks generalizing m with
  | nil => rfl
  | cons k r ih =>
    refine (ih _ fun c hc hr => h c hc (List.mem_cons_of_mem _ hr)).trans (m.byte_putCells_ne a fun c hc => ?_)
    obtain ⟨hmem, hk⟩ := (mem_unitCells hsize).1 hc
    exact h c hmem (hk ▸ List.mem_cons_self)

theorem Mem.byte_putUnits_mem (hsize : 0 < size) (hcells : cells.Pairwise (fun x y => x.1 < y.1)) {c : Host.Cell} (hc : c ∈ cells)
    (hk : c.1 / size ∈ ks) : (m.putUnits a size cells ks).byte (a + c.1) = c.2 := by
  induction ks generalizing m with
  | nil => exact absurd hk List.not_mem_nil
  | cons k r ih =>
    by_cases hr : c.1 / size ∈ r
    · exact ih _ hr
    · have hlast : c.1 / size = k := (List.mem_cons.1 hk).resolve_right hr
      have hput : (m.putCells a (unitCells size cells k)).byte (a + c.1) = c.2 :=
        m.byte_putCells_mem a (hcells.filter _) c ((mem_unitCells hsize).2 ⟨hc, hlast⟩)
      refine (Mem.byte_putUnits_ne (m.putCells a (unitCells size cells k)) a hsize fun y _ hy heq => hr ?_).trans hput
      have hoff : c.1 = y.1 := by omega
      rwa [hoff]

end

section
variable {s : State}

/-- A line written to memory without errors: the bytes of all its units are put there. -/
theorem State.lineWrite_clean (hbad : s.mem.bad = []) (hsoft : s.mem.soft = []) (a : Nat) (cells : List Host.Cell) :
    s.lineWrite a cells = { s with mem := s.mem.putUnits a (eccSize a) cells (List.range (64 / eccSize a)) } := by
  unfold State.lineWrite
  dsimp only
  generalize List.range (64 / eccSize a) = ks
  induction ks generalizing s with
  | nil => rfl
  | cons k r ih =>
    obtain ⟨hb, hs⟩ := s.mem.putCells_errors a (unitCells (eccSize a) cells k)
    rw [hbad] at hb
    rw [hsoft] at hs
    refine Eq.trans (congrArg (List.foldl _ · r) ?_) (ih (s := { s with mem := s.mem.putCells a (unitCells (eccSize a) cells k) }) hb hs)
    change (if (unitCells (eccSize a) cells k).isEmpty = true then s else _) = _
    have hws : s.mem.badIn (a + k * eccSize a) (eccSize a) = [] := by rw [Mem.badIn, hbad, List.filter_nil]
    split
    · next hnone =>
      rw [List.isEmpty_iff.1 hnone]
      rfl
    · split
      · exact congrArg (fun m => ({ s with mem := m } : State)) (Mem.filter_errors_clean hb hs _ _)
      · rw [hws]
        exact State.countSoft_clean hs _ _

/-- Bytes written to memory without errors. -/
theorem State.memWrite_clean (hbad : s.mem.bad = []) (hsoft : s.mem.soft = []) (a : Nat) (bs : List Byte) :
    s.memWrite a bs = { s with mem := s.mem.setBytes a bs } := by
  have hmeets : s.mem.badIn a bs.length = [] := by rw [Mem.badIn, hbad, List.filter_nil]
  have hwhole : ∀ g, ({ s with mem := { s.mem with soft := s.mem.soft.filter g } } : State) = s := fun g => by
    rw [hsoft, List.filter_nil, ← hsoft]
  obtain ⟨hb, -⟩ := s.mem.setBytes_errors a bs
  have hcleared : ∀ f, { s.mem.setBytes a bs with bad := (s.mem.setBytes a bs).bad.filter f } = s.mem.setBytes a bs := fun f => by
    rw [hb, hbad, List.filter_nil, ← hbad, ← hb]
  unfold State.memWrite
  dsimp only
  rw [hmeets, List.filter_nil, hwhole, State.countSoft_clean hsoft]
  exact congrArg (fun m => ({ s with mem := m } : State)) (hcleared _)

end

/-! ### Entries accepted (R201, R315, R317) -/

/-- The package's own address of a device address is that address without the package's number. -/
theorem State.whereIs_here {s : State} {pa l : Nat} (h : s.whereIs pa = .here l) : l = pa % 2 ^ 42 := by
  unfold State.whereIs at h
  dsimp only at h
  split at h
  · exact (Where.here.inj h).symm
  · split at h <;> cases h

section
variable {s : State} {t : TileId} {i : Nat}

/-- An entry of the store buffer that lies in this package's memory leaves the buffer, and its bytes are written. -/
theorem exec_storeBufferAccept_here {e : SbEntry} {a : Nat} (hal : s.alive = true) (hheld : s.bondHeld t = false)
    (he : s.tiles[t].sb[i]? = some e) (hacc : e.accepted = false) (hline : ∀ x ∈ s.tiles[t].sb.take i, x.line ≠ e.line)
    (hloads : ∀ l ∈ s.tiles[t].loads, l.addr % 2 ^ 42 / 64 * 64 ≠ e.line % 2 ^ 42) (hhere : s.whereIs e.line = .here a)
    (harea : s.area a ≠ .pcie) :
    exec (.storeBufferAccept t i) s =
      .next (((s.modTile t (fun tl => { tl with sb := tl.sb.eraseIdx i })).lineWrite a e.bytes).settleFences t) := by
  have holder : (s.tiles[t].sb.take i).any (fun x => x.line == e.line) = false :=
    List.any_eq_false.2 fun x hx => by simpa using hline x hx
  have hload : s.tiles[t].loads.any (fun l => l.addr % 2 ^ 42 / 64 * 64 == e.line % 2 ^ 42) = false :=
    List.any_eq_false.2 fun l hl => by simpa using hloads l hl
  refine (if_neg (by simp [hal])).trans ?_
  dsimp only
  rw [he]
  refine (if_neg (by rw [hacc, hheld, holder, hload]; decide)).trans ?_
  rw [hhere]
  exact congrArg (fun x : State => Host.Outcome.next (x.settleFences t)) (if_neg harea)

/-- The pieces of a row in memory without errors are written one by one, and none goes to another package. -/
theorem State.foldl_scatPiece_here {parts : List (Nat × List Byte)} (hbad : s.mem.bad = []) (hsoft : s.mem.soft = [])
    (hhere : ∀ p ∈ parts, ∃ l, s.whereIs p.1 = .here l ∧ s.area l ≠ .pcie) :
    parts.foldl (fun (x : List Nat × State) p => (x.1 ++ (x.2.scatPiece p.1 p.2).1, (x.2.scatPiece p.1 p.2).2)) ([], s)
      = ([], parts.foldl (fun (x : State) p => x.memWrite (p.1 % 2 ^ 42) p.2) s) := by
  induction parts generalizing s with
  | nil => rfl
  | cons p r ih =>
    obtain ⟨⟨l, hl, harea⟩, hr⟩ := List.forall_mem_cons.1 hhere
    have hwrite := s.memWrite_clean hbad hsoft (p.1 % 2 ^ 42) p.2
    have hpiece : s.scatPiece p.1 p.2 = ([], s.memWrite (p.1 % 2 ^ 42) p.2) := by
      rw [State.scatPiece, hl, ← State.whereIs_here hl]
      exact congrArg (Prod.mk []) (if_neg harea)
    obtain ⟨hb, hs⟩ := s.mem.setBytes_errors (p.1 % 2 ^ 42) p.2
    rw [List.foldl_cons, List.foldl_cons, hpiece, hwrite]
    exact ih (hb.trans hbad) (hs.trans hsoft) hr

theorem exec_scatterEntryAccept_here {e : ScatEntry} (hal : s.alive = true) (hheld : s.bondHeld t = false)
    (he : s.tiles[t].scat[i]? = some e) (hacc : e.accepted = false)
    (hrow : ∀ x ∈ s.tiles[t].scat.take i, ¬ (x.table = e.table ∧ x.row = e.row))
    (hhere : ∀ p ∈ e.parts, ∃ l, s.whereIs p.1 = .here l ∧ s.area l ≠ .pcie) (hbad : s.mem.bad = []) (hsoft : s.mem.soft = []) :
    exec (.scatterEntryAccept t i) s =
      .next (((e.parts.foldl (fun (x : State) p => x.memWrite (p.1 % 2 ^ 42) p.2) s).modTile t
        (fun tl => { tl with scat := tl.scat.eraseIdx i })).settleFences t) := by
  have holder : (s.tiles[t].scat.take i).any (fun x => x.table == e.table && x.row == e.row) = false :=
    List.any_eq_false.2 fun x hx => by simpa using hrow x hx
  have hparts := State.foldl_scatPiece_here hbad hsoft hhere
  refine (if_neg (by simp [hal])).trans ?_
  dsimp only
  rw [he]
  refine (if_neg (by rw [hacc, hheld, holder]; decide)).trans ?_
  rw [hparts]
  rfl

end

/-- Settles O24: the entry gone, the units of its line are put in memory that holds no error, and then fences settle. -/
theorem acceptedEntries : Obligations.AcceptedEntries := by
  intro s t i a hal hheld
  refine ⟨fun e he hacc hline hloads hhere harea hbad hsoft hsorted hoff => ?_, fun e he hacc hrow hhere hbad hsoft =>
    exec_scatterEntryAccept_here hal hheld he hacc hrow hhere hbad hsoft⟩
  have hexec := exec_storeBufferAccept_here hal hheld he hacc hline hloads hhere harea
  obtain ⟨hrest, hother⟩ := s.modTile_only t (fun tl => { tl with sb := tl.sb.eraseIdx i })
  have hself := s.modTile_self t (fun tl => { tl with sb := tl.sb.eraseIdx i })
  generalize s.modTile t _ = gone at hexec hrest hother hself
  have hmem : gone.mem = s.mem := by rw [hrest]
  rw [← hmem] at hbad hsoft
  have hwrite := State.lineWrite_clean hbad hsoft a e.bytes
  generalize gone.lineWrite a e.bytes = w at hexec hwrite
  have hw : w.tiles[t] = { s.tiles[t] with sb := s.tiles[t].sb.eraseIdx i } := by rw [hwrite]; exact hself
  have hwmem : w.mem = s.mem.putUnits a (eccSize a) e.bytes (List.range (64 / eccSize a)) := by rw [hwrite, hmem]
  rw [State.settleFences_eq] at hexec
  have hsize : 0 < eccSize a ∧ ∀ c ∈ e.bytes, c.1 / eccSize a < 64 / eccSize a := by
    unfold eccSize
    split
    · exact ⟨by decide, fun c hc => by have := hoff c hc; omega⟩
    · exact ⟨by decide, fun c hc => by have := hoff c hc; omega⟩
  refine ⟨_, hexec, ?_, ?_, fun u hu => (State.modTile_ne _ _ hu).trans ?_, ?_, fun c hc => ?_, fun k hk => ?_⟩
  · rw [State.modTile_self, hw]
    rfl
  · rw [State.modTile_self, hw]
    rfl
  · rw [hwrite]
    exact hother u hu
  · rw [hwrite, hrest]
    rfl
  · rw [State.modTile_mem, hwmem]
    exact s.mem.byte_putUnits_mem a hsize.1 hsorted hc (List.mem_range.2 (hsize.2 c hc))
  · rw [State.modTile_mem, hwmem]
    exact s.mem.byte_putUnits_ne a hsize.1 fun c hc _ => hk c hc

end Sys2Proof.Machine
end

section
/-! SUPPORT. The entry of the exception handler (R211, R381, R455): the wait given back, the words of TILE_HSTAT and TILE_HEPC. With it the
statement on HANDLER_ENTRY. -/

namespace Sys2Proof.Machine

/-- The wait that the instruction of an exception had taken: counter and count (R381). -/
def ExcRec.taken (x : ExcRec) : Option (Nat × Nat) :=
  (x.entry.filter (·.consumed)).map (fun e => (e.args.wt.toNat, e.args.wc.toNat))

/-- TILE_HSTAT as the handler finds it (Table 11-6). -/
def ExcRec.hstat (x : ExcRec) : Nat :=
  1 + 2 * b2n (x.younger == 0 && !x.back) + 4 * b2n x.back + (x.taken.elim 0 fun w => 2 ^ 3 + 2 ^ 4 * w.1 + 2 ^ 8 * w.2)

/-- The machine with a wait given back to its counter. -/
def State.giveBack (s : State) (t : TileId) (w : Option (Nat × Nat)) : State := w.elim s fun w => (s.tokAdd t w.1 w.2).2

/-- The machine with the handler's words written, the wait given back first. -/
def State.handlerWords (s : State) (t : TileId) (x : ExcRec) : State :=
  ((s.giveBack t x.taken).put (Reg.tileHstat t) x.hstat).put64 (Reg.tileHepc t) (x.pc % 2 ^ 22)

section
variable {s : State} {t : TileId} {x : ExcRec}

theorem ExcRec.taken_none (h : ∀ e, x.entry = some e → e.consumed = false) : x.taken = none := by
  unfold ExcRec.taken
  cases hx : x.entry with
  | none => rfl
  | some e => simp [h e hx]

theorem ExcRec.taken_some {e : UEntry} (he : x.entry = some e) (hc : e.consumed = true) :
    x.taken = some (e.args.wt.toNat, e.args.wc.toNat) := by
  simp [ExcRec.taken, he, hc]

/-- The wait taken names one of 16 counters and a count below 16. -/
theorem ExcRec.taken_lt {k c : Nat} (h : x.taken = some (k, c)) : k < 16 ∧ c < 16 := by
  unfold ExcRec.taken at h
  obtain ⟨e, -, he⟩ := Option.map_eq_some_iff.1 h
  obtain ⟨rfl, rfl⟩ := Prod.mk.inj he
  exact ⟨e.args.wt.isLt, e.args.wc.isLt⟩

theorem b2n_le_one (b : Bool) : b2n b ≤ 1 := by cases b <;> decide

/-- TILE_HSTAT fits its word, and says that the handler runs. -/
theorem ExcRec.hstat_spec : x.hstat < 2 ^ 32 ∧ x.hstat % 2 = 1 := by
  have h1 := b2n_le_one (x.younger == 0 && !x.back)
  have h2 := b2n_le_one x.back
  unfold ExcRec.hstat
  cases hw : x.taken with
  | none => simp only [Option.elim_none]; omega
  | some w =>
    obtain ⟨hk, hc⟩ := ExcRec.taken_lt (k := w.1) (c := w.2) hw
    simp only [Option.elim_some]
    omega

/-- The core enters the handler once its tile is quiet: the words are written, and the PC is TILE_HVEC's. -/
theorem State.enterHandler_eq (hx : s.tiles[t].exc = some x) (hnot : s.bit (Reg.tileHstat t) 0 = false) (hwin : s.tiles[t].window = [])
    (hsb : ∀ e ∈ s.tiles[t].sb, e.accepted = true) (hscat : ∀ e ∈ s.tiles[t].scat, e.accepted = true) :
    ∃ rep, s.enterHandler t = (s.handlerWords t x).modTile t (fun tl =>
      { tl with pc := (s.handlerWords t x).fld (Reg.tileHvec t) 21 3 * 8, replay := rep }) := by
  have hstores : s.tiles[t].sb.any (fun e => !e.accepted) = false := List.any_eq_false.2 fun e he => by simp [hsb e he]
  have hrows : s.tiles[t].scat.any (fun e => !e.accepted) = false := List.any_eq_false.2 fun e he => by simp [hscat e he]
  unfold State.enterHandler
  dsimp only
  rw [hx]
  dsimp only
  rw [if_neg (Bool.eq_false_iff.1 hnot), hwin, hstores, hrows, if_neg (by decide), State.handlerWords, ExcRec.hstat]
  cases he : x.entry with
  | none =>
    rw [ExcRec.taken_none (x := x) (by simp [he])]
    exact ⟨_, rfl⟩
  | some e =>
    cases hc : e.consumed with
    | false =>
      rw [ExcRec.taken_none (x := x) (by simp [he, hc])]
      simp only [hc, Bool.false_eq_true, if_false]
      exact ⟨_, rfl⟩
    | true =>
      rw [ExcRec.taken_some he hc]
      simp only [hc, if_true]
      exact ⟨_, rfl⟩

/-- The words the handler finds, and the registers that stay: no wait is given back where the instruction had taken none. -/
theorem State.handlerWords_spec : (s.handlerWords t x).rd (Reg.tileHstat t) = x.hstat ∧ (s.handlerWords t x).rd64 (Reg.tileHepc t) = x.pc % 2 ^ 22
    ∧ RegsKept (s.giveBack t x.taken) (s.handlerWords t x) [Reg.tileHstat t, Reg.tileHepc t, Reg.tileHepc t + 4] := by
  have hne : Reg.tileHstat t ≠ Reg.tileHepc t ∧ Reg.tileHstat t ≠ Reg.tileHepc t + 4 := by unfold Reg.tileHstat Reg.tileHepc; omega
  refine ⟨?_, ?_, ((State.put_kept _ _ _).mono (by simp)).trans ((State.put64_kept _ _ _).mono (by simp))⟩
  · rw [State.handlerWords, State.rd_put64_ne _ _ hne.1 hne.2, State.rd_put_self, Nat.mod_eq_of_lt ExcRec.hstat_spec.1]
  · rw [State.handlerWords, State.rd64_put64]
    omega

theorem State.giveBack_spec (w : Option (Nat × Nat)) : s.giveBack t w = { s with regs := (s.giveBack t w).regs }
    ∧ ∀ o, (∀ k c, w = some (k, c) → o ≠ Reg.tileToken t k) → o ≠ Reg.tileTokOvf t → (s.giveBack t w).rd o = s.rd o := by
  cases w with
  | none => exact ⟨rfl, fun _ _ _ => rfl⟩
  | some w =>
    obtain ⟨-, hkept, heq⟩ := s.tokAdd_spec t w.1 w.2
    exact ⟨heq, fun o htok hovf => hkept o (by simp [htok w.1 w.2 rfl, hovf])⟩

end

/-- Settles O25: the words are written, a wait taken goes back to its counter first, and the PC is TILE_HVEC's. -/
theorem handlerEntry : Obligations.HandlerEntry := by
  intro s t x hal hx hnot hwin hsb hscat base
  obtain ⟨rep, henter⟩ := State.enterHandler_eq hx hnot hwin hsb hscat
  have hexec : exec (.handlerEntry t) s = .next (s.enterHandler t) := if_neg (by simp [hal])
  obtain ⟨hstat, hepc, hkept⟩ := s.handlerWords_spec (t := t) (x := x)
  obtain ⟨hback, hbackRd⟩ := s.giveBack_spec (t := t) x.taken
  have hregs : s.handlerWords t x = { s with regs := (s.handlerWords t x).regs } := by
    rw [State.handlerWords, hback]
    rfl
  have htiles : (s.handlerWords t x).tiles = s.tiles := by rw [hregs]
  have hvec : (s.handlerWords t x).rd (Reg.tileHvec t) = s.rd (Reg.tileHvec t) := by
    refine (hkept _ ?_).trans (hbackRd _ (fun k c hw => ?_) ?_)
    · simp only [List.mem_cons, List.not_mem_nil, or_false]
      unfold Reg.tileHvec Reg.tileHstat Reg.tileHepc
      omega
    · have hk := (ExcRec.taken_lt hw).1
      unfold Reg.tileHvec Reg.tileToken
      omega
    · unfold Reg.tileHvec Reg.tileTokOvf
      omega
  rw [henter] at hexec
  refine ⟨_, hexec, ?runs, ?pc, hepc, ?rest, ?tile, fun v hv => ?other, fun hfree => ?free, fun e he hc => ?taken⟩
  case runs =>
    change bitN ((s.handlerWords t x).rd (Reg.tileHstat t)) 0 = true
    rw [hstat, bitN_eq, Nat.testBit_zero, ExcRec.hstat_spec.2]
    rfl
  case pc =>
    rw [State.modTile_self]
    exact congrArg (fun w => bitsN w 21 3 * 8) hvec
  case rest =>
    rw [hregs]
    rfl
  case tile => rw [State.modTile_self, htiles]
  case other => rw [State.modTile_ne _ _ hv, htiles]
  case free =>
    have hnone := ExcRec.taken_none hfree
    rw [hnone] at hkept
    refine ⟨hstat.trans ?_, hkept⟩
    rw [ExcRec.hstat, hnone]
    rfl
  case taken =>
    have hsome := ExcRec.taken_some he hc
    obtain ⟨htok, htokRegs, -⟩ := s.tokAdd_spec t e.args.wt.toNat e.args.wc.toNat
    rw [hsome] at hkept
    have hk := e.args.wt.isLt
    have hfree : Reg.tileToken t e.args.wt.toNat ∉ [Reg.tileHstat t, Reg.tileHepc t, Reg.tileHepc t + 4] := by
      simp only [List.mem_cons, List.not_mem_nil, or_false]
      unfold Reg.tileToken Reg.tileHstat Reg.tileHepc
      omega
    refine ⟨hstat.trans ?_, (hkept.tok hfree).trans htok, (htokRegs.mono (by simp)).trans (hkept.mono (by simp))⟩
    rw [ExcRec.hstat, hsome]
    simp only [Option.elim_some]
    omega

end Sys2Proof.Machine
end

section
/-! SUPPORT. What remains of the scheduler's and the tiles' own events (R218, R377, R553, R554, R586, R591) beside their effects above, and
with it the statement on them, on program checks and on shards. -/

namespace Sys2Proof.Machine

section
variable {s s1 : State} {t : TileId}

/-- A tile that may not wake now gets no item. -/
theorem exec_itemDispatch_asleep {e : Epoch} {p : ProgInfo} {i : Nat} {d : ItemDesc} (hal : s.alive = true) (hg : 2 ≤ s.gaitN)
    (htr : s.gait.trans = .none) (hnext : s.dispatchRead.nextTagged = some (e, p, i, t, d))
    (hwake : s.dispatchRead.wakeTile t = (false, s1)) : exec .itemDispatch s = .next s1 := by
  refine (if_neg (not_or_intro (Nat.not_lt.2 hg) (not_or_intro (not_not_intro htr) (not_not_intro hal)))).trans ?_
  unfold State.dispatchRead at hnext hwake
  dsimp only
  rw [hnext]
  dsimp only
  rw [hwake]
  rfl

theorem exec_itemDispatch_none (hal : s.alive = true) (hg : 2 ≤ s.gaitN) (htr : s.gait.trans = .none)
    (htagged : s.dispatchRead.nextTagged = none) (huntagged : s.dispatchRead.nextUntagged = none) :
    exec .itemDispatch s = .next s.dispatchRead.skipUnserved := by
  refine (if_neg (not_or_intro (Nat.not_lt.2 hg) (not_or_intro (not_not_intro htr) (not_not_intro hal)))).trans ?_
  unfold State.dispatchRead at htagged huntagged ⊢
  dsimp only
  rw [htagged]
  dsimp only
  rw [huntagged]

/-- Counting a tile's cycles leaves the gait and its transition as they are. -/
theorem State.countCycles_gait (s : State) (t : TileId) : (s.countCycles t).gaitN = s.gaitN ∧ (s.countCycles t).gait = s.gait := by
  refine ⟨congrArg (bitsN · 1 0) (s.countCycles_kept t _ ?_), rfl⟩
  simp only [List.mem_cons, List.not_mem_nil, or_false]
  unfold Reg.gaitStat Reg.tileCntCycles
  omega

/-- Canter is left once no tile is clocked or wakes, and no transition is under way (R553). -/
theorem State.leaveCanter_eq (s : State) : s.leaveCanter =
    if (∃ x ∈ s.tiles.toList, (x.clocked || x.waking) = true) ∨ s.gaitN ≠ 3 ∨ s.gait.trans ≠ .none then s
    else if s.drained then s.enterTrot else s.setTrans .canterToTrot false := by
  unfold State.leaveCanter
  simp only [List.any_eq_true]

theorem exec_tileClockGate (hal : s.alive = true) (hclk : s.tiles[t].clocked = true) (hidle : s.tiles[t].isIdle = true)
    (hend : s.tiles[t].ended = []) (hhand : s.inHandler t = false) (hexc : s.tiles[t].exc = none) :
    exec (.tileClockGate t) s = .next
      (((s.at_ (max s.tiles[t].idleSince s.tiles[t].lastRetire + 1000 * s.rd Reg.gaitTileIdle)).countCycles t).modTile t
        (fun tl => { tl with clocked := false })).leaveCanter := by
  refine (if_neg (by simp [hal])).trans (if_neg ?_)
  simp only [hclk, hidle, hend, hhand, hexc]
  simp

theorem exec_tileWatchdogExpiry (hal : s.alive = true) (hclk : s.tiles[t].clocked = true) (hwork : s.tiles[t].hasWork = true)
    (hst : s.tileState t ≠ 4) :
    exec (.tileWatchdogExpiry t) s =
      .next (((s.at_ (s.tiles[t].lastRetire + 1000 * s.rd (Reg.tileWdog t))).count (Cnt.tileCntWdog t)).failTile t 1) :=
  (if_neg (by simp [hal])).trans (if_neg (not_or_intro (not_not_intro hclk) (not_or_intro (not_not_intro hwork) hst)))

/-- The patterns of a self-test leave no image in the tree unit (R591). -/
theorem State.overwritten_images (s : State) (t : TileId) : (s.overwritten t).tiles[t].nodes = [] ∧ (s.overwritten t).tiles[t].ladder = [] := by
  unfold State.overwritten
  dsimp only
  rw [State.putB_tiles, State.putB_tiles, State.modTile_self]
  exact ⟨rfl, rfl⟩

theorem State.rd_logPut_ne (s : State) {o : Nat} (ho : o < 0xA0000) (hseq : o ≠ Reg.evtLogSeq) (n frm w4 data : Nat) :
    (s.logPut n frm w4 data).rd o = s.rd o := by
  have hword : ∀ i k, o ≠ logWord i k ∧ o ≠ logWord i k + 4 := fun i k => by unfold logWord; omega
  simp [State.logPut, hseq, hword]

/-- A log entry changes the words of the log, its sequence number and its count of entries overwritten. -/
theorem State.rd_logEvent_ne (s : State) {o : Nat} (ho : o < 0xA0000) (hseq : o ≠ Reg.evtLogSeq) (hovwr : o ≠ Reg.evtLogOvwr)
    (hovf : o ≠ Reg.evtOvf) (code unit src data : Nat) : (s.logEvent code unit src data).rd o = s.rd o := by
  have hword : o ≠ logWord ((s.rd Reg.evtLogSeq + 4095) % 4096) 5 := by unfold logWord; omega
  have hcount : (if 4096 ≤ s.log.used then s.count Cnt.evtLogOvwr else s).rd o = s.rd o := by
    split
    · exact s.rd_count_ne _ 1 hovwr hovf
    · rfl
  unfold State.logEvent
  dsimp only
  split
  · rw [State.rd_putF_ne _ _ _ _ hword]
  · generalize hp : State.logPut _ _ _ _ _ = p
    have hrd : p.rd o = s.rd o := by rw [← hp, State.rd_logPut_ne _ ho hseq, hcount]
    exact hrd

/-- The self-test's end leaves the tree unit without images, and a tile that passes out of quarantine. -/
theorem exec_tileSelfTestEnd_images (hal : s.alive = true) (htest : s.tiles[t].selfTest = true) (ok : Bool) :
    ∃ s', exec (.tileSelfTestEnd t ok) s = .next s' ∧ s'.tiles[t].selfTest = false ∧ s'.tileState t = (if ok then 1 else s.tileState t)
      ∧ s'.tiles[t].nodes = [] ∧ s'.tiles[t].ladder = [] ∧ (ok = true → s'.bit Reg.evtQuarStat t = false) := by
  obtain ⟨s', hexec, hself, hstate, -⟩ := exec_tileSelfTestEnd_spec hal htest ok
  obtain ⟨hnodes, hladder⟩ := s.overwritten_images t
  refine ⟨s', hexec, hself, hstate, ?_⟩
  have hs' := Host.Outcome.next.inj (hexec.symm.trans (exec_tileSelfTestEnd ok hal htest))
  cases ok with
  | false =>
    rw [if_neg (by decide)] at hs'
    rw [hs', State.logEvent_eq]
    exact ⟨hnodes, hladder, nofun⟩
  | true =>
    rw [if_pos rfl] at hs'
    obtain ⟨-, -, ⟨m, hmgmt⟩, -⟩ := (s.overwritten t).setTileState_frame t 1
    have htile : s'.tiles[t] = { (s.overwritten t).tiles[t] with mgmt := m } := by
      rw [hs', State.logEvent_eq]
      exact hmgmt
    refine ⟨by rw [htile]; exact hnodes, by rw [htile]; exact hladder, fun _ => ?_⟩
    rw [hs', State.bit, State.rd_logEvent_ne _ (by decide) (by decide) (by decide) (by decide)]
    exact (State.bit_putB _ false t.isLt t).trans (if_pos rfl)

end

/-- What the end of a program check leaves of its buffer's record, and of the tiles. -/
theorem State.checkEnds_record (s : State) (k : Fin 2) (step : Nat) (info : Option ProgInfo) :
    (s.checkEnds k step info).sched.progs[k] = (if step = 0 then info else none) ∧ (s.checkEnds k step info).tiles = s.tiles := by
  refine ⟨?_, rfl⟩
  change (s.sched.progs.set k _)[k] = _
  simp

/-- A switched shard is applied once no tile has a request out to its old homes. -/
theorem exec_shardSwitchApplied {s : State} {k : Fin 16} {h : Fin 64} (hal : s.alive = true) (hsw : (s.shardAt k h).switching = true)
    (hout : ∀ u : TileId, s.tiles[u].asksHome k (s.shardAt k h).old = false) :
    let s1 := s.modShard k h (fun x => { x with switching := false, old := [] })
    exec (.shardSwitchApplied k h) s = .next ((s1.setShard k h (s1.fld (Reg.hrdShdState k h) 0 0 + 2)).bumpVersion k) := by
  have hnone : s.tiles.toList.any (fun tl => tl.asksHome k (s.shardAt k h).old) = false := by
    rw [List.any_eq_false]
    intro tl htl
    obtain ⟨i, hi, rfl⟩ := Vector.mem_iff_getElem.1 (Vector.mem_toList_iff.1 htl)
    simpa using hout ⟨i, hi⟩
  exact (if_neg (by simp [hal])).trans (if_neg (by simp [hsw, hnone]))

/-- The windows of all shards end, and the window's number moves on. -/
theorem exec_shardLoadWindow {s : State} (hal : s.alive = true) :
    exec .shardLoadWindow s = .next (((s.at_ ((s.rd Reg.hrdWinNum + 1) * 1000000000)).shardWindows 1024).put Reg.hrdWinNum
      (s.rd Reg.hrdWinNum + 1)) := by
  obtain ⟨hnum, -⟩ := (s.at_ ((s.rd Reg.hrdWinNum + 1) * 1000000000)).rd_shardWindows (le_refl 1024)
  have hexec : exec .shardLoadWindow s = .next (((s.at_ ((s.rd Reg.hrdWinNum + 1) * 1000000000)).shardWindows 1024).put Reg.hrdWinNum
      (((s.at_ ((s.rd Reg.hrdWinNum + 1) * 1000000000)).shardWindows 1024).rd Reg.hrdWinNum + 1)) := if_neg (by simp [hal])
  rw [hexec, hnum]
  rfl

/-- Settles O51: each event, its condition met, has its effect; items no tile serves are passed over and unreadable ones lost first (log
49). -/
theorem schedulerEvents : Obligations.SchedulerEvents := by
  refine ⟨fun s hal => ⟨fun hg htr => ?dispatch, fun t => ?tile⟩, fun s hal => ⟨fun b => ?check,
    fun k h hsw hout => exec_shardSwitchApplied hal hsw hout, exec_shardLoadWindow hal⟩⟩
  case dispatch =>
    exact ⟨fun e p i t d s1 hnext => ⟨exec_itemDispatch_tagged hal hg htr hnext, exec_itemDispatch_asleep hal hg htr hnext⟩,
      exec_itemDispatch_none hal hg htr⟩
  case tile =>
    refine ⟨fun w => exec_itemComplete hal, fun hwake => ?_, fun hclk hidle hend hhand hexc => ?_, exec_tileWatchdogExpiry hal,
      exec_tileSelfTestEnd_images hal, fun hidle => (if_neg (by simp [hal])).trans (if_neg (Bool.eq_false_iff.1 hidle)),
      fun hbusy => (if_neg (by simp [hal])).trans (if_pos hbusy)⟩
    · exact (if_neg (by simp [hal])).trans (if_neg (not_not_intro hwake))
    · intro s1
      obtain ⟨hgait, hrec⟩ := (s.at_ (max s.tiles[t].idleSince s.tiles[t].lastRetire + 1000 * s.rd Reg.gaitTileIdle)).countCycles_gait t
      have hgait1 : s1.gaitN = s.gaitN := hgait
      have hrec1 : s1.gait = s.gait := hrec
      have hexec : exec (.tileClockGate t) s = .next s1.leaveCanter := exec_tileClockGate hal hclk hidle hend hhand hexc
      rw [hexec, s1.leaveCanter_eq, hgait1, hrec1]
  case check =>
    intro k hchk
    obtain ⟨hdone, -, -, hvalid⟩ :=
      (s.checkProgram k.val).2.2.checkEnds_spec k (s.checkProgram k.val).1 (s.checkProgram k.val).2.1
    obtain ⟨hprog, htiles⟩ := (s.checkProgram k.val).2.2.checkEnds_record k (s.checkProgram k.val).1 (s.checkProgram k.val).2.1
    exact ⟨_, _, _, _, rfl, exec_programCheckEnd b hal hchk, hprog, hdone, hvalid, htiles⟩

end Sys2Proof.Machine
end

section
/-! SUPPORT. The integer accumulator of an array (R244): two's complement patterns, and one product added. With it the statement on exact
accumulation. -/

namespace Sys2Proof.Machine

/-! ### Two's complement -/

/-- A number of the two's complement range of `w + 1` bits is what its pattern reads as. -/
theorem sint_unsint {w : Nat} {i : Int} (hlo : -2 ^ w ≤ i) (hhi : i < 2 ^ w) : sint (w + 1) (unsint (w + 1) i) = i := by
  have hpow : ((2 ^ w : Nat) : Int) = 2 ^ w := by norm_cast
  simp only [sint, unsint, Nat.add_sub_cancel, pow_succ]
  generalize (2 : Int) ^ w = p at *
  generalize 2 ^ w = q at *
  subst hpow
  rcases lt_or_ge i 0 with hneg | hnonneg
  · have hmod : i % (q * 2) = i + q * 2 := by rw [← Int.add_emod_right, Int.emod_eq_of_lt] <;> omega
    rw [hmod, Nat.mod_eq_of_lt (by omega), if_neg (by omega)]
    omega
  · rw [Int.emod_eq_of_lt hnonneg (by omega), Nat.mod_eq_of_lt (by omega), if_pos (by omega)]
    omega

/-- A word of `w + 1` bits is the pattern of the number it reads as. -/
theorem unsint_sint {w n : Nat} (hn : n < 2 ^ (w + 1)) : unsint (w + 1) (sint (w + 1) n) = n := by
  have hpow : ((2 ^ w : Nat) : Int) = 2 ^ w := by norm_cast
  rw [pow_succ] at hn
  simp only [sint, unsint, Nat.add_sub_cancel, pow_succ]
  generalize (2 : Int) ^ w = p at *
  generalize 2 ^ w = q at *
  subst hpow
  rw [Nat.mod_eq_of_lt hn]
  split
  · rw [Int.emod_eq_of_lt] <;> omega
  · rw [Int.sub_emod_right, Int.emod_eq_of_lt] <;> omega

/-- A number within the bounds is held as it is. -/
theorem clampI_of_mem {lo hi i : Int} (hlo : lo ≤ i) (hhi : i ≤ hi) : clampI lo hi i = i := by
  rw [clampI, if_neg (Int.not_lt.2 hlo), if_neg (Int.not_lt.2 hhi)]

/-! ### A column's sum -/

/-- A last product that keeps the sum within 32 bits is added exactly and not counted as a saturation. -/
theorem sumInt_concat {acc : Nat} {xs : List (Nat × Nat)} {e : Nat × Nat} {w : Nat → Int} {v : Int}
    (hv : sint 32 (sumInt acc xs w).1 + sint 8 e.2 * w e.1 = v) (hlo : -2 ^ 31 ≤ v) (hhi : v < 2 ^ 31) :
    sumInt acc (xs ++ [e]) w = (unsint 32 v, (sumInt acc xs w).2) := by
  have hclamp : clampI (-2 ^ 31) (2 ^ 31 - 1) v = v := clampI_of_mem hlo (Int.le_sub_one_of_lt hhi)
  rw [sumInt, List.foldl_concat, ← sumInt]
  simp only [hv, hclamp, if_pos]

/-- Settles O22, by induction on the column from its last product: the word so far reads as the exact partial sum, and the next partial
sum fits. -/
theorem accumulatorExact : Obligations.AccumulatorExact := by
  intro xs w acc hacc hfit
  induction xs using List.reverseRecOn with
  | nil => simp [sumInt, unsint_sint hacc]
  | append_singleton xs e ih =>
    have hprefix : sumInt acc xs w = (unsint 32 (sint 32 acc + (xs.map (fun e => sint 8 e.2 * w e.1)).sum), 0) := by
      refine ih fun n hn => ?_
      simpa only [List.take_append_of_le_length hn] using hfit n (by rw [List.length_append]; omega)
    obtain ⟨hlo, hhi⟩ := hfit xs.length (by simp)
    obtain ⟨hlo', hhi'⟩ := hfit (xs ++ [e]).length le_rfl
    rw [List.take_left] at hlo hhi
    rw [List.take_length] at hlo' hhi'
    have hread : sint 32 (sumInt acc xs w).1 = sint 32 acc + (xs.map (fun e => sint 8 e.2 * w e.1)).sum := by
      rw [hprefix, sint_unsint hlo hhi]
    rw [sumInt_concat (by rw [hread, List.map_append, List.sum_append]; simp [add_assoc]) hlo' hhi', hprefix]

end Sys2Proof.Machine
end

section
/-! SUPPORT. A member of a SWAP that arms (R251, R253, R405): the window entry that comes of it, and what SWAP_ARM makes of the head of an
array's queue. With it the statement on SWAP_ARM. -/

namespace Sys2Proof.Machine

/-- The window entry of an instruction after a change of it that keeps its place in the order. -/
theorem Tile.find_modU {tl : Tile} {seq : Nat} {f : UEntry → UEntry} {u : UEntry} (hf : ∀ e, (f e).seq = e.seq)
    (hu : tl.window.find? (fun e => e.seq == seq) = some u) : (tl.modU seq f).window.find? (fun e => e.seq == seq) = some (f u) := by
  have hkeep : (fun e : UEntry => e.seq == seq) ∘ (fun e => if e.seq = seq then f e else e) = fun e => e.seq == seq := by
    funext e
    by_cases he : e.seq = seq <;> simp [he, hf]
  have hseq : u.seq = seq := by simpa using List.find?_some hu
  rw [Tile.modU, List.find?_map, hkeep, hu, Option.map_some, if_pos hseq]

/-- A SWAP that neither an exception nor a pass still to take its swap holds back. -/
theorem Tile.swap_unheld {tl : Tile} {u : UEntry} {q : Nat} (hop : u.op = .swap) (hblk : tl.blocked u = false) (hdue : tl.swapDue q = false) :
    ¬ (u.op ≠ .swap ∨ tl.blocked u ∨ tl.swapDue q) := by
  simp [hop, hblk, hdue]

/-- Array `a` arms for the SWAP of number `seq`, which has armed there from then on. -/
def State.armFor (s : State) (t : TileId) (a : Fin 4) (seq : Nat) : State :=
  s.modTile t (fun tl => (tl.modArr a.val (fun r => { r with armed := true })).modU seq (fun e => { e with armed := a.val :: e.armed }))

section
variable {s : State} {t : TileId} {a : Fin 4} {u : UEntry}

/-- The entry of a SWAP that has armed at one more array. -/
theorem State.entry_armFor {seq : Nat} (he : s.entry t seq = some u) :
    (s.armFor t a seq).entry t seq = some { u with armed := a.val :: u.armed } := by
  rw [State.entry, State.armFor, State.modTile_self]
  exact Tile.find_modU (f := fun e => { e with armed := a.val :: e.armed }) (fun _ => rfl) he

/-- The entry found by an instruction's number bears that number. -/
theorem State.seq_of_entry {seq : Nat} (he : s.entry t seq = some u) : u.seq = seq := by
  simpa using List.find?_some he

/-- Array `a` arms for a SWAP, which retires where that was the last array it names. -/
def State.armMember (s : State) (t : TileId) (a : Fin 4) (u : UEntry) : State :=
  let s2 := s.armFor t a u.seq
  let u2 := (s2.entry t u.seq).getD u
  if u2.queues.all (fun k => u2.armed.contains k) then s2.retireU t u2 0 else s2

/-- What SWAP_ARM does with a SWAP whose wait is taken: a complete shadow bank arms, one being loaded is waited for, and any other is a
load fault. -/
def State.swapWaited (s : State) (t : TileId) (a : Fin 4) (u : UEntry) : State :=
  if s.tiles[t].arr[a].shadow.full then s.armMember t a u
  else if s.tiles[t].loading a.val then s.count64 (Reg.tileArrCntSwapwait t a)
  else s.startFault t u .load 0

section
variable (hal : s.alive = true) (hhead : s.tiles[t].head a.val = some u) (hop : u.op = .swap) (hblk : s.tiles[t].blocked u = false)
  (hdue : s.tiles[t].swapDue a.val = false)
include hal hhead hop hblk hdue

/-- SWAP_ARM at a SWAP that nothing holds back, while an armed swap stands. -/
theorem exec_swapArm_armed (harm : s.tiles[t].arr[a].armed = true) : exec (.swapArm t a) s = .next (s.raiseU t ⟨.illegal, 0⟩ u) := by
  refine (if_neg (by simp [hal])).trans ?_
  rw [hhead]
  exact (if_neg (Tile.swap_unheld hop hblk hdue)).trans (if_pos harm)

/-- With no armed swap the wait comes next, and what follows it. -/
theorem exec_swapArm_unarmed (harm : s.tiles[t].arr[a].armed = false) : exec (.swapArm t a) s =
    .next (((s.takeWait t u a.val).map fun s1 => s1.swapWaited t a ((s1.entry t u.seq).getD u)).getD (s.count64 (Reg.tileCntTokwait t))) := by
  refine (if_neg (by simp [hal])).trans ?_
  rw [hhead]
  refine (if_neg (Tile.swap_unheld hop hblk hdue)).trans ((if_neg (Bool.eq_false_iff.1 harm)).trans ?_)
  cases s.takeWait t u a.val with
  | none => rfl
  | some s1 =>
    rw [Option.map_some, Option.getD_some, State.swapWaited, apply_ite Host.Outcome.next, apply_ite Host.Outcome.next]
    rfl

end

/-- Whether the SWAP retires shows in its entry before this array has armed. -/
theorem State.armMember_eq (he : s.entry t u.seq = some u) :
    s.armMember t a u = if u.queues.all (fun k => (a.val :: u.armed).contains k)
      then (s.armFor t a u.seq).retireU t { u with armed := a.val :: u.armed } 0 else s.armFor t a u.seq := by
  rw [State.armMember, State.entry_armFor he]
  rfl

end

/-- Settles O20: an armed swap that stands comes first, then the wait, then the shadow bank; a command that finds the SWAP waiting counts
one stall (log 56), and the pass that is to take an armed swap has done so (log 119). -/
theorem swapArms : Obligations.SwapArms := by
  intro s t a u hal hhead hop hblk hdue
  refine ⟨exec_swapArm_armed hal hhead hop hblk hdue, fun harm hw => ?_, fun u1 s1 harm hw he => ?_⟩
  · rw [exec_swapArm_unarmed hal hhead hop hblk hdue harm, hw]
    rfl
  · have hexec : exec (.swapArm t a) s = .next (s1.swapWaited t a u1) := by
      rw [exec_swapArm_unarmed hal hhead hop hblk hdue harm, hw, Option.map_some, he]
      rfl
    have he1 : s1.entry t u1.seq = some u1 := by rw [State.seq_of_entry he, he]
    refine ⟨fun hfull => ?_, fun hempty => by rw [hexec, State.swapWaited, if_neg (Bool.eq_false_iff.1 hempty)]⟩
    rw [State.swapWaited, if_pos hfull, State.armMember_eq he1] at hexec
    exact ⟨fun hsome => by rw [hexec, hsome]; rfl, fun hall => ⟨_, State.entry_armFor he1, by rw [hexec, hall]; rfl⟩⟩

end Sys2Proof.Machine
end

section
/-! SUPPORT. The instruction words of Berbo (Tables 11-2, 11-3, 12-1 and 12-3): a word is its fields side by side, so it is known by them;
CLASS and OP name one mnemonic each way. With them the statements on words and commands. -/

namespace Sys2Proof

/-! ### Words and their fields -/

section
variable {c c' o o' : BitVec 6}

/-- Words side by side are equal just where their parts are. -/
theorem bitVec_append_inj {m n : Nat} {x x' : BitVec m} {y y' : BitVec n} : x ++ y = x' ++ y' ↔ x = x' ∧ y = y' := by
  refine ⟨fun h => ⟨?_, ?_⟩, fun ⟨hx, hy⟩ => by rw [hx, hy]⟩
  · have hhigh := congrArg (BitVec.extractLsb' n m) h
    rwa [BitVec.extractLsb'_append_eq_left, BitVec.extractLsb'_append_eq_left] at hhigh
  · have hlow := congrArg (BitVec.extractLsb' 0 n) h
    rwa [BitVec.extractLsb'_append_eq_right, BitVec.extractLsb'_append_eq_right] at hlow

theorem wordCc_inj {a a' : CcArgs} : wordCc c o a = wordCc c' o' a' ↔ c = c' ∧ o = o' ∧ a = a' := by
  -- the word's width as the sum of its fields'
  change @Eq (BitVec (6 + 6 + 2 + 3 + 5 + 5 + 5 + 32)) (wordCc c o a) (wordCc c' o' a') ↔ _
  cases a
  cases a'
  simp only [wordCc, bitVec_append_inj, CcArgs.mk.injEq, and_assoc]

theorem wordU_inj {a a' : UArgs} : wordU c o a = wordU c' o' a' ↔ c = c' ∧ o = o' ∧ a = a' := by
  change @Eq (BitVec (6 + 6 + 2 + 3 + 4 + 4 + 4 + 1 + 1 + 5 + 5 + 5 + 5 + 13)) (wordU c o a) (wordU c' o' a') ↔ _
  cases a
  cases a'
  simp only [wordU, bitVec_append_inj, BitVec.ofBool_eq_iff_eq, UArgs.mk.injEq, and_assoc]

theorem ofBool_getLsbD (w : W64) (k : Nat) : BitVec.ofBool (w.getLsbD k) = w.extractLsb' k 1 := by
  refine BitVec.eq_of_getLsbD_eq fun i hi => ?_
  obtain rfl : i = 0 := by omega
  simp

/-- The fields of Table 11-3 leave no bit of the word out. -/
theorem wordCc_readCc (w : W64) : wordCc (w.extractLsb' 58 6) (w.extractLsb' 52 6) (readCc w) = w := by
  simp (disch := decide) only [readCc, wordCc, BitVec.extractLsb'_append_extractLsb'_eq_extractLsb']
  exact BitVec.extractLsb'_eq_self

/-- Nor do those of Tables 11-2 and 12-1. -/
theorem wordU_readU (w : W64) : wordU (w.extractLsb' 58 6) (w.extractLsb' 52 6) (readU w) = w := by
  simp (disch := decide) only [readU, wordU, ofBool_getLsbD, BitVec.extractLsb'_append_extractLsb'_eq_extractLsb']
  exact BitVec.extractLsb'_eq_self

theorem berboDecode_wordCc (t : TileId) (a : CcArgs) (hc : c.toNat < 8) : berboDecode t (wordCc c o a) = ccOf t c.toNat o.toNat a := by
  obtain ⟨hcls, hop, hargs⟩ := wordCc_inj.1 (wordCc_readCc (wordCc c o a))
  simp only [berboDecode, hcls, hop, hargs, if_pos hc]

theorem berboDecode_wordU (t : TileId) (a : UArgs) (hc : ¬ c.toNat < 8) : berboDecode t (wordU c o a) = unitOf t c.toNat o.toNat a := by
  obtain ⟨hcls, hop, hargs⟩ := wordU_inj.1 (wordU_readU (wordU c o a))
  simp only [berboDecode, hcls, hop, hargs, if_neg hc]

end

/-! ### Mnemonics and their CLASS and OP (Table 12-3) -/

-- each lemma takes the row of the table that gave the answer, and looks it up in the other direction
section
variable {i : Instr} {t : TileId} {c o : BitVec 6}

theorem ccOf_of_ccWord {a : CcArgs} (h : ccWord i = some (t, c, o, a)) : c.toNat < 8 ∧ ccOf t c.toNat o.toNat a = some i := by
  unfold ccWord at h
  split at h <;> cases h
  all_goals exact ⟨by decide, rfl⟩

theorem unitOf_of_unitWord {a : UArgs} (h : unitWord i = some (t, c, o, a)) :
    ccWord i = none ∧ ¬ c.toNat < 8 ∧ unitOf t c.toNat o.toNat a = some i := by
  unfold unitWord at h
  split at h <;> cases h
  all_goals exact ⟨rfl, by decide, rfl⟩

theorem ccWord_of_ccOf {cls op : Nat} {a : CcArgs} (h : ccOf t cls op a = some i) :
    ccWord i = some (t, BitVec.ofNat 6 cls, BitVec.ofNat 6 op, a) := by
  unfold ccOf at h
  split at h <;> cases h
  all_goals rfl

theorem unitWord_of_unitOf {cls op : Nat} {a : UArgs} (h : unitOf t cls op a = some i) :
    unitWord i = some (t, BitVec.ofNat 6 cls, BitVec.ofNat 6 op, a) := by
  unfold unitOf at h
  split at h <;> cases h
  all_goals rfl

theorem berboEncode_of_ccWord {a : CcArgs} (h : ccWord i = some (t, c, o, a)) : berboEncode i = some (wordCc c o a) := by
  rw [berboEncode, h]

theorem berboEncode_of_unitWord {a : UArgs} (h : unitWord i = some (t, c, o, a)) : berboEncode i = some (wordU c o a) := by
  obtain ⟨hcc, -, -⟩ := unitOf_of_unitWord h
  rw [berboEncode, hcc, h]

end

/-- Settles O6: CLASS and OP name one mnemonic each way, CLASS alone tells a control-core word from a unit word, and a word is known by its
fields. -/
theorem berboRoundTrip : Obligations.BerboRoundTrip := by
  refine ⟨fun i t c o a h => ?cc, fun i t c o a h => ?unit, fun t w i h => ?word⟩
  case cc =>
    obtain ⟨hc, hof⟩ := ccOf_of_ccWord h
    exact ⟨_, berboEncode_of_ccWord h, (berboDecode_wordCc t a hc).trans hof⟩
  case unit =>
    obtain ⟨-, hc, hof⟩ := unitOf_of_unitWord h
    exact ⟨_, berboEncode_of_unitWord h, (berboDecode_wordU t a hc).trans hof⟩
  case word =>
    simp only [berboDecode] at h
    split at h
    · have hword : ccWord i = some (t, w.extractLsb' 58 6, w.extractLsb' 52 6, readCc w) := by
        simpa only [BitVec.ofNat_toNat, BitVec.setWidth_eq] using ccWord_of_ccOf h
      rw [berboEncode_of_ccWord hword, wordCc_readCc]
    · have hword : unitWord i = some (t, w.extractLsb' 58 6, w.extractLsb' 52 6, readU w) := by
        simpa only [BitVec.ofNat_toNat, BitVec.setWidth_eq] using unitWord_of_unitOf h
      rw [berboEncode_of_unitWord hword, wordU_readU]

/-- Settles O5: each word is read field by field and its CLASS and OP looked up. -/
theorem berboWords : Obligations.BerboWords :=
  ⟨rfl, rfl, rfl, rfl, rfl, rfl, rfl, rfl, rfl, rfl, rfl, rfl, rfl, rfl, fun _ => rfl, rfl, rfl⟩

end Sys2Proof
end

section
/-! SUPPORT. What a control-core instruction writes and where it goes (R365, R366, R392): RD, P[RD] and the PC. With it the statements on
what writing a register leaves alone and on branches and jumps. -/

namespace Sys2Proof.Machine

/-! ### RD and P[RD] -/

section
variable (s : State) (t : TileId) (a : CcArgs)

/-- Writing RD and passing is one change of the tile's record. -/
theorem State.setRd_eq (v : W64) :
    s.setRd t a v = s.modTile t (fun tl => { tl with g := (tl.setG a.rd.toNat v).g, pc := (tl.pc + 8) % 2 ^ 64, lastRetire := s.time }) := by
  rw [State.setRd, State.advance, State.modTile_modTile, State.modTile_time]
  congr 1
  funext tl
  rw [tl.setG_eq]

/-- Writing P[RD] and passing is one change of the tile's record. -/
theorem State.setPd_eq (b : Bool) : s.setPd t a b = s.modTile t (fun tl =>
    { tl with p := putBits tl.p (a.rd.toNat % 8) (a.rd.toNat % 8) (b2n b), pc := (tl.pc + 8) % 2 ^ 64, lastRetire := s.time }) := by
  rw [State.setPd, State.advance, State.modTile_modTile, State.modTile_time]

end

/-- One bit of a word written. -/
theorem bitN_putBit (n i k : Nat) (b : Bool) : bitN (putBits n i i (b2n b)) k = if k = i then b else bitN n k := by
  rw [bitN_putBits i.le_succ]
  by_cases hk : k = i
  · subst hk
    simp
  · rw [if_neg (by omega), if_neg hk]

/-- Settles O8: each write is one change of the tile's record, which leaves every other register of its file as it was. -/
theorem writeBackFrame : Obligations.WriteBackFrame := by
  intro s t a v b
  refine ⟨?_, fun hrd => ?_⟩
  · rw [s.setRd_eq t a v]
    refine ⟨fun k => ?_, by rw [State.modTile_self], s.modTile_only t _⟩
    rw [State.modTile_self]
    exact s.tiles[t].getG_setG a.rd.toNat k v a.rd.isLt
  · rw [s.setPd_eq t a b, Nat.mod_eq_of_lt hrd]
    refine ⟨fun k => ?_, by rw [State.modTile_self], s.modTile_only t _⟩
    rw [State.modTile_self]
    exact bitN_putBit _ _ _ _

/-! ### Branches and jumps (R366) -/

section
variable {s : State} {t : TileId} {a : CcArgs} {f : W64 → W64 → Bool} {p : Prop} [Decidable p]

/-- The machine with the PC of a tile at a target. -/
def State.goTo (s : State) (t : TileId) (w : W64) : State := s.modTile t (fun tl => { tl with pc := w.toNat, lastRetire := s.time })

/-- The machine with PC + 8 in a register and the PC of a tile at a target. -/
def State.linkTo (s : State) (t : TileId) (d : Nat) (w : W64) : State :=
  s.modTile t (fun tl => { tl.setG d (BitVec.ofNat 64 (tl.pc + 8)) with pc := w.toNat, lastRetire := s.time })

/-- A jump without a link to an aligned target. -/
theorem State.jump_none {w : W64} (h : w.toNat % 8 = 0) : s.jump t w none = s.goTo t w := by
  rw [State.jump, if_neg (not_not_intro h)]
  rfl

/-- A jump with a link. -/
theorem State.jump_link (w : W64) (d : Nat) :
    s.jump t w (some d) = if w.toNat % 8 = 0 then s.linkTo t d w else s.raiseC t .illegal w.toNat := by
  simp only [State.jump, State.modTile_modTile, State.modTile_time, ite_not]
  rfl

/-- A compare branch to an aligned target goes there where its condition holds. -/
theorem State.branch_aligned (hgo : CcGo s t a .both .other [a.rs1.toNat, a.rs2.toNat] []) (hal : (s.branchTo t a).toNat % 8 = 0)
    (hp : f (s.rs1 t a) (s.rs2 t a) = true ↔ p) :
    s.branch t a f = .next (if p then s.goTo t (s.branchTo t a) else s.advance t) := by
  rw [State.branch, State.ccIssue_go s _ hgo]
  simp only [hal, State.jump_none, hp, ne_eq, not_true_eq_false, if_false]

/-- The same of a branch whose condition is the failure of the one written. -/
theorem State.branch_aligned_not (hgo : CcGo s t a .both .other [a.rs1.toNat, a.rs2.toNat] []) (hal : (s.branchTo t a).toNat % 8 = 0)
    (hp : f (s.rs1 t a) (s.rs2 t a) = true ↔ ¬ p) :
    s.branch t a f = .next (if p then s.advance t else s.goTo t (s.branchTo t a)) := by
  rw [State.branch_aligned hgo hal hp, ite_not]

/-- A compare branch with a misaligned target raises, taken or not (log 33). -/
theorem State.branch_misaligned (hgo : CcGo s t a .both .other [a.rs1.toNat, a.rs2.toNat] []) (hal : (s.branchTo t a).toNat % 8 ≠ 0) :
    s.branch t a f = .next (s.raiseC t .illegal (s.branchTo t a).toNat) := by
  rw [State.branch, State.ccIssue_go s _ hgo]
  exact congrArg _ (if_pos hal)

end

section
variable (s : State) (t : TileId) (a : CcArgs)

theorem exec_beq : exec (.beq t a) s = s.branch t a (fun x y => x == y) := rfl
theorem exec_bne : exec (.bne t a) s = s.branch t a (fun x y => x != y) := rfl
theorem exec_blt : exec (.blt t a) s = s.branch t a (fun x y => x.slt y) := rfl
theorem exec_bge : exec (.bge t a) s = s.branch t a (fun x y => !(x.slt y)) := rfl
theorem exec_bltu : exec (.bltu t a) s = s.branch t a (fun x y => x.ult y) := rfl
theorem exec_bgeu : exec (.bgeu t a) s = s.branch t a (fun x y => !(x.ult y)) := rfl

end

/-- Settles O9: a compare branch checks its target first and then its condition; a jump checks its target and links. -/
theorem branchResults : Obligations.BranchResults := by
  intro s t a
  refine ⟨fun hgo => ⟨fun hal => ?aligned, fun hal => ?misaligned⟩, fun hgo => ?jal, fun hgo => ?jr⟩
  case aligned =>
    rw [exec_beq, exec_bne, exec_blt, exec_bge, exec_bltu, exec_bgeu]
    exact ⟨State.branch_aligned hgo hal beq_iff_eq, State.branch_aligned_not hgo hal bne_iff_ne,
      State.branch_aligned hgo hal BitVec.slt_iff_toInt_lt, State.branch_aligned_not hgo hal (by simp [BitVec.slt]),
      State.branch_aligned hgo hal BitVec.ult_iff_toNat_lt, State.branch_aligned_not hgo hal (by simp [BitVec.ult])⟩
  case misaligned =>
    simp only [List.forall_mem_cons, List.not_mem_nil, false_implies, implies_true, and_true, exec_beq, exec_bne, exec_blt, exec_bge,
      exec_bltu, exec_bgeu, State.branch_misaligned hgo hal]
  case jal =>
    have hexec : exec (.jal t a) s = execJal t a s := rfl
    rw [hexec, execJal, State.ccIssue_go s _ hgo, State.jump_link]
    rfl
  case jr =>
    have hexec : exec (.jr t a) s = execJr t a s := rfl
    rw [hexec, execJr, State.ccIssue_go s _ hgo, State.jump_link]
    rfl

end Sys2Proof.Machine
end

section
/-! SUPPORT. The checks of issue (R366, R368, R373): what a fetch fault, a reserved PMODE and a predicate that does not let issue make of
any Berbo instruction. With it the statement that says so. -/

namespace Sys2Proof.Machine

open Host

/-! ### What the checks answer -/

/-- What the checks of the fetch and of PMODE make of an instruction that answers `o` (R366, R368). -/
def FetchChecked (s : State) (t : TileId) (pmode : BitVec 2) (o : Outcome State Fault Refusal) : Prop :=
  (∀ cz x, s.fetchCheck t = .fault cz x → o = .next (s.raiseC t cz x))
    ∧ (s.fetchCheck t = .ok () → pmode = 3 → o = .next (s.raiseC t .illegal 0))

section
variable {s : State} {t : TileId} {a : CcArgs} {m : ModeGroup} {ok : Bool} {fc : FenceClass} {r w : List Nat} {body : State → State}

/-- The issue of a control-core instruction checks its fetch first and then PMODE. -/
theorem State.ccIssue_checked (hrun : s.coreRuns t = true) : FetchChecked s t a.pmode (s.ccIssue t a m ok fc r w body) := by
  refine ⟨fun cz x hf => ?_, fun hf hp => ?_⟩
  · rw [State.ccIssue, if_neg (not_not_intro hrun), hf]
  · rw [State.ccIssue, if_neg (not_not_intro hrun), hf]
    exact if_pos (Or.inl hp)

/-- A control-core instruction that its predicate holds back only passes. -/
theorem State.ccIssue_squash (hfetch : Fetches s t) (hp : a.pmode ≠ 3) (hpred : predPass s.tiles[t].p a.pmode a.pred = false)
    (hm : s.modeOk t m = true) : s.ccIssue t a m true fc r w body = .next (s.advance t) := by
  obtain ⟨hrun, hf⟩ := hfetch
  simp only [State.ccIssue, hrun, hf, hp, hm, hpred, not_true_eq_false, or_self, if_false, Bool.false_eq_true, not_false_eq_true, if_true]

end

section
variable {s : State} {t : TileId} {a : UArgs} {op : UOp} {ok : Bool} {qs gs : List Nat} {tagOk : Bool}

/-- So does the issue of a unit instruction. -/
theorem State.uIssue_checked (hrun : s.coreRuns t = true) : FetchChecked s t a.pmode (s.uIssue t op a ok qs gs tagOk) := by
  refine ⟨fun cz x hf => ?_, fun hf hp => ?_⟩
  · rw [State.uIssue, if_neg (not_not_intro hrun), hf]
  · rw [State.uIssue, if_neg (not_not_intro hrun), hf]
    exact if_pos (Or.inl hp)

/-- A unit instruction that its predicate holds back signals where SQS asks, and passes. -/
theorem State.uIssue_squash (hfetch : Fetches s t) (hp : a.pmode ≠ 3) (hok : ok = true) (hh : s.inHandler t = false)
    (hpred : predPass s.tiles[t].p a.pmode a.pred = false) : s.uIssue t op a ok qs gs tagOk = .next (s.squash t a) := by
  obtain ⟨hrun, hf⟩ := hfetch
  simp only [State.uIssue, hrun, hf, hp, hok, hh, hpred, not_true_eq_false, or_self, if_false, Bool.false_eq_true, not_false_eq_true, if_true]

/-- What passing a squashed unit instruction does to the counter that SQS names (R196). -/
theorem State.squash_eq (s : State) (t : TileId) (a : UArgs) :
    s.squash t a = if a.sqs = false then s.advance t
      else if s.tok t a.st.toNat < 65535 then (s.put (Reg.tileToken t a.st.toNat) (s.tok t a.st.toNat + 1)).advance t
      else (s.tokFull t a.st.toNat).raiseC t .token 0 := by
  rw [State.squash]
  cases a.sqs with
  | false => rfl
  | true =>
    rcases Nat.lt_or_ge (s.tok t a.st.toNat) 65535 with h | h
    · rw [s.tokAdd_fits t _ h, if_neg Bool.true_eq_false_eq_False, if_pos h]
      rfl
    · rw [s.tokAdd_overflows t _ (by omega), if_neg Bool.true_eq_false_eq_False, if_neg (Nat.not_lt.2 h)]
      rfl

end

/-! ### Every Berbo command goes through issue -/

section
variable {i : Instr} {s : State} {t : TileId} {c o : BitVec 6}

theorem exec_checked_of_ccWord {a : CcArgs} (h : ccWord i = some (t, c, o, a)) (hrun : s.coreRuns t = true) :
    FetchChecked s t a.pmode (exec i s) := by
  unfold ccWord at h
  split at h <;> cases h
  all_goals
    apply State.ccIssue_checked
    exact hrun

theorem exec_checked_of_unitWord {a : UArgs} (h : unitWord i = some (t, c, o, a)) (hrun : s.coreRuns t = true) :
    FetchChecked s t a.pmode (exec i s) := by
  unfold unitWord at h
  split at h <;> cases h
  all_goals
    apply State.uIssue_checked
    exact hrun

end

/-- Settles O16: the fetch check comes first, then PMODE, then the predicate, whatever the instruction. -/
theorem issueChecks : Obligations.IssueChecks := by
  refine ⟨⟨fun i s t c o a => exec_checked_of_ccWord, fun i s t c o a => exec_checked_of_unitWord⟩,
    fun s t a hfetch hp hpred => ?core, fun s t a hfetch hp hh hpred => ?pass⟩
  case core =>
    simp only [List.forall_mem_cons, List.not_mem_nil, false_implies, implies_true, and_true]
    and_intros
    all_goals
      apply State.ccIssue_squash hfetch hp hpred
      rfl
  case pass =>
    simp only [passOps, List.forall_mem_cons, List.not_mem_nil, false_implies, implies_true, and_true]
    and_intros
    all_goals exact fun hok => (State.uIssue_squash hfetch hp hok hh hpred).trans (congrArg _ (s.squash_eq t a))

end Sys2Proof.Machine
end

section
/-! SUPPORT. The results of the integer and the predicate class (R392), of LI.H and of TREAD (R394): which operation each instruction is,
and what an operation that issues writes. With it the statements on the two classes. -/

namespace Sys2Proof.Machine

/-! ### Which operation each instruction is -/

section
variable (s : State) (t : TileId) (a : CcArgs)

theorem exec_add : exec (.add t a) s = s.alu t a (fun x y => x + y) := rfl
theorem exec_sub : exec (.sub t a) s = s.alu t a (fun x y => x - y) := rfl
theorem exec_and : exec (.and t a) s = s.alu t a (fun x y => x &&& y) := rfl
theorem exec_or : exec (.or t a) s = s.alu t a (fun x y => x ||| y) := rfl
theorem exec_xor : exec (.xor t a) s = s.alu t a (fun x y => x ^^^ y) := rfl
theorem exec_sll : exec (.sll t a) s = s.alu t a (fun x y => x <<< (y.toNat % 64)) := rfl
theorem exec_srl : exec (.srl t a) s = s.alu t a (fun x y => x >>> (y.toNat % 64)) := rfl
theorem exec_sra : exec (.sra t a) s = s.alu t a (fun x y => x.sshiftRight (y.toNat % 64)) := rfl
theorem exec_slt : exec (.slt t a) s = s.alu t a (fun x y => if x.slt y then 1 else 0) := rfl
theorem exec_sltu : exec (.sltu t a) s = s.alu t a (fun x y => if x.ult y then 1 else 0) := rfl
theorem exec_min : exec (.min t a) s = s.alu t a (fun x y => if y.slt x then y else x) := rfl
theorem exec_max : exec (.max t a) s = s.alu t a (fun x y => if x.slt y then y else x) := rfl
theorem exec_mul : exec (.mul t a) s = s.alu t a (fun x y => x * y) := rfl
theorem exec_mulh : exec (.mulh t a) s = s.alu t a (fun x y => BitVec.ofInt 64 (x.toInt * y.toInt / 2 ^ 64)) := rfl
theorem exec_addI : exec (.addI t a) s = s.aluI t a (fun x y => x + y) := rfl
theorem exec_andI : exec (.andI t a) s = s.aluI t a (fun x y => x &&& y) := rfl
theorem exec_orI : exec (.orI t a) s = s.aluI t a (fun x y => x ||| y) := rfl
theorem exec_xorI : exec (.xorI t a) s = s.aluI t a (fun x y => x ^^^ y) := rfl
theorem exec_sllI : exec (.sllI t a) s = s.aluI t a (fun x y => x <<< (y.toNat % 64)) := rfl
theorem exec_srlI : exec (.srlI t a) s = s.aluI t a (fun x y => x >>> (y.toNat % 64)) := rfl
theorem exec_sraI : exec (.sraI t a) s = s.aluI t a (fun x y => x.sshiftRight (y.toNat % 64)) := rfl
theorem exec_sltI : exec (.sltI t a) s = s.aluI t a (fun x y => if x.slt y then 1 else 0) := rfl
theorem exec_liH : exec (.liH t a) s = s.ccIssue t a .both true .other [a.rs1.toNat] [a.rd.toNat]
    (fun s => s.setRd t a (BitVec.ofNat 64 (a.imm.toNat * 2 ^ 32 + (s.rs1 t a).toNat % 2 ^ 32))) := rfl
theorem exec_tread : exec (.tread t a) s = s.ccIssue t a .both true .other [] [a.rd.toNat]
    (fun s => s.setRd t a (BitVec.ofNat 64 (s.tok t (bitsN a.imm.toNat 3 0)))) := rfl
theorem exec_pcmpEq : exec (.pcmpEq t a) s = s.pcmp t a false (fun x y => x == y) := rfl
theorem exec_pcmpNe : exec (.pcmpNe t a) s = s.pcmp t a false (fun x y => x != y) := rfl
theorem exec_pcmpLt : exec (.pcmpLt t a) s = s.pcmp t a false (fun x y => x.slt y) := rfl
theorem exec_pcmpLtu : exec (.pcmpLtu t a) s = s.pcmp t a false (fun x y => x.ult y) := rfl
theorem exec_pcmpEqI : exec (.pcmpEqI t a) s = s.pcmp t a true (fun x y => x == y) := rfl
theorem exec_pcmpLtI : exec (.pcmpLtI t a) s = s.pcmp t a true (fun x y => x.slt y) := rfl
theorem exec_pand : exec (.pand t a) s = s.plog t a (fun x y => x && y) := rfl
theorem exec_por : exec (.por t a) s = s.plog t a (fun x y => x || y) := rfl
theorem exec_pxor : exec (.pxor t a) s = s.plog t a (fun x y => x != y) := rfl
theorem exec_pnot : exec (.pnot t a) s = s.plog t a (fun x _ => !x) := rfl
theorem exec_pset : exec (.pset t a) s = s.plog t a (fun _ _ => bitN a.imm.toNat 0) := rfl

end

/-! ### What an operation that issues writes -/

section
variable {s : State} {t : TileId} {a : CcArgs}

/-- A register operation writes its result. -/
theorem State.alu_go (hgo : CcGo s t a .both .other [a.rs1.toNat, a.rs2.toNat] [a.rd.toNat]) (f : W64 → W64 → W64) :
    s.alu t a f = .next (s.setRd t a (f (s.rs1 t a) (s.rs2 t a))) := s.ccIssue_go _ hgo

/-- So does one on the immediate. -/
theorem State.aluI_go (hgo : CcGo s t a .both .other [a.rs1.toNat] [a.rd.toNat]) (f : W64 → W64 → W64) :
    s.aluI t a f = .next (s.setRd t a (f (s.rs1 t a) (simm a))) := s.ccIssue_go _ hgo

/-- A compare of two registers writes whether its relation holds. -/
theorem State.pcmp_go {f : W64 → W64 → Bool} {p : Prop} [Decidable p] (hrd : a.rd.toNat < 8)
    (hgo : CcGo s t a .both .other [a.rs1.toNat, a.rs2.toNat] []) (hp : f (s.rs1 t a) (s.rs2 t a) = true ↔ p) :
    s.pcmp t a false f = .next (s.setPd t a (decide p)) := by
  rw [← Bool.eq_iff_iff.2 (hp.trans decide_eq_true_iff.symm), State.pcmp, decide_eq_true hrd]
  exact s.ccIssue_go _ hgo

/-- So does one with the immediate. -/
theorem State.pcmp_imm_go {f : W64 → W64 → Bool} {p : Prop} [Decidable p] (hrd : a.rd.toNat < 8)
    (hgo : CcGo s t a .both .other [a.rs1.toNat] []) (hp : f (s.rs1 t a) (simm a) = true ↔ p) :
    s.pcmp t a true f = .next (s.setPd t a (decide p)) := by
  rw [← Bool.eq_iff_iff.2 (hp.trans decide_eq_true_iff.symm), State.pcmp, decide_eq_true hrd]
  exact s.ccIssue_go _ hgo

/-- A logic operation on predicates P0 to P7 writes its result. -/
theorem State.plog_go (hrd : a.rd.toNat < 8) (h1 : a.rs1.toNat < 8) (h2 : a.rs2.toNat < 8) (hgo : CcGo s t a .both .other [] [])
    (f : Bool → Bool → Bool) :
    s.plog t a f = .next (s.setPd t a (f (bitN s.tiles[t].p a.rs1.toNat) (bitN s.tiles[t].p a.rs2.toNat))) := by
  rw [State.plog, decide_eq_true ⟨hrd, h1, h2⟩]
  exact s.ccIssue_go _ hgo

end

/-- Settles O7: each operation issues and writes what its function gives, its order read as that of the numbers the words stand for. -/
theorem integerResults : Obligations.IntegerResults := by
  intro s t a
  refine ⟨fun hgo => ?registers, fun hgo => ?immediate, fun hgo => ?tread⟩
  case registers =>
    simp only [exec_add, exec_sub, exec_and, exec_or, exec_xor, exec_sll, exec_srl, exec_sra, exec_slt, exec_sltu, exec_min, exec_max,
      exec_mul, exec_mulh, State.alu_go hgo, BitVec.slt_iff_toInt_lt, BitVec.ult_iff_toNat_lt, and_self]
  case immediate =>
    simp only [exec_addI, exec_andI, exec_orI, exec_xorI, exec_sllI, exec_srlI, exec_sraI, exec_sltI, exec_liH, State.aluI_go hgo,
      State.ccIssue_go s _ hgo, BitVec.slt_iff_toInt_lt, and_self]
  case tread => rw [exec_tread, State.ccIssue_go s _ hgo]

/-- Settles O10: RD below 8 is a legal operand, so each compare or logic operation issues and writes its result. -/
theorem predicateResults : Obligations.PredicateResults := by
  intro s t a hrd
  refine ⟨fun hgo => ?registers, fun hgo => ?immediate, fun hgo h1 h2 => ?logic⟩
  case registers =>
    rw [exec_pcmpEq, exec_pcmpNe, exec_pcmpLt, exec_pcmpLtu]
    exact ⟨State.pcmp_go hrd hgo beq_iff_eq, State.pcmp_go hrd hgo bne_iff_ne, State.pcmp_go hrd hgo BitVec.slt_iff_toInt_lt,
      State.pcmp_go hrd hgo BitVec.ult_iff_toNat_lt⟩
  case immediate =>
    rw [exec_pcmpEqI, exec_pcmpLtI]
    exact ⟨State.pcmp_imm_go hrd hgo beq_iff_eq, State.pcmp_imm_go hrd hgo BitVec.slt_iff_toInt_lt⟩
  case logic => simp only [exec_pand, exec_por, exec_pxor, exec_pnot, exec_pset, State.plog_go hrd h1 h2 hgo, and_self]

end Sys2Proof.Machine
end

section
/-! SUPPORT. The bytes of a tile store (R197, R209, R393): a run of entries of a sparse map written, a void line made a line of zeros, a
byte and a string of bytes written. With it the statement on tile-store loads and stores. -/

namespace Sys2Proof.Machine

/-- A run of entries written reads as written, and every other key as before. -/
theorem spGet_foldl_set {α : Type} [DecidableEq α] (d : Nat → α) (m : List (Nat × α)) (b n : Nat) (f : Nat → α) (k : Nat) :
    spGet d ((List.range n).foldl (fun m i => spSet d m (b + i) (f i)) m) k = if b ≤ k ∧ k < b + n then f (k - b) else spGet d m k := by
  induction n with
  | zero => rw [if_neg (by omega)]; rfl
  | succ n ih =>
    rw [List.range_succ, List.foldl_concat]
    by_cases hk : k = b + n
    · subst hk
      rw [spGet_set_self, if_pos (by omega), Nat.add_sub_cancel_left]
    · rw [spGet_set_ne _ _ hk, ih]
      exact if_congr (by omega) rfl rfl

/-! ### Bytes of the tile store -/

section
variable (tl : Tile)

/-- A line that is written is void no longer. -/
theorem Tile.unvoid_not_void (l : Nat) : (tl.unvoid l).voids.contains l = false := by
  unfold Tile.unvoid
  split
  · simp
  · next h => exact Bool.eq_false_iff.2 h

/-- A void line made a line of zeros reads as before, and so does every other (R209). -/
theorem Tile.tsByte_unvoid (l k : Nat) : (tl.unvoid l).tsByte k = tl.tsByte k := by
  unfold Tile.unvoid
  split
  · next hvoid =>
    have hzeros := spGet_foldl_set tl.storeDflt tl.store (l * 64) 64 (fun _ => 0) k
    by_cases hk : k / 64 = l
    · rw [if_pos (by omega)] at hzeros
      rw [Tile.tsByte, Tile.tsByte, hk, if_pos hvoid, if_neg (by simp)]
      exact hzeros
    · rw [if_neg (by omega)] at hzeros
      have hother : (tl.voids.filter (· ≠ l)).contains (k / 64) = tl.voids.contains (k / 64) := by
        simp [List.contains_eq_mem, hk]
      rw [Tile.tsByte, Tile.tsByte, hother]
      exact congrArg _ hzeros
  · rfl

/-- A byte written reads as written, and every other byte as before. -/
theorem Tile.tsByte_tsPut (a : Nat) (b : Byte) (k : Nat) : (tl.tsPut a b).tsByte k = if k = a then b else tl.tsByte k := by
  rw [← tl.tsByte_unvoid (a / 64) k]
  by_cases hk : k = a
  · subst hk
    rw [if_pos rfl]
    exact (if_neg (Bool.eq_false_iff.1 (tl.unvoid_not_void (k / 64)))).trans (spGet_set_self _ _ _)
  · rw [if_neg hk]
    exact congrArg _ (spGet_set_ne _ _ hk)

/-- A string of bytes written reads as written, and every other byte as before. -/
theorem Tile.tsByte_tsPuts (a : Nat) (bs : List Byte) (k : Nat) :
    (tl.tsPuts a bs).tsByte k = if h : a ≤ k ∧ k - a < bs.length then bs[k - a]'h.2 else tl.tsByte k := by
  induction bs generalizing tl a with
  | nil => rw [dif_neg (by simp)]; rfl
  | cons b r ih =>
    rw [Tile.tsPuts, ih, tl.tsByte_tsPut]
    rcases lt_trichotomy k a with hk | hk | hk
    · rw [dif_neg (by omega), dif_neg (by omega), if_neg (by omega)]
    · subst hk
      rw [dif_neg (by omega), if_pos rfl, dif_pos (by simp)]
      simp
    · have hnext : k - a = k - (a + 1) + 1 := by omega
      simp only [hnext, List.getElem_cons_succ, List.length_cons, if_neg (Nat.ne_of_gt hk)]
      exact dite_congr (by simp; omega) (fun _ => rfl) (fun _ => rfl)

/-- A string of bytes written changes the store and its void lines only. -/
theorem Tile.tsPuts_eq (a : Nat) (bs : List Byte) :
    tl.tsPuts a bs = { tl with store := (tl.tsPuts a bs).store, voids := (tl.tsPuts a bs).voids } := by
  induction bs generalizing tl a with
  | nil => rfl
  | cons b r ih =>
    obtain ⟨x, y, hput⟩ := tl.tsPut_eq a b
    rw [Tile.tsPuts, ih, hput]

end

/-! ### Tile-store loads and stores (R393) -/

section
variable {s : State} {t : TileId} {a : CcArgs} {n : Nat}

/-- A tile-store load that issues, aligned, where its tag may read, writes the number there. -/
theorem State.ldtN_go (hst : s.ctxClass t ≠ .stale) (hinv : s.ctxClass t ≠ .invalid) (hal : s.ea t a % n = 0)
    (hgo : CcGo s t a .both .other [a.rs1.toNat] [a.rd.toNat]) (hok : s.tsCheck t s.tiles[t].ctx false (s.ea t a) n = .ok ()) :
    s.ldtN t a n = .next (s.setRd t a (BitVec.ofNat 64 (s.tiles[t].tsNat (s.ea t a) n))) := by
  rw [State.ldtN, State.ccIssue_go s _ hgo, State.asTagged_live hst hinv]
  dsimp only
  rw [if_neg (not_not_intro hal), hok]

/-- A tile-store store that issues, aligned, where its tag may write, writes the low bytes of RS2 there. -/
theorem State.sttN_go (hst : s.ctxClass t ≠ .stale) (hinv : s.ctxClass t ≠ .invalid) (hal : s.ea t a % n = 0)
    (hgo : CcGo s t a .both .other [a.rs1.toNat, a.rs2.toNat] []) (hok : s.tsCheck t s.tiles[t].ctx true (s.ea t a) n = .ok ()) :
    s.sttN t a n = .next ((s.modTile t (fun tl => tl.tsPuts (s.ea t a) (toLe (s.rs2 t a).toNat n))).advance t) := by
  rw [State.sttN, State.ccIssue_go s _ hgo, State.asTagged_live hst hinv]
  dsimp only
  rw [if_neg (not_not_intro hal), hok]

end

/-- Settles O11: an access of either width is that of its bytes, which nothing stops; a store writes byte by byte, each in a line that is
void no longer. -/
theorem tileStoreAccess : Obligations.TileStoreAccess := by
  refine ⟨fun s t a n hst hinv hal => ⟨fun hgo hok => ?load, fun hgo hok => ?store⟩,
    fun tl a bs => ⟨tl.tsByte_tsPuts a bs, tl.tsPuts_eq a bs⟩⟩
  case load =>
    have hload := State.ldtN_go hst hinv hal hgo hok
    exact ⟨fun hn => by subst hn; exact hload, fun hn => by subst hn; exact hload⟩
  case store =>
    have hstore := State.sttN_go hst hinv hal hgo hok
    exact ⟨fun hn => by subst hn; exact hstore, fun hn => by subst hn; exact hstore⟩

end Sys2Proof.Machine
end

section
/-! SUPPORT. TWAIT, TSIG (R394, R195, R196) and the fences (R396): the count a wait finds and takes, and the record a fence leaves. With it
the statement on them. -/

namespace Sys2Proof.Machine

/-! ### Tokens -/

section
variable {s : State} {t : TileId} {a : CcArgs}

/-- With no waiter at the head of a lower queue a wait finds all that the counter holds (R195). -/
theorem State.tokLeft_of_no_waiter {ok : UEntry → Bool} {lim : Nat} (h : ∀ q < lim, s.tiles[t].waiter ok q = none) (k : Nat) :
    s.tokLeft t ok k lim = s.tok t k := by
  unfold State.tokLeft
  refine (List.foldl_ext _ (fun v _ => v) _ fun v q hq => ?_).trans (List.foldl_fixed' (fun _ => rfl) _)
  rw [h q (List.mem_range.1 hq)]

/-- A TWAIT that issues takes its count where the counter holds it beside the other waiters, and else stalls. -/
theorem exec_twait_go (hgo : CcGo s t a .item .other [] []) (hok : tokenArgsOk a = true) :
    exec (.twait t a) s = .next (
      if bitsN a.imm.toNat 31 16 ≤ s.tokLeft t (fun u => !(s.tiles[t].blocked u)) (bitsN a.imm.toNat 3 0) 8
      then (s.put (Reg.tileToken t (bitsN a.imm.toNat 3 0)) (s.tok t (bitsN a.imm.toNat 3 0) - bitsN a.imm.toNat 31 16)).advance t
      else s) := by
  have hexec : exec (.twait t a) s = execTwait t a s := rfl
  rw [hexec, execTwait, hok, State.ccIssue_go s _ hgo]
  simp only [← Nat.not_le, ite_not]

/-- A TSIG that issues adds its count, and raises cause 7 where the counter does not hold the sum. -/
theorem exec_tsig_go (hgo : CcGo s t a .item .other [] []) (hok : tokenArgsOk a = true) :
    exec (.tsig t a) s = .next (
      let r := s.tokAdd t (bitsN a.imm.toNat 3 0) (bitsN a.imm.toNat 31 16)
      if r.1 then r.2.raiseC t .token 0 else r.2.advance t) := by
  have hexec : exec (.tsig t a) s = execTsig t a s := rfl
  rw [hexec, execTsig, hok, State.ccIssue_go s _ hgo]

end

/-! ### Fences -/

/-- The record of a fence of a kind that issues now: the window entries it waits for, and the generations that stand once it has closed
those it names. -/
def Tile.fenceRec (tl : Tile) (kind : Nat) : FenceRec where
  kind := kind
  seqs := (tl.window.filter (fun u =>
    if kind = 0 then false else if kind = 1 then u.op ∈ [UOp.scat, .hupdQ8, .hupdQ4] else true)).map (·.seq)
  sbGen := if kind = 0 ∨ kind = 3 then tl.sbGen + 1 else tl.sbGen
  scatGen := if kind = 1 ∨ kind = 3 then tl.scatGen + 1 else tl.scatGen

/-- A tile with a fence of a kind issued, behind every other. -/
def Tile.issueFence (tl : Tile) (kind : Nat) : Tile :=
  { tl with
    sbGen := (tl.fenceRec kind).sbGen, scatGen := (tl.fenceRec kind).scatGen
    fences := tl.fences ++ [tl.fenceRec kind], pc := (tl.pc + 8) % 2 ^ 64 }

/-- FENCE.SB and FENCE.ALL close the generation of the store buffer (Table 12-5). -/
theorem Tile.fenceRec_sbGen (tl : Tile) (kind : Nat) :
    (tl.fenceRec kind).sbGen = tl.sbGen + (if kind = 0 ∨ kind = 3 then 1 else 0) := by
  rw [add_ite]
  rfl

/-- FENCE.SC and FENCE.ALL close the generation of the scatters (Table 12-5). -/
theorem Tile.fenceRec_scatGen (tl : Tile) (kind : Nat) :
    (tl.fenceRec kind).scatGen = tl.scatGen + (if kind = 1 ∨ kind = 3 then 1 else 0) := by
  rw [add_ite]
  rfl

/-- A fence that issues stands behind every other, and those whose condition holds retire at once. -/
theorem State.fence_go {s : State} {t : TileId} {a : CcArgs} (hgo : CcGo s t a .both .other [] []) (kind : Nat) :
    s.fence t a kind = .next (s.modTile t (fun tl => (tl.issueFence kind).settled s.time)) := by
  rw [State.fence, State.ccIssue_go s _ hgo, State.settleFences_eq, State.modTile_modTile, State.modTile_time]
  congr 2
  funext tl
  congr 1
  simp only [Tile.issueFence, Tile.fenceRec]
  congr 5
  refine List.filter_congr fun u _ => ?_
  match kind with
  | 0 => rfl
  | 1 => cases u.op <;> rfl
  | _ + 2 => rfl

section
variable (now : Nat) (tl : Tile)

/-- No fence stands whose condition holds once the met ones have retired. -/
theorem Tile.settled_not_met : ∀ g ∈ (tl.settled now).fences, g.met (tl.settled now) = false := by
  intro g hg
  have hkept := (List.mem_filter.1 hg).2
  exact (Bool.not_eq_true' _).mp hkept

/-- A fence that issues stands as the last where its condition does not hold. -/
theorem Tile.issueFence_stands {kind : Nat} (h : (tl.fenceRec kind).met tl = false) :
    ((tl.issueFence kind).settled now).fences.getLast? = some (tl.fenceRec kind) := by
  have hmet : (tl.fenceRec kind).met (tl.issueFence kind) = false := h
  change ((tl.fences ++ [tl.fenceRec kind]).filter (fun f => !(f.met (tl.issueFence kind)))).getLast? = some (tl.fenceRec kind)
  rw [List.filter_append, List.filter_singleton, hmet]
  exact List.getLast?_concat

/-- A fence that issues retires at once where its condition holds. -/
theorem Tile.issueFence_retires {kind : Nat} (h : (tl.fenceRec kind).met tl = true) :
    ((tl.issueFence kind).settled now).lastRetire = now :=
  if_pos (List.any_eq_true.2 ⟨tl.fenceRec kind, List.mem_append_right _ (List.mem_singleton_self _), h⟩)

end

/-- Settles O13: a wait compares its count with what the other waiters leave; a signal adds to the counter or overflows it; a fence is one
change of the tile's record, after which those met retire. -/
theorem tokensAndFences : Obligations.TokensAndFences := by
  intro s t a
  refine ⟨fun hgo hok => ⟨exec_twait_go hgo hok, fun h => State.tokLeft_of_no_waiter h _, fun hfits => ?fits, fun hover => ?overflows⟩,
    fun hgo x hx => ?fence⟩
  case fits => rw [exec_tsig_go hgo hok, s.tokAdd_fits t _ hfits]; rfl
  case overflows => rw [exec_tsig_go hgo hok, s.tokAdd_overflows t _ hover]; rfl
  case fence =>
    have hkind : ∀ x ∈ [(0, Instr.fenceSb t a), (1, .fenceSc t a), (2, .fenceU t a), (3, .fenceAll t a)],
        exec x.2 s = s.fence t a x.1 := by
      simp only [List.forall_mem_cons, List.not_mem_nil, false_implies, implies_true, and_true]
      exact ⟨rfl, rfl, rfl, rfl⟩
    refine ⟨_, s.tiles[t].fenceRec x.1, (hkind x hx).trans (State.fence_go hgo x.1), s.modTile_only t _, ?_⟩
    rw [State.modTile_self]
    exact ⟨rfl, Tile.fenceRec_sbGen _ _, Tile.fenceRec_scatGen _ _, rfl, Tile.settled_not_met s.time _,
      s.tiles[t].issueFence_stands s.time, s.tiles[t].issueFence_retires s.time⟩

end Sys2Proof.Machine
end

section
/-! SUPPORT. The vector unit's arithmetic and logic forms (R406): a V register written, what a form makes of the machine, and its lanes as
integers. With it the statement on them. -/

namespace Sys2Proof.Machine

/-! ### V registers -/

/-- A V register written is one run of words of the V file. -/
theorem Tile.vPut_eq (tl : Tile) (r : Nat) (f : Nat → Nat) : tl.vPut r f = { tl with
    v := (List.range 64).foldl (fun m i => spSet tl.vDflt m (64 * r + i) (BitVec.ofNat 32 (f i))) tl.v } := by
  unfold Tile.vPut
  induction List.range 64 generalizing tl with
  | nil => rfl
  | cons i l ih => exact ih (tl.vSet r i (f i))

/-- The register written holds what was written, and every other what it held. -/
theorem Tile.vGet_vPut (tl : Tile) (r : Nat) (f : Nat → Nat) (q : Nat) {i : Nat} (hi : i < 64) :
    (tl.vPut r f).vGet q i = if q = r then f i % 2 ^ 32 else tl.vGet q i := by
  have hword := spGet_foldl_set tl.vDflt tl.v (64 * r) 64 (fun i => BitVec.ofNat 32 (f i)) (64 * q + i)
  rw [Tile.vPut_eq]
  refine (congrArg BitVec.toNat hword).trans ?_
  by_cases hq : q = r
  · subst hq
    rw [if_pos (by omega), if_pos rfl, Nat.add_sub_cancel_left, BitVec.toNat_ofNat]
  · rw [if_neg (by omega), if_neg hq]
    rfl

/-! ### A form of the vector unit -/

/-- The arithmetic and logic forms. -/
def laneOps : List UOp := [.vadd, .vsub, .vmul, .vmax, .vmin, .vand, .vor, .vxor, .vshl, .vshr]

theorem laneOps_isVec : ∀ op ∈ laneOps, op.isPass = false ∧ op.isWld = false ∧ op.isVec = true := by decide

/-- A vector instruction goes as far as the vector unit brings it. -/
theorem State.stepU_vec (s : State) (t : TileId) {u : UEntry} (hpass : u.op.isPass = false) (hwld : u.op.isWld = false)
    (hvec : u.op.isVec = true) : s.stepU t u = s.vecStep t u := by
  rw [State.stepU, hpass, hwld, hvec]
  rfl

/-- The lanes a form makes of the lanes it reads, with the free values that stand where the manual states no result (log 37). -/
def State.lanes (s : State) (t : TileId) (u : UEntry) (i : Nat) : Nat :=
  laneOp u.op (bitsN u.args.imm.toNat 1 0) (s.tiles[t].vGet u.args.gb.toNat i) (s.tiles[t].vGet u.args.gc.toNat i)
    (Config.freeNat (s.freeCtr + i))

/-- The machine with the lanes of a form in V[GA], 64 free values taken. -/
def State.withLanes (s : State) (t : TileId) (u : UEntry) : State :=
  { s with freeCtr := s.freeCtr + 64 }.modTile t (fun tl => tl.vPut u.args.ga.toNat (s.lanes t u))

/-- A form completes in one go, its lanes written. -/
theorem State.stepU_lanes (s : State) (t : TileId) {u : UEntry} (h : u.op ∈ laneOps) : s.stepU t u = .fin 0 (s.withLanes t u) := by
  obtain ⟨hpass, hwld, hvec⟩ := laneOps_isVec u.op h
  rw [s.stepU_vec t hpass hwld hvec]
  unfold State.withLanes State.lanes
  simp only [laneOps, List.mem_cons, List.not_mem_nil, or_false] at h
  rcases h with h | h | h | h | h | h | h | h | h | h <;> rw [State.vecStep, h] <;> rfl

/-! ### Lanes as integers -/

section
variable {a b : Nat} (fr : Nat)

/-- A number of 32 bits is an exact U32 result. -/
theorem laneInt_natCast {n : Nat} (h : n < 2 ^ 32) : laneInt 2 n fr = n := by
  have hfits : (0 : Int) ≤ n ∧ (n : Int) ≤ 2 ^ 32 - 1 := by omega
  refine (if_pos hfits).trans ?_
  rw [unsint]
  omega

theorem laneOp_vadd_u32 (h : a + b < 2 ^ 32) : laneOp .vadd 2 a b fr = a + b := by
  rw [← laneInt_natCast fr h, Nat.cast_add]
  rfl

theorem laneOp_vsub_u32 (ha : a < 2 ^ 32) (h : b ≤ a) : laneOp .vsub 2 a b fr = a - b := by
  rw [← laneInt_natCast fr (Nat.lt_of_le_of_lt (a.sub_le b) ha), Nat.cast_sub h]
  rfl

theorem laneOp_vmul_u32 (h : a * b < 2 ^ 32) : laneOp .vmul 2 a b fr = a * b := by
  rw [← laneInt_natCast fr h, Nat.cast_mul]
  rfl

theorem laneOp_vmax_u32 (ha : a < 2 ^ 32) (hb : b < 2 ^ 32) : laneOp .vmax 2 a b fr = max a b := by
  rw [← laneInt_natCast fr (Nat.max_lt.2 ⟨ha, hb⟩), Nat.cast_max]
  rfl

theorem laneOp_vmin_u32 (ha : a < 2 ^ 32) : laneOp .vmin 2 a b fr = min a b := by
  rw [← laneInt_natCast fr (Nat.lt_of_le_of_lt (Nat.min_le_left a b) ha), Nat.cast_min]
  rfl

theorem laneOp_vshl_u32 (hb : b < 32) : laneOp .vshl 2 a b fr = a * 2 ^ b % 2 ^ 32 := if_pos hb

theorem laneOp_vshr_u32 (hb : b < 32) : laneOp .vshr 2 a b fr = a / 2 ^ b := if_neg (by omega)

/-- Signed lanes whose sum fits 32 bits add exactly. -/
theorem laneOp_vadd_i32 {x y : Int} (hx : -2 ^ 31 ≤ x) (hx' : x < 2 ^ 31) (hy : -2 ^ 31 ≤ y) (hy' : y < 2 ^ 31)
    (hlo : -2 ^ 31 ≤ x + y) (hhi : x + y < 2 ^ 31) : laneOp .vadd 0 (unsint 32 x) (unsint 32 y) fr = unsint 32 (x + y) := by
  have hsum : laneOp .vadd 0 (unsint 32 x) (unsint 32 y) fr = laneInt 0 (sint 32 (unsint 32 x) + sint 32 (unsint 32 y)) fr := rfl
  rw [hsum, sint_unsint hx hx', sint_unsint hy hy']
  exact if_pos ⟨hlo, Int.le_sub_one_of_lt hhi⟩

end

/-- Settles O21: a form writes its 64 lanes to V[GA] and takes 64 free values; an integer result that fits its type is held as it is. -/
theorem vectorLanes : Obligations.VectorLanes := by
  refine ⟨fun s t u hop => ⟨_, s.stepU_lanes t hop, fun i hi => ?lane, fun r i hi hr => ?others, ?tile, rfl, fun v hv => ?tiles⟩,
    fun a b fr ha hb => ?unsigned, fun _ _ fr => laneOp_vadd_i32 fr⟩
  case lane =>
    rw [State.withLanes, State.modTile_self, Tile.vGet_vPut _ _ _ _ hi, if_pos rfl]
    exact ⟨Config.freeNat (s.freeCtr + i), rfl⟩
  case others =>
    rw [State.withLanes, State.modTile_self, Tile.vGet_vPut _ _ _ _ hi, if_neg hr]
  case tile =>
    rw [State.withLanes, State.modTile_self, Tile.vPut_eq]
  case tiles => exact State.modTile_ne _ _ hv
  case unsigned =>
    exact ⟨laneOp_vadd_u32 fr, laneOp_vsub_u32 fr ha, laneOp_vmul_u32 fr, laneOp_vmax_u32 fr ha hb, laneOp_vmin_u32 fr ha, rfl, rfl, rfl,
      fun hlt => ⟨laneOp_vshl_u32 fr hlt, laneOp_vshr_u32 fr hlt⟩⟩

end Sys2Proof.Machine
end

section
/-! SUPPORT. Bytes written to device memory that holds no error (R417, R431). With it the statement on memory writes. -/

namespace Sys2Proof.Machine

section
variable (m : Mem) (a : Nat)

theorem Mem.byte_setBytes_ne {bs : List Byte} {k : Nat} (h : k < a ∨ a + bs.length ≤ k) : (m.setBytes a bs).byte k = m.byte k := by
  induction bs generalizing m a with
  | nil => rfl
  | cons b r ih =>
    rw [List.length_cons] at h
    exact (ih (m.setByte a b) (a + 1) (by omega)).trans (m.byte_setByte_ne a b (by omega))

theorem Mem.byte_setBytes_mem {bs : List Byte} {i : Nat} (h : i < bs.length) : (m.setBytes a bs).byte (a + i) = bs[i] := by
  induction bs generalizing m a i with
  | nil => exact absurd h (Nat.not_lt_zero i)
  | cons b r ih =>
    cases i with
    | zero => exact (Mem.byte_setBytes_ne _ _ (.inl (Nat.lt_succ_self a))).trans (m.byte_setByte_self a b)
    | succ i =>
      rw [← Nat.succ_add_eq_add_succ]
      exact ih (m.setByte a b) (a + 1) (Nat.lt_of_succ_lt_succ h)

/-- A byte of memory with bytes written: the one written there, else the one that stood there. -/
theorem Mem.byte_setBytes (bs : List Byte) (k : Nat) :
    (m.setBytes a bs).byte k = if h : a ≤ k ∧ k - a < bs.length then bs[k - a]'h.2 else m.byte k := by
  split
  · next h =>
    conv_lhs => rw [← Nat.add_sub_cancel' h.1]
    exact m.byte_setBytes_mem a h.2
  · exact m.byte_setBytes_ne a (by omega)

theorem Mem.setBytes_append (xs ys : List Byte) : m.setBytes a (xs ++ ys) = (m.setBytes a xs).setBytes (a + xs.length) ys := by
  induction xs generalizing m a with
  | nil => rfl
  | cons x r ih => rw [List.cons_append, Mem.setBytes, ih, List.length_cons, Nat.add_assoc, Nat.add_comm 1, Mem.setBytes]

/-- What bytes nothing has written read as stays. -/
theorem Mem.setBytes_fills (bs : List Byte) : (m.setBytes a bs).burFill = m.burFill ∧ (m.setBytes a bs).ddrFill = m.ddrFill := by
  induction bs generalizing m a with
  | nil => exact ⟨rfl, rfl⟩
  | cons b r ih => exact ih (m.setByte a b) (a + 1)

theorem Mem.bytes_length (n : Nat) : (m.bytes a n).length = n := by
  rw [Mem.bytes, List.length_map, List.length_range]

theorem Mem.bytes_add (n k : Nat) : m.bytes a (n + k) = m.bytes a n ++ m.bytes (a + n) k := by
  simp only [Mem.bytes, List.range_add, List.map_append, List.map_map, Function.comp_def, Nat.add_assoc]

end

/-- Settles O54: memory without errors takes the bytes one by one. -/
theorem memoryWrites : Obligations.MemoryWrites := by
  intro s a bs hbad hsoft
  obtain ⟨hb, hs⟩ := s.mem.setBytes_errors a bs
  rw [s.memWrite_clean hbad hsoft]
  exact ⟨s.mem.byte_setBytes a bs, hb.trans hbad, hs.trans hsoft, rfl, s.mem.setBytes_fills a bs⟩

end Sys2Proof.Machine
end

section
/-! SUPPORT. What a read that meets correctable errors leaves of them (R424, R584), with the scrubber's step, and inbound PCI Express
(R419, R447, R452). -/

namespace Sys2Proof.Machine

/-! ### Errors that a read meets (R424, R584) -/

/-- What the scrubber's reads may change: counters, free values, and of memory the record of correctable errors. -/
def SoftOnly (s t : State) : Prop := t = { s with regs := t.regs, mem := { s.mem with soft := t.mem.soft }, freeCtr := t.freeCtr }

theorem SoftOnly.trans {s t u : State} (h : SoftOnly s t) (h' : SoftOnly t u) : SoftOnly s u := by
  rw [SoftOnly, h', h]

theorem SoftOnly.foldl {α : Type} (l : List α) (f : State → α → State) (s : State) (h : ∀ t x, SoftOnly t (f t x)) :
    SoftOnly s (l.foldl f s) :=
  List.foldlRecOn l f rfl fun t ht x _ => ht.trans (h t x)

section
variable (s : State)

theorem State.count_softOnly (c : Ctr) : SoftOnly s (s.count c) := by
  rw [SoftOnly, State.count_eq]

theorem State.countBad_softOnly (ws : List (Nat × Bool)) : SoftOnly s (s.countBad ws) := by
  refine SoftOnly.foldl _ _ _ fun t w => ?_
  split
  · rfl
  · split
    · exact t.count_softOnly _
    · exact t.count_softOnly _

theorem State.countSoft_softOnly (a n : Nat) : SoftOnly s (s.countSoft a n) := by
  unfold State.countSoft
  split
  · rfl
  · refine SoftOnly.trans (SoftOnly.foldl _ _ _ fun t w => ?_) rfl
    split
    · exact t.count_softOnly _
    · exact t.count_softOnly _

theorem State.readMeets_softOnly (a n : Nat) : SoftOnly s (s.readMeets a n) :=
  (s.countSoft_softOnly a n).trans (State.countBad_softOnly _ _)

theorem State.softAt_softOnly (a : Nat) : SoftOnly s (s.softAt a) := by
  unfold State.softAt
  dsimp only
  split
  · rfl
  · rfl

theorem State.upset_softOnly : SoftOnly s s.upset := by
  have hfree : SoftOnly s (((s.freeBits 3).2).freeBits 42).2 := rfl
  unfold State.upset
  dsimp only
  split
  · exact hfree.trans (State.count_softOnly _ _)
  · exact hfree.trans (State.softAt_softOnly _ _)

theorem State.upsets_softOnly : SoftOnly s s.upsets :=
  SoftOnly.trans (t := (s.fresh 1).2) rfl (SoftOnly.foldl _ _ _ fun t _ => t.upset_softOnly)

/-- The correctable errors of the range are corrected, and those alone. -/
theorem State.readMeets_soft (a n : Nat) :
    (s.readMeets a n).mem.soft = s.mem.soft.filter (fun w => !decide (w < a + n ∧ a < w + eccSize w)) := by
  rw [State.readMeets, State.countBad_mem]
  unfold State.countSoft
  split
  · next hnone =>
    rw [List.isEmpty_iff, Mem.softIn, List.filter_eq_nil_iff] at hnone
    exact (List.filter_eq_self.2 fun w hw => by rw [Bool.eq_false_iff.2 (hnone w hw)]; rfl).symm
  · dsimp only
    rw [State.mem_foldl (hf := fun s w => by split <;> rw [State.count_eq])]
    refine List.filter_congr fun w hw => ?_
    rw [List.contains_eq_mem]
    simp [Mem.softIn, hw]

theorem State.readMeets_softIn_self (a n : Nat) : (s.readMeets a n).mem.softIn a n = [] := by
  rw [Mem.softIn, s.readMeets_soft, List.filter_filter]
  simp

/-- A range without correctable errors has none after a read of any other. -/
theorem State.readMeets_softIn_nil {a n : Nat} (h : s.mem.softIn a n = []) (a' n' : Nat) : (s.readMeets a' n').mem.softIn a n = [] := by
  rw [Mem.softIn, s.readMeets_soft, List.filter_filter]
  rw [Mem.softIn, List.filter_eq_nil_iff] at h
  exact List.filter_eq_nil_iff.2 fun w hw hc => h w hw (Bool.and_eq_true_iff.1 hc).1

end

theorem State.badIn_clean {s : State} (h : s.mem.bad = []) (a n : Nat) : s.mem.badIn a n = [] := by
  rw [Mem.badIn, h, List.filter_nil]

/-- Memory without errors has none to count. -/
theorem State.readMeets_clean {s : State} (hbad : s.mem.bad = []) (hsoft : s.mem.soft = []) (a n : Nat) : s.readMeets a n = s := by
  rw [State.readMeets, State.countSoft_clean hsoft, State.badIn_clean hbad]
  rfl

/-- The scrubber's step: the errors that have arisen, then the next line of each half read. -/
theorem exec_patrolScrub {s : State} (hal : s.alive = true) (hg : s.gaitN ≠ 0) :
    let s1 := (s.upsets.readMeets (64 * s.ddr.scrub) 64).readMeets (0x4000000 + 64 * s.ddr.scrub) 64
    exec .patrolScrub s = .next { s1 with ddr := { s1.ddr with scrub := (s1.ddr.scrub + 1) % 2 ^ 20 } } := by
  have hscrub : s.upsets.ddr = s.ddr := by rw [s.upsets_softOnly]
  refine (if_neg (not_or_intro (not_not_intro hal) hg)).trans ?_
  dsimp only
  rw [hscrub]

/-! ### Inbound PCI Express (R419, R447, R452) -/

section
variable {s : State} {b : BitVec 3} {a n : Nat} {d : List Byte}

/-- Before the boot ROM has the endpoint ready a request has no effect (R663). -/
theorem exec_pcieInboundRequest_notReady (h : s.pcie.ready = false) (w : Bool) : exec (.pcieInboundRequest b w a n d) s = .next s :=
  if_pos (.inr (.inr (.inr (by rw [h]; decide))))

section
variable (hal : s.alive = true) (hg : s.gaitN ≠ 0) (hend : s.pcie.endpoint = true) (hrdy : s.pcie.ready = true)
include hal hg hend hrdy

/-- Once it is ready each BAR reaches its area. -/
theorem exec_pcieInboundRequest_ready (w : Bool) : exec (.pcieInboundRequest b w a n d) s =
    if b = 0 then .next (s.pcieControl w a (if w then d.length else n) d)
    else if b = 2 then
      (if a + (if w then d.length else n) ≤ 0x8000000 then .next (s.pcieMemory w a (if w then d.length else n) d) else .next (s.pcieCpl 1 [] []))
    else if b = 4 then .next (s.pcieMemory w (0x1000000000 + a) (if w then d.length else n) d)
    else .next s :=
  if_neg (not_or_intro (not_not_intro hal) (not_or_intro hg (not_or_intro (not_not_intro hend) (not_not_intro hrdy))))

/-- BAR2 reaches burrow memory and BAR4 LPDDR5X. -/
theorem exec_pcieInboundRequest_memory {l : Nat}
    (h : b = 2 ∧ l = a ∧ (∀ w, a + (if w = true then d.length else n) ≤ 0x8000000) ∨ b = 4 ∧ l = 0x1000000000 + a) (w : Bool) :
    exec (.pcieInboundRequest b w a n d) s = .next (s.pcieMemory w l (if w then d.length else n) d) := by
  rw [exec_pcieInboundRequest_ready hal hg hend hrdy]
  rcases h with ⟨rfl, rfl, hfit⟩ | ⟨rfl, rfl⟩
  · rw [if_neg (by decide), if_pos rfl, if_pos (hfit w)]
  · rw [if_neg (by decide), if_neg (by decide), if_pos rfl]

theorem exec_pcieInboundRequest_beyond (h : 0x8000000 < a + d.length) :
    exec (.pcieInboundRequest 2 true a n d) s = .next (s.pcieCpl 1 [] []) := by
  rw [exec_pcieInboundRequest_ready hal hg hend hrdy, if_neg (by decide), if_pos rfl]
  exact if_neg (Nat.not_le.2 h)

/-- BAR0 reaches control space. -/
theorem exec_pcieInboundRequest_control (w : Bool) :
    exec (.pcieInboundRequest 0 w a n d) s = .next (s.pcieControl w a (if w then d.length else n) d) := by
  rw [exec_pcieInboundRequest_ready hal hg hend hrdy, if_pos rfl]

end

theorem State.pcieMemory_write (s : State) (a : Nat) (d : List Byte) :
    s.pcieMemory true a d.length d = if s.memRange a d.length then (s.memWrite a d).pcieCpl 0 [] [] else s.pcieCpl 1 [] [] :=
  ite_not _ _ _

/-- Without bad lines nothing is masked. -/
theorem maskBad_nil (a : Nat) (bs : List Byte) : maskBad a [] bs = bs :=
  List.ext_getElem List.length_mapIdx fun _ _ _ => List.getElem_mapIdx

theorem State.pcieMemory_read_clean (hbad : s.mem.bad = []) (hsoft : s.mem.soft = []) (a n : Nat) (d : List Byte) :
    s.pcieMemory false a n d = if s.memRange a n then s.pcieCpl 0 (s.mem.bytes a n) [] else s.pcieCpl 1 [] [] := by
  unfold State.pcieMemory
  rw [State.readMeets_clean hbad hsoft, State.badIn_clean hbad, ite_not]
  exact congrArg (fun bs => if s.memRange a n = true then s.pcieCpl 0 bs [] else _) (maskBad_nil a _)

/-- A register access that is none of Table 19-1's reserved ones is answered as performed. -/
theorem State.pcieControl_write (ha : a < 2 ^ 28) (hsel : selOf a n ≠ .reserved) :
    s.pcieControl true a n d = (s.csWrite 8 a n (leNat d)).pcieCpl 0 [] [] := by
  unfold State.pcieControl
  simp only [if_true, if_neg (Nat.not_le.2 ha), decide_eq_false (Nat.not_le.2 ha), decide_eq_false hsel]
  rfl

theorem State.pcieControl_read (ha : a < 2 ^ 28) (hsel : selOf a n ≠ .reserved) :
    s.pcieControl false a n d
      = (s.csRead 8 a n false).pcieCpl 0 (toLe (spGet (fun _ => 0) (s.csRead 8 a n false).rdata 8).toNat n) [] := by
  unfold State.pcieControl
  simp only [Bool.false_eq_true, if_false, if_neg (Nat.not_le.2 ha), decide_eq_false (Nat.not_le.2 ha), decide_eq_false hsel, Bool.or_self]
  rfl

end

end Sys2Proof.Machine
end

section
/-! SUPPORT. The copy engine (R444, R445, R460) on a transfer between two memories of this package: its descriptor read again before each
block, its blocks moved until the last, and what its end writes. With it the statement on the memory system's events. -/

namespace Sys2Proof.Machine

/-! ### A descriptor read (R419, R460) -/

/-- The register words a read of a descriptor rests on. -/
def cpyDescWords (c : Nat) : List Nat := [Reg.hrdCpySize c, Reg.hrdCpyBase c, Reg.hrdCpyBase c + 4, Reg.hrdCpyTail c, Reg.sciHitchStat]

section
variable {s t : State} {c k : Nat}

theorem State.whereIs_congr (h : t.rd Reg.sciHitchStat = s.rd Reg.sciHitchStat) (pa : Nat) : t.whereIs pa = s.whereIs pa := by
  unfold State.whereIs State.ownPkg State.fld State.bit
  rw [h]

theorem State.memRange_congr (h : t.install = s.install) (a n : Nat) : t.memRange a n = s.memRange a n := by
  unfold State.memRange State.isMem State.area
  rw [h]

/-- The descriptor is the same where its words, the units in error and its bytes are. -/
theorem State.cpyDesc_congr (hrd : ∀ o ∈ cpyDescWords c, t.rd o = s.rd o) (hwritten : t.written = s.written)
    (hinst : t.install = s.install) (hbad : t.mem.bad = s.mem.bad)
    (hbytes : t.mem.bytes (s.cpySlot c k % 2 ^ 42) 32 = s.mem.bytes (s.cpySlot c k % 2 ^ 42) 32) : t.cpyDesc c k = s.cpyDesc c k := by
  simp only [cpyDescWords, List.forall_mem_cons, List.not_mem_nil, false_implies, implies_true, and_true] at hrd
  obtain ⟨hsize, hlo, hhi, htail, hhitch⟩ := hrd
  have hslot : t.cpySlot c k = s.cpySlot c k := by
    unfold State.cpySlot State.fld
    rw [State.rd64_eq, State.rd64_eq, hsize, hlo, hhi, htail]
  have hunset : t.isUnset (Reg.hrdCpyBase c) 2 = s.isUnset (Reg.hrdCpyBase c) 2 := by rw [State.isUnset, hwritten, State.isUnset]
  have hok : t.engOk (s.cpySlot c k) 32 = s.engOk (s.cpySlot c k) 32 := by
    simp only [State.engOk, State.whereIs_congr hhitch, State.memRange_congr hinst, Mem.badIn, hbad]
  have hdata : t.engBytes (s.cpySlot c k) 32 = s.engBytes (s.cpySlot c k) 32 := by
    unfold State.engBytes
    rw [State.whereIs_congr hhitch]
    split
    · next l hhere => rw [State.whereIs_here hhere, hbytes]
    · rfl
  unfold State.cpyDesc
  rw [hsize, hunset, hslot, hok, hdata]

/-- None of them stands in the EVT block, where the counters of errors do. -/
theorem cpyDescWords_outside_evt (c : Nat) : ∀ o ∈ cpyDescWords c, o < 0x80000 ∨ 0xC0000 ≤ o := by
  simp only [cpyDescWords, List.forall_mem_cons, List.not_mem_nil, false_implies, implies_true, and_true, Reg.hrdCpySize, Reg.hrdCpyBase,
    Reg.hrdCpyTail, Reg.sciHitchStat]
  omega

theorem hrdCpyErr_not_mem_cpyDescWords (c : Nat) : Reg.hrdCpyErr c ∉ cpyDescWords c := by
  simp only [cpyDescWords, List.mem_cons, List.not_mem_nil, or_false, Reg.hrdCpySize, Reg.hrdCpyBase, Reg.hrdCpyTail, Reg.sciHitchStat,
    Reg.hrdCpyErr]
  omega

end

section
variable {s : State} {c : Nat}

/-- A fetch reads the descriptor at most, and one that cannot be read sets the error bit. -/
theorem State.cpyFetch_eq (s : State) (c k : Nat) : ∃ s1, (s1 = s ∨ ∃ l, s1 = s.readMeets l 32)
    ∧ s.cpyFetch c k = if (s1.cpyDesc c k).isNone then s1.orReg (Reg.hrdCpyErr c) 1 else s1 := by
  refine ⟨_, ?_, rfl⟩
  split
  · split
    · exact .inr ⟨_, rfl⟩
    · exact .inl rfl
  · exact .inl rfl

/-- The read of a descriptor that can be read, where memory holds no error. -/
theorem State.cpyFetch_clean {k : Nat} {d : CpyDesc} (hdesc : s.cpyDesc c k = some d) (hbad : s.mem.bad = []) (hsoft : s.mem.soft = []) :
    s.cpyFetch c k = s := by
  obtain ⟨s1, h1, hfetch⟩ := s.cpyFetch_eq c k
  have hsame : s1 = s := h1.elim id fun ⟨l, hl⟩ => hl.trans (State.readMeets_clean hbad hsoft l 32)
  rw [hfetch, hsame, hdesc]
  rfl

/-- The read of one that cannot be read is counted where it met errors, and is a descriptor error. -/
theorem State.cpyFetch_unreadable {k : Nat} (hdesc : s.cpyDesc c k = none) (hsoft : s.mem.soft = []) :
    (s.cpyFetch c k).mem = s.mem ∧ (s.cpyFetch c k).bit (Reg.hrdCpyErr c) 0 = true ∧ (s.cpyFetch c k).cpyDesc c k = none := by
  obtain ⟨s1, h1, hfetch⟩ := s.cpyFetch_eq c k
  have hread : EngineOnly s s1 ∧ s1.mem = s.mem := by
    rcases h1 with rfl | ⟨l, rfl⟩
    · exact ⟨EngineOnly.refl _, rfl⟩
    · refine ⟨s.readMeets_engineOnly l 32, ?_⟩
      rw [State.readMeets, State.countSoft_clean hsoft, State.countBad_mem]
  obtain ⟨⟨hwords, hrest⟩, hmem⟩ := hread
  have hdesc1 : s1.cpyDesc c k = none := by
    rw [← hdesc]
    exact State.cpyDesc_congr (fun o ho => hwords o (cpyDescWords_outside_evt c o ho)) (by rw [hrest]) (by rw [hrest]) (by rw [hmem])
      (by rw [hmem])
  rw [hfetch, hdesc1, Option.isNone_none, if_pos rfl]
  refine ⟨hmem, ?_, ?_⟩
  · exact (s1.bit_orReg (by decide) 0).trans (Bool.or_true _)
  · rw [← hdesc1]
    exact State.cpyDesc_congr (fun o ho => State.rd_orReg_ne s1 1 (ne_of_mem_of_not_mem ho (hrdCpyErr_not_mem_cpyDescWords c))) rfl rfl rfl rfl

end

/-! ### The end of a descriptor (R444, R460) -/

section
variable (s : State) (c : Fin 4)

theorem State.cpyAdvance_kept (k : Nat) : RegsKept s (s.cpyAdvance c k) [Reg.hrdCpyTail c] := s.put_kept _ _

theorem State.cpyBusy_kept : RegsKept s (s.cpyBusy c) [Reg.hrdCpyStat c] :=
  (s.putB_kept _ _ _).trans (State.putB_kept _ _ _ _)

/-- TAIL moves on by one place (R460). -/
theorem State.rd_cpyAdvance (hn : s.rd (Reg.hrdCpySize c) ≠ 0) (hmax : s.rd (Reg.hrdCpySize c) ≤ 4096) :
    (s.cpyAdvance c 1).rd (Reg.hrdCpyTail c) = (s.fld (Reg.hrdCpyTail c) 12 0 + 1) % (2 * s.rd (Reg.hrdCpySize c)) := by
  have hlt : (s.fld (Reg.hrdCpyTail c) 12 0 + 1) % (2 * s.rd (Reg.hrdCpySize c)) < 2 * s.rd (Reg.hrdCpySize c) := Nat.mod_lt _ (by omega)
  unfold State.cpyAdvance
  rw [State.rd_put_self, if_neg hn]
  exact Nat.mod_eq_of_lt (by omega)

theorem State.orReg_zero_kept (o : Nat) : RegsKept s (s.orReg o 0) [] := fun k _ => by
  rw [State.orReg, State.rd_put, Nat.or_zero]
  split
  · next h => rw [h, Nat.mod_eq_of_lt (s.rd_lt o)]
  · rfl

/-- Without a completion word nothing is written, and a message at most is sent. -/
theorem State.cpyComplete_noWord {d : CpyDesc} (h : d.cpl = 0) (err : Bool) :
    ∃ p, s.cpyComplete d err = { s with pcie := p } := by
  unfold State.cpyComplete
  simp only [if_pos h]
  split
  · exact ⟨_, rfl⟩
  · exact ⟨_, rfl⟩

/-- A descriptor that ends without an error or a completion word counts its bytes, and the channel goes on to the next. -/
theorem State.cpyEnd_counts {j : CpyJob} (hskip : j.skip = false) (hcpl : j.d.cpl = 0) : ∃ x : State, s.cpyEnd c j 0 = (x.cpyAdvance c 1).cpyBusy c
    ∧ x.mem = s.mem ∧ ∀ o, x.rd o = ((s.orReg (Reg.hrdCpyErr c) 0).count64 (Reg.hrdCpyCntBytes c) j.d.len).rd o := by
  obtain ⟨p, hp⟩ := ((s.orReg (Reg.hrdCpyErr c) 0).count64 (Reg.hrdCpyCntBytes c) j.d.len).cpyComplete_noWord hcpl false
  have hcount : (0 : Nat) % 2 = 0 ∧ 0 / 4 = 0 ∧ ¬ j.skip = true := ⟨rfl, rfl, by rw [hskip]; decide⟩
  refine ⟨_, rfl, ?_, fun o => ?_⟩
  · rw [if_pos hcount]
    exact (congrArg State.mem hp).trans rfl
  · rw [if_pos hcount]
    exact (congrArg (State.rd · o) hp).trans rfl

/-- TAIL moves on by one place, and BUSY with it. -/
theorem State.cpyNext_spec (hn : s.rd (Reg.hrdCpySize c) ≠ 0) (hmax : s.rd (Reg.hrdCpySize c) ≤ 4096) :
    ((s.cpyAdvance c 1).cpyBusy c).rd (Reg.hrdCpyTail c) = (s.fld (Reg.hrdCpyTail c) 12 0 + 1) % (2 * s.rd (Reg.hrdCpySize c))
      ∧ RegsKept s ((s.cpyAdvance c 1).cpyBusy c) [Reg.hrdCpyTail c, Reg.hrdCpyStat c] := by
  refine ⟨?_, ((s.cpyAdvance_kept c 1).mono (by simp)).trans ((State.cpyBusy_kept _ c).mono (by simp))⟩
  rw [← s.rd_cpyAdvance c hn hmax]
  refine State.cpyBusy_kept _ c _ ?_
  simp [Reg.hrdCpyTail, Reg.hrdCpyStat]

/-- The words of a channel that the end of a descriptor writes, and its ring's size, stand apart. -/
theorem hrdCpyWords_apart (c : Nat) :
    Reg.hrdCpyTail c ∉ [Reg.hrdCpyCntBytes c, Reg.hrdCpyCntBytes c + 4]
      ∧ Reg.hrdCpySize c ∉ [Reg.hrdCpyCntBytes c, Reg.hrdCpyCntBytes c + 4]
      ∧ Reg.hrdCpyCntBytes c ∉ [Reg.hrdCpyTail c, Reg.hrdCpyStat c]
      ∧ Reg.hrdCpyCntBytes c + 4 ∉ [Reg.hrdCpyTail c, Reg.hrdCpyStat c] := by
  simp only [Reg.hrdCpyTail, Reg.hrdCpyStat, Reg.hrdCpySize, Reg.hrdCpyCntBytes, List.mem_cons, List.not_mem_nil, or_false]
  omega

/-- A descriptor that ends without an error or a completion word: its bytes counted and TAIL moved on. -/
theorem State.cpyEnd_clean {j : CpyJob} (hskip : j.skip = false) (hcpl : j.d.cpl = 0) (hn : s.rd (Reg.hrdCpySize c) ≠ 0)
    (hmax : s.rd (Reg.hrdCpySize c) ≤ 4096) :
    (s.cpyEnd c j 0).mem = s.mem ∧ (s.cpyEnd c j 0).rd64 (Reg.hrdCpyCntBytes c) = (s.rd64 (Reg.hrdCpyCntBytes c) + j.d.len) % 2 ^ 64
      ∧ (s.cpyEnd c j 0).rd (Reg.hrdCpyTail c) = (s.fld (Reg.hrdCpyTail c) 12 0 + 1) % (2 * s.rd (Reg.hrdCpySize c))
      ∧ RegsKept s (s.cpyEnd c j 0) [Reg.hrdCpyCntBytes c, Reg.hrdCpyCntBytes c + 4, Reg.hrdCpyTail c, Reg.hrdCpyStat c] := by
  obtain ⟨x, hend, hmem, hx⟩ := s.cpyEnd_counts c hskip hcpl
  have hor : ∀ o, (s.orReg (Reg.hrdCpyErr c) 0).rd o = s.rd o := fun o => s.orReg_zero_kept _ o List.not_mem_nil
  have hkept : RegsKept s x [Reg.hrdCpyCntBytes c, Reg.hrdCpyCntBytes c + 4] := fun o ho =>
    (hx o).trans ((State.put64_kept _ _ _ o ho).trans (hor o))
  have hbytes : x.rd64 (Reg.hrdCpyCntBytes c) = (s.rd64 (Reg.hrdCpyCntBytes c) + j.d.len) % 2 ^ 64 := by
    rw [State.rd64_eq, hx, hx, ← State.rd64_eq, State.count64, State.rd64_put64, Nat.mod_mod, State.rd64_eq, hor, hor, ← State.rd64_eq]
  obtain ⟨atail, asize, alo, ahi⟩ := hrdCpyWords_apart c
  have hsize := hkept _ asize
  rw [← hsize] at hn hmax
  obtain ⟨hnext, hrest⟩ := x.cpyNext_spec c hn hmax
  rw [hend]
  refine ⟨hmem, ?_, ?_, (hkept.mono (by simp)).trans (hrest.mono (by simp))⟩
  · rw [← hbytes, State.rd64_eq, State.rd64_eq, hrest _ alo, hrest _ ahi]
  · rw [hnext, State.fld, hkept _ atail, hsize, State.fld]

end

/-! ### A descriptor that cannot be read (R419, R660) -/

section
variable {s : State} {c : Fin 4}

theorem State.cpyJob_unreadable (h : s.cpyDesc c 0 = none) : s.cpyJob c = none := by
  unfold State.cpyJob
  rw [h]
  exact ite_self _

/-- It sets the error bit, and no byte of memory changes. -/
theorem State.cpyRun_unreadable (hdesc : s.cpyDesc c 0 = none) (hmoved : s.copy[c].moved = 0) (hbegun : s.copy[c].begun = false)
    (hsoft : s.mem.soft = []) (data : List Byte) (err : Bool) :
    (s.cpyRun c data err).bit (Reg.hrdCpyErr c) 0 = true ∧ (s.cpyRun c data err).mem = s.mem := by
  obtain ⟨hmem, hbit, hdesc1⟩ := State.cpyFetch_unreadable hdesc hsoft
  unfold State.cpyRun
  rw [if_pos ⟨hmoved, by rw [hbegun]; decide⟩]
  dsimp only
  rw [State.cpyJob_unreadable hdesc1]
  generalize s.cpyFetch c 0 = s1 at hmem hbit
  refine ⟨Eq.trans ?_ hbit, hmem⟩
  refine congrArg (bitN · 0) ((State.cpyBusy_kept _ c _ ?_).trans (State.cpyAdvance_kept _ c 1 _ ?_))
  · simp [Reg.hrdCpyErr, Reg.hrdCpyStat]
  · simp [Reg.hrdCpyErr, Reg.hrdCpyTail]

end

/-! ### A transfer between two memories of this package (R444, R445) -/

/-- A channel is about to move `d`, from local address `a` to `b`, in memory that holds no error: both ranges and the descriptor lie apart,
and no other channel has a descriptor to run. -/
structure LocalCopy (s : State) (c : Fin 4) (d : CpyDesc) (a b : Nat) : Prop where
  waiting : s.cpyWaiting c ≠ 0
  others : ∀ x : Fin 4, x ≠ c → s.cpyWaiting x = 0
  desc : s.cpyDesc c 0 = some d
  core : c.val ≠ 0
  fill : s.copy[c].fill = []
  reads : s.copy[c].reads = []
  awaits : s.copy[c].awaits = []
  err : s.copy[c].err = 0
  moved : s.copy[c].moved = 0
  begun : s.copy[c].begun = false
  lenPos : d.len ≠ 0
  lenMax : d.len ≤ 67108864
  flags : d.flags / 2 ^ 10 = 0
  cpl : d.cpl = 0
  src : s.cpySide (bitN d.flags 0) d.src d.len = .memory a
  dst : s.cpySide (bitN d.flags 1) d.dst d.len = .memory b
  bad : s.mem.bad = []
  soft : s.mem.soft = []
  apart : a + d.len ≤ b ∨ b + d.len ≤ a
  descApart : b + d.len ≤ s.cpySlot c 0 % 2 ^ 42 ∨ s.cpySlot c 0 % 2 ^ 42 + 32 ≤ b

/-- The machine with the first `n` bytes of a transfer moved, the next turn of the channels at `turn`. -/
def State.cpyMoved (s : State) (c : Fin 4) (a b n turn : Nat) : State :=
  { s with mem := s.mem.setBytes b (s.mem.bytes a n), copy := s.copy.set c { s.copy[c] with moved := n }
           ddr := { s.ddr with copyTurn := turn } }

/-- Bytes that a write does not reach. -/
theorem Mem.bytes_setBytes_apart (m : Mem) {a b n : Nat} {bs : List Byte} (h : b + bs.length ≤ a ∨ a + n ≤ b) :
    (m.setBytes b bs).bytes a n = m.bytes a n := by
  refine List.map_congr_left fun i hi => m.byte_setBytes_ne b ?_
  have := List.mem_range.1 hi
  omega

section
variable {s : State} (hbad : s.mem.bad = []) (hsoft : s.mem.soft = [])
include hbad hsoft

/-- The source of a transfer in memory without errors. -/
theorem State.cpySource_memory_clean (st : CopySt) (a o n : Nat) (data : List Byte) :
    s.cpySource st (.memory a) o n data = ((s.mem.bytes (a + o) n).map (fun x => (x, false)), s) := by
  unfold State.cpySource
  dsimp only
  rw [State.readMeets_clean hbad hsoft, State.badIn_clean hbad, Mem.bytes, List.map_map]
  rfl

/-- The destination of one, which takes no poison. -/
theorem State.cpyWrite_memory_clean (b o : Nat) (bs : List Byte) :
    s.cpyWrite (.memory b) o (bs.map (fun x => (x, false))) = ([], { s with mem := s.mem.setBytes (b + o) bs }) := by
  have hbytes : (bs.map (fun x => (x, false))).map Prod.fst = bs := List.map_map.trans (List.map_id bs)
  have hpoison : (bs.map (fun x => (x, false))).zipIdx.filterMap (fun x => if x.1.2 then some (b + o + x.2) else none) = [] :=
    List.filterMap_eq_nil_iff.2 fun x hx => by
      obtain ⟨y, -, hy⟩ := List.mem_map.1 (List.fst_mem_of_mem_zipIdx hx)
      rw [← hy]
      rfl
  unfold State.cpyWrite
  dsimp only
  rw [hpoison, hbytes, State.memWrite_clean hbad hsoft]
  rfl

end

section
variable {s : State} {c : Fin 4} {d : CpyDesc} {a b n turn : Nat}

theorem State.cpyMoved_copy : (s.cpyMoved c a b n turn).copy[c] = { s.copy[c] with moved := n } := by
  simp [State.cpyMoved]

theorem State.cpyMoved_cpyWaiting (x : Nat) : (s.cpyMoved c a b n turn).cpyWaiting x = s.cpyWaiting x := rfl

theorem State.cpyMoved_zero (h : s.copy[c].moved = 0) : s.cpyMoved c a b 0 s.ddr.copyTurn = s := by
  have hcopy : s.copy.set c { s.copy[c] with moved := 0 } = s.copy := by
    rw [← h]
    exact Vector.set_getElem_self _
  rw [State.cpyMoved, hcopy]
  rfl

/-- Bytes moved one run after another. -/
theorem State.cpyMoved_add (s : State) (c : Fin 4) (a b n turn k : Nat) :
    State.modCopy { s.cpyMoved c a b n turn with mem := (s.cpyMoved c a b n turn).mem.setBytes (b + n) (s.mem.bytes (a + n) k) } c
      (fun st => { st with moved := st.moved + k }) = s.cpyMoved c a b (n + k) turn := by
  have hmem : (s.cpyMoved c a b n turn).mem.setBytes (b + n) (s.mem.bytes (a + n) k) = s.mem.setBytes b (s.mem.bytes a (n + k)) := by
    rw [Mem.bytes_add, Mem.setBytes_append, Mem.bytes_length]
    rfl
  have hcopy : (s.cpyMoved c a b n turn).copy.set c { (s.cpyMoved c a b n turn).copy[c] with moved := (s.cpyMoved c a b n turn).copy[c].moved + k }
      = s.copy.set c { s.copy[c] with moved := n + k } := by
    rw [State.cpyMoved_copy]
    exact Vector.set_set ..
  unfold State.modCopy
  rw [hmem]
  exact congrArg (fun cp => { s.cpyMoved c a b (n + k) turn with copy := cp }) hcopy

/-- Of several channels of which one alone is ready, it has the turn. -/
theorem find?_turn {p : Fin 4 → Bool} (hc : p c = true) (hx : ∀ x, x ≠ c → p x = false) (turn : Nat) :
    ((List.range 4).map (fun i => Fin.ofNat 4 (turn + i))).find? p = some c := by
  have hmem : c ∈ (List.range 4).map (fun i => Fin.ofNat 4 (turn + i)) := by
    refine List.mem_map.2 ⟨(c + 4 - turn % 4) % 4, List.mem_range.2 (Nat.mod_lt _ (by decide)), Fin.ext ?_⟩
    rw [Fin.val_ofNat]
    omega
  obtain ⟨x, hfind⟩ := Option.isSome_iff_exists.1 (List.find?_isSome.2 ⟨c, hmem, hc⟩)
  rw [hfind]
  by_contra hne
  have := hx x (fun h => hne (congrArg some h))
  rw [List.find?_some hfind] at this
  cases this

section
variable (h : LocalCopy s c d a b)
include h

theorem LocalCopy.cpyJob (hn : n ≤ d.len) : (s.cpyMoved c a b n turn).cpyJob c = some ⟨d, .memory a, .memory b, false⟩ := by
  have hlen := s.mem.bytes_length a n
  have hdesc : (s.cpyMoved c a b n turn).cpyDesc c 0 = some d := by
    rw [← h.desc]
    refine State.cpyDesc_congr (fun _ _ => rfl) rfl rfl (s.mem.setBytes_errors b _).1 (s.mem.bytes_setBytes_apart ?_)
    have := h.descApart
    omega
  have hfill : (s.cpyMoved c a b n turn).copy[c].fill = [] := by rw [State.cpyMoved_copy, h.fill]
  unfold State.cpyJob
  rw [State.cpyMoved_cpyWaiting, if_neg (not_or_intro h.waiting fun h0 => h.core h0.1), hdesc, hfill]
  exact congrArg₂ (fun x y => some (CpyJob.mk d x y false)) h.src h.dst

theorem LocalCopy.not_cpyBad (t : State) : t.cpyBad ⟨d, .memory a, .memory b, false⟩ = false := by
  have hflags : bitsN d.flags 31 10 = 0 := by
    rw [bitsN, Nat.shiftRight_eq_div_pow, h.flags]
    rfl
  unfold State.cpyBad
  simp [h.lenPos, h.lenMax, hflags, h.cpl]

theorem LocalCopy.cpyReady (hn : n ≤ d.len) : (s.cpyMoved c a b n turn).cpyReady c c = decide (n < d.len) := by
  unfold State.cpyReady
  rw [h.cpyJob hn, State.cpyMoved_copy]
  dsimp only
  rw [h.not_cpyBad, h.reads, h.err]
  simp

theorem LocalCopy.cpyReady_other {x : Fin 4} (hx : x ≠ c) : (s.cpyMoved c a b n turn).cpyReady c x = false := by
  have hjob : (s.cpyMoved c a b n turn).cpyJob x = none := if_pos (.inl (h.others x hx))
  rw [State.cpyReady, hjob]

/-- A block moved: the next bytes of the source, which no block has reached, stand behind those moved before. -/
theorem LocalCopy.cpyBlock (hn : n ≤ d.len) (data : List Byte) : (s.cpyMoved c a b n turn).cpyBlock c data
    = s.cpyMoved c a b (n + min 256 (d.len - n)) turn := by
  obtain ⟨hb, hs⟩ := s.mem.setBytes_errors b (s.mem.bytes a n)
  have hlen := s.mem.bytes_length a n
  have hapart := h.apart
  unfold State.cpyBlock
  rw [h.cpyJob hn]
  dsimp only
  rw [State.cpyMoved_copy]
  dsimp only
  generalize hk : min 256 (d.len - n) = k
  have hsrc : (s.cpyMoved c a b n turn).mem.bytes (a + n) k = s.mem.bytes (a + n) k := s.mem.bytes_setBytes_apart (by omega)
  have hany : ((s.mem.bytes (a + n) k).map (fun x => (x, false))).any Prod.snd = false := by
    rw [List.any_map]
    exact List.any_eq_false.2 fun _ _ => Bool.false_ne_true
  rw [State.cpySource_memory_clean (hb.trans h.bad) (hs.trans h.soft), hsrc]
  dsimp only
  rw [State.cpyWrite_memory_clean (hb.trans h.bad) (hs.trans h.soft)]
  simp only [hany, List.append_nil]
  exact s.cpyMoved_add c a b n turn k

theorem LocalCopy.cpyBlocks_step (hlt : n < d.len) (data : List Byte) (k : Nat) : (s.cpyMoved c a b n turn).cpyBlocks c data (k + 1)
    = (s.cpyMoved c a b (n + min 256 (d.len - n)) ((c.val + 1) % 4)).cpyBlocks c data k := by
  have hready : (s.cpyMoved c a b n turn).cpyReady c c = true := (h.cpyReady hlt.le).trans (decide_eq_true hlt)
  rw [State.cpyBlocks, hready, find?_turn hready (fun x hx => h.cpyReady_other hx)]
  change State.cpyBlocks { (s.cpyMoved c a b n turn).cpyBlock c data with ddr := _ } c data k = _
  rw [h.cpyBlock hlt.le]
  rfl

/-- Blocks are moved until the last, with fuel for each. -/
theorem LocalCopy.cpyBlocks (data : List Byte) (k : Nat) : ∀ n turn, n ≤ d.len → d.len ≤ n + 256 * k →
    ∃ turn', (s.cpyMoved c a b n turn).cpyBlocks c data k = s.cpyMoved c a b d.len turn' := by
  induction k with
  | zero =>
    intro n turn hn hk
    exact ⟨turn, by rw [show d.len = n by omega]; rfl⟩
  | succ k ih =>
    intro n turn hn hk
    rcases hn.lt_or_eq with hlt | rfl
    · rw [h.cpyBlocks_step hlt]
      exact ih _ _ (by omega) (by omega)
    · refine ⟨turn, ?_⟩
      rw [State.cpyBlocks, h.cpyReady le_rfl, decide_eq_false (lt_irrefl _)]
      rfl

/-- The descriptor runs: its bytes are moved, and it ends without an error. -/
theorem LocalCopy.cpyRun (data : List Byte) (err : Bool) :
    ∃ turn, s.cpyRun c data err = (s.cpyMoved c a b d.len turn).cpyEnd c ⟨d, .memory a, .memory b, false⟩ 0 := by
  have hstart := State.cpyMoved_zero (a := a) (b := b) h.moved
  have hjob : s.cpyJob c = some ⟨d, .memory a, .memory b, false⟩ := by
    rw [← h.cpyJob (turn := s.ddr.copyTurn) (Nat.zero_le _), hstart]
  have hmax := h.lenMax
  obtain ⟨turn, hblocks⟩ := h.cpyBlocks data (4 * 262144 + 4) 0 s.ddr.copyTurn (Nat.zero_le _) (by omega)
  rw [hstart] at hblocks
  refine ⟨turn, ?_⟩
  unfold State.cpyRun
  rw [if_pos ⟨h.moved, by rw [h.begun]; decide⟩, State.cpyFetch_clean h.desc h.bad h.soft]
  dsimp only
  rw [hjob]
  dsimp only
  rw [h.not_cpyBad, hblocks, State.cpyMoved_copy]
  dsimp only
  rw [h.err, h.awaits]
  simp [CpySide.onBus]

/-- What it leaves: its bytes in memory, its channel's words moved on, every other word as before. -/
theorem LocalCopy.cpyRun_spec (hmax : s.rd (Reg.hrdCpySize c) ≤ 4096) (data : List Byte) (err : Bool) :
    (s.cpyRun c data err).mem = (s.memWrite b (s.mem.bytes a d.len)).mem
      ∧ (s.cpyRun c data err).rd64 (Reg.hrdCpyCntBytes c) = (s.rd64 (Reg.hrdCpyCntBytes c) + d.len) % 2 ^ 64
      ∧ (s.cpyRun c data err).rd (Reg.hrdCpyTail c) = (s.fld (Reg.hrdCpyTail c) 12 0 + 1) % (2 * s.rd (Reg.hrdCpySize c))
      ∧ RegsKept s (s.cpyRun c data err) [Reg.hrdCpyCntBytes c, Reg.hrdCpyCntBytes c + 4, Reg.hrdCpyTail c, Reg.hrdCpyStat c] := by
  have hn : s.rd (Reg.hrdCpySize c) ≠ 0 := fun h0 => h.waiting (if_pos h0)
  obtain ⟨turn, hrun⟩ := h.cpyRun data err
  rw [hrun, State.memWrite_clean h.bad h.soft]
  exact (s.cpyMoved c a b d.len turn).cpyEnd_clean c (j := ⟨d, .memory a, .memory b, false⟩) rfl h.cpl hn hmax

end

end

/-! ### O55 -/

theorem exec_copyDescriptorComplete {s : State} {c : Fin 4} (hal : s.alive = true) (hg : s.gaitN ≠ 0) (hwait : s.cpyWaiting c ≠ 0)
    (hfill : c.val = 0 → s.copy[c].fill ≠ []) (data : List Byte) (err : Bool) :
    exec (.copyDescriptorComplete c data err) s = .next (s.cpyRun c data err) :=
  (if_neg (not_or_intro (not_not_intro hal) hg)).trans
    (if_neg (not_or_intro (fun h => hfill h.1 (List.isEmpty_iff.1 h.2)) hwait))

/-- Settles O55: a descriptor, the scrubber and the memory controllers, then inbound PCI Express; the errors the scrubber meets are free
(log 121). -/
theorem memoryEvents : Obligations.MemoryEvents := by
  unfold Obligations.MemoryEvents
  refine ⟨fun s c hal hg => ⟨fun hwait hfill data err => ⟨exec_copyDescriptorComplete hal hg hwait hfill data err, ?unreadable, ?moves⟩,
    ?scrub, fun k r => ⟨?rate, fun hr => ?steady, fun hr => ?drift⟩⟩, fun s hal hg hend => ⟨fun hrdy b w a n d => ?notReady,
      fun hrdy => ⟨fun b a l n d hbar => ⟨?write, fun hbad hsoft => ?read⟩, fun a n d => ?beyond, fun a n d ha hsel => ?controlWrite,
        fun a n d ha hsel => ?controlRead⟩⟩⟩
  case unreadable => exact fun hdesc hmoved hbegun hsoft => State.cpyRun_unreadable hdesc hmoved hbegun hsoft data err
  case moves =>
    intro d a b hdesc hempty hmoved hbegun herr hreads hawaits hothers hpos hlen hflags hcpl hsrc hdst hbad hsoft hsize hapart hslot
    have hcopy : LocalCopy s c d a b :=
      { waiting := hwait, others := hothers, desc := hdesc, core := fun h0 => hfill h0 hempty, fill := hempty, reads := hreads
        awaits := hawaits, err := herr, moved := hmoved, begun := hbegun, lenPos := hpos, lenMax := hlen, flags := hflags, cpl := hcpl
        src := hsrc, dst := hdst, bad := hbad, soft := hsoft, apart := hapart, descApart := hslot }
    exact hcopy.cpyRun_spec hsize data err
  case scrub =>
    have hlow := s.upsets.readMeets_softIn_self (64 * s.ddr.scrub) 64
    exact ⟨exec_patrolScrub hal hg,
      (s.upsets_softOnly.trans (s.upsets.readMeets_softOnly _ 64)).trans (State.readMeets_softOnly _ _ 64),
      State.readMeets_softIn_nil _ hlow _ 64, State.readMeets_softIn_self _ _ 64⟩
  case rate => exact if_neg (not_or_intro (not_not_intro hal) hg)
  case steady => exact if_pos (.inr (.inr hr))
  case drift => exact if_neg (not_or_intro (not_not_intro hal) (not_or_intro hg (Nat.not_le.2 hr)))
  case notReady => exact exec_pcieInboundRequest_notReady hrdy w
  case write =>
    refine (exec_pcieInboundRequest_memory hal hg hend hrdy hbar true).trans (congrArg Host.Outcome.next ?_)
    exact s.pcieMemory_write l d
  case read =>
    refine (exec_pcieInboundRequest_memory hal hg hend hrdy hbar false).trans (congrArg Host.Outcome.next ?_)
    exact State.pcieMemory_read_clean hbad hsoft l n d
  case beyond => exact exec_pcieInboundRequest_beyond hal hg hend hrdy
  case controlWrite =>
    exact (exec_pcieInboundRequest_control hal hg hend hrdy true).trans (congrArg Host.Outcome.next (State.pcieControl_write ha hsel))
  case controlRead =>
    exact (exec_pcieInboundRequest_control hal hg hend hrdy false).trans (congrArg Host.Outcome.next (State.pcieControl_read ha hsel))

end Sys2Proof.Machine
end

section
/-! SUPPORT. The bring-up of a die in full (R470 to R472): the ports that come up, its tiles idle or out of service, and the entry to Trot;
then the chain of test access (R479 to R482). With them O53. -/

namespace Sys2Proof.Machine

/-! ### Masks and runs over units -/

/-- A mask built from powers of two holds one bit for each number that passes. -/
theorem bitN_mask (ok : Nat → Bool) (n i : Nat) :
    bitN ((List.range n).foldl (fun m p => if ok p then m + 2 ^ p else m) 0) i = (decide (i < n) && ok i) := by
  induction n generalizing i with
  | zero => simp [bitN_eq]
  | succ n ih =>
    rw [List.range_succ, List.foldl_append, List.foldl_cons, List.foldl_nil]
    generalize List.foldl _ 0 (List.range n) = m at ih
    have hlt : m < 2 ^ n := Nat.lt_pow_two_of_testBit m fun j hj => by
      rw [← bitN_eq, ih, decide_eq_false (Nat.not_lt.2 hj), Bool.false_and]
    have hstep : bitN (if ok n then m + 2 ^ n else m) i = (bitN m i || (ok n && decide (n = i))) := by
      split
      case isTrue hok =>
        have hor : m + 2 ^ n = m ||| 2 ^ n := by
          rw [Nat.add_comm, Nat.or_comm]
          simpa using Nat.two_pow_add_eq_or_of_lt hlt 1
        rw [hor, bitN_or, bitN_two_pow, hok, Bool.true_and]
      case isFalse hok => simp [hok]
    rw [hstep, ih]
    by_cases hi : n = i
    · subst hi
      simp
    · have hrange : i < n + 1 ↔ i < n := by omega
      simp [hi, hrange]

/-- A run over units of which each step gives its own unit a new reading and leaves the others': each unit is read anew once. -/
theorem foldl_each {σ α β : Type} (f : σ → α → σ) (obs : σ → α → β) (g : α → β → β)
    (hself : ∀ s x, obs (f s x) x = g x (obs s x)) (hother : ∀ s x y, y ≠ x → obs (f s x) y = obs s y)
    {l : List α} (hl : l.Nodup) (s : σ) {y : α} (hy : y ∈ l) : obs (l.foldl f s) y = g y (obs s y) := by
  have hkeep : ∀ (l : List α) (s : σ), y ∉ l → obs (l.foldl f s) y = obs s y := fun l s hy =>
    List.foldlRecOn (motive := fun t => obs t y = obs s y) l f rfl fun t ht x hx =>
      (hother t x y (ne_of_mem_of_not_mem hx hy).symm).trans ht
  induction l generalizing s with
  | nil => cases hy
  | cons x l ih =>
    obtain ⟨hx, hl⟩ := List.nodup_cons.1 hl
    rw [List.foldl_cons]
    rcases List.mem_cons.1 hy with rfl | hy
    · rw [hkeep l _ hx, hself]
    · rw [ih hl _ hy, hother _ _ _ (ne_of_mem_of_not_mem hy hx)]

theorem mem_dieTileIds {d : Nat} {t : TileId} : t ∈ dieTileIds d ↔ t.val / 16 = d := by
  simp [dieTileIds]

theorem dieTileIds_nodup (d : Nat) : (dieTileIds d).Nodup := (List.nodup_finRange 32).filter _

/-! ### What bring-up may change -/

/-- Registers that meet `W`, the tiles' records and the log alone change. -/
def Touches (W : Nat → Prop) (s t : State) : Prop :=
  (∀ o, ¬ W o → t.rd o = s.rd o) ∧ t = { s with regs := t.regs, tiles := t.tiles, log := t.log }

/-- The words of the EVT block, and those of the two dies' bond ports. -/
def PortWord (o : Nat) : Prop := (0x80000 ≤ o ∧ o < 0xC0000) ∨ (0x140100 ≤ o ∧ o < 0x140140)

/-- The words of the EVT block, and those of the tiles. -/
def TileWord (o : Nat) : Prop := (0x80000 ≤ o ∧ o < 0xC0000) ∨ 0x1000000 ≤ o

section
variable {W : Nat → Prop} {s t u : State}

theorem Touches.refl (W : Nat → Prop) (s : State) : Touches W s s := ⟨fun _ _ => rfl, rfl⟩

theorem Touches.trans (h : Touches W s t) (h' : Touches W t u) : Touches W s u :=
  ⟨fun o ho => (h'.1 o ho).trans (h.1 o ho), by rw [h'.2, h.2]⟩

theorem Touches.mono {W' : Nat → Prop} (h : Touches W s t) (hW : ∀ o, W o → W' o) : Touches W' s t :=
  ⟨fun o ho => h.1 o fun hw => ho (hW o hw), h.2⟩

theorem Touches.foldl {α : Type} (l : List α) (f : State → α → State) (s : State)
    (h : ∀ (t : State), ∀ x ∈ l, Touches W t (f t x)) : Touches W s (l.foldl f s) :=
  List.foldlRecOn l f (Touches.refl W s) fun t ht x hx => ht.trans (h t x hx)

theorem State.put_touches {o : Nat} (v : Nat) (ho : W o) : Touches W s (s.put o v) :=
  ⟨fun _ hk => State.rd_put_ne s v fun h => hk (h ▸ ho), rfl⟩

theorem State.putB_touches {o : Nat} (i : Nat) (b : Bool) (ho : W o) : Touches W s (s.putB o i b) := State.put_touches _ ho

theorem State.logEvent_touches (code unit src data : Nat) (hW : ∀ o, 0x80000 ≤ o → o < 0xC0000 → W o) :
    Touches W s (s.logEvent code unit src data) :=
  ⟨fun o ho => s.logEvent_evtOnly _ _ _ _ _ (by
      by_contra! hin
      exact ho (hW o hin.1 hin.2)),
    by rw [State.logEvent_eq]⟩

theorem State.setTileState_touches (x : TileId) (v : Nat) : Touches TileWord s (s.setTileState x v) := by
  obtain ⟨hkept, -, -, heq⟩ := s.setTileState_frame x v
  refine ⟨fun o ho => hkept o ?_, by rw [heq]⟩
  rw [List.mem_singleton]
  rintro rfl
  exact ho (.inr (by unfold Reg.tileState; omega))

theorem Touches.bit (h : Touches W s t) {o : Nat} (ho : ¬ W o) (i : Nat) : t.bit o i = s.bit o i := congrArg (bitN · i) (h.1 o ho)

theorem Touches.tileState (h : Touches W s t) {x : TileId} (hx : ¬ W (Reg.tileState x)) : t.tileState x = s.tileState x :=
  congrArg (bitsN · 2 0) (h.1 _ hx)

end

/-- Bring-up writes above the gait's own words. -/
theorem le_tileDieStat (d : Nat) : 0x80000 ≤ Reg.tileDieStat d := by
  unfold Reg.tileDieStat
  omega

theorem le_tileBondPstat (d p : Nat) : 0x80000 ≤ Reg.tileBondPstat d p := by
  unfold Reg.tileBondPstat
  omega

/-! ### A die settled -/

/-- A die leaves the state of waiting for bring-up: 1 present, 2 absent. -/
def State.settleDie (s : State) (d : DieId) (n : Nat) : State :=
  ({ s with stack := { s.stack with bring := s.stack.bring.set d n } } : State).bringUpEnd

/-- With one die settled, some die still waits exactly where the other does. -/
theorem any_waiting_set (v : Vector Nat 2) (d : DieId) {n : Nat} (hn : n ≠ 0) :
    ((v.set d n).toList.any (· == 0)) = decide (v[1 - d] = 0) := by
  obtain ⟨⟨l⟩, hl⟩ := v
  match l, hl with
  | [a, b], _ =>
    match d with
    | 0 => simp [hn, beq_eq_decide]
    | 1 => simp [hn, beq_eq_decide]

section
variable (s : State) (d : DieId)

theorem State.settleDie_frame (n : Nat) : RegsKept s (s.settleDie d n) [Reg.gaitWakeSrc, Reg.gaitStat]
    ∧ s.settleDie d n = { s with regs := (s.settleDie d n).regs, gait := (s.settleDie d n).gait
                                 stack := { s.stack with bring := s.stack.bring.set d n } } :=
  State.bringUpEnd_frame _

/-- A die settled changes no word beyond those of the gait. -/
theorem State.rd_settleDie (n : Nat) {o : Nat} (ho : 0x80000 ≤ o) : (s.settleDie d n).rd o = s.rd o := by
  refine (s.settleDie_frame d n).1 o ?_
  simp only [List.mem_cons, List.not_mem_nil, or_false]
  unfold Reg.gaitWakeSrc Reg.gaitStat
  omega

theorem State.bit_settleDie (n i : Nat) {o : Nat} (ho : 0x80000 ≤ o) : (s.settleDie d n).bit o i = s.bit o i :=
  congrArg (bitN · i) (s.rd_settleDie d n ho)

theorem State.tileState_settleDie (n : Nat) (x : TileId) : (s.settleDie d n).tileState x = s.tileState x :=
  congrArg (bitsN · 2 0) (s.rd_settleDie d n (by unfold Reg.tileState; omega))

theorem State.diePorts_settleDie (n : Nat) : (s.settleDie d n).diePorts d = s.diePorts d :=
  congrArg (bitsN · 15 8) (s.rd_settleDie d n (le_tileDieStat d))

/-- The other die waits, or not, as before. -/
theorem State.bring_settleDie (n : Nat) :
    (s.settleDie d n).stack.bring[d] = n ∧ (s.settleDie d n).stack.bring[1 - d] = s.stack.bring[1 - d] := by
  have hother : (d : Nat) ≠ ((1 - d : DieId) : Nat) := by
    revert d
    decide
  rw [(s.settleDie_frame d n).2]
  exact ⟨Vector.getElem_set_self d.isLt, Vector.getElem_set_ne d.isLt (1 - d).isLt hother⟩

/-- With both dies settled the package is in Trot (Table 14-3). -/
theorem State.gaitN_settleDie {n : Nat} (hn : n ≠ 0) : (s.settleDie d n).gaitN = if s.stack.bring[1 - d] = 0 then s.gaitN else 2 := by
  unfold State.settleDie State.bringUpEnd
  dsimp only
  rw [any_waiting_set _ d hn]
  by_cases hwait : s.stack.bring[1 - d] = 0
  · rw [if_pos (decide_eq_true hwait), if_pos hwait]
    rfl
  · rw [if_neg (by simpa using hwait), if_neg hwait]
    generalize hs1 : State.setGait _ 2 _ = s1
    have htrot : (s1.setTrans .none false).gaitN = 2 := by
      rw [State.gaitN_setTrans, ← hs1, State.gaitN_setGait _ (by decide)]
    rw [State.runWake_of_trot _ htrot.ge]
    exact htrot

end

/-- A die settled after steps that leave the gait's words: what of the package it then leaves. -/
theorem Touches.settleDie_spec {s t : State} (h : Touches (fun o => 0x80000 ≤ o) s t) (d : DieId) {n : Nat} (hn : n ≠ 0) :
    (t.settleDie d n).gaitN = (if s.stack.bring[1 - d] = 0 then s.gaitN else 2) ∧ (t.settleDie d n).stack.bring[d] = n
      ∧ (t.settleDie d n).stack.bring[1 - d] = s.stack.bring[1 - d] ∧ (t.settleDie d n).mem = s.mem
      ∧ (t.settleDie d n).frm = s.frm ∧ (t.settleDie d n).time = s.time := by
  have hgait : t.gaitN = s.gaitN := congrArg (bitsN · 1 0) (h.1 Reg.gaitStat (by decide))
  have hstack : t.stack = s.stack := by rw [h.2]
  obtain ⟨hself, hother⟩ := t.bring_settleDie d n
  refine ⟨?_, hself, ?_, ?_, ?_, ?_⟩
  · rw [State.gaitN_settleDie _ _ hn, hgait, hstack]
  · rw [hother, hstack]
  · rw [(t.settleDie_frame d n).2, h.2]
  · rw [(t.settleDie_frame d n).2, h.2]
  · rw [(t.settleDie_frame d n).2, h.2]

/-! ### A die that comes up (R470, R471) -/

/-- The ports of a die that trained and that neither parity nor a field test removed. -/
def State.portPasses (s : State) (d : DieId) (m : BitVec 8) (p : Nat) : Bool :=
  bitN m.toNat p && !(s.bit (Reg.tileBondPstat d p) 2) && !(s.bit (Reg.tileBondPstat d p) 3)

/-- The ports that pass, as a mask. -/
def State.passMask (s : State) (d : DieId) (m : BitVec 8) : Nat :=
  (List.range 8).foldl (fun k p => if s.portPasses d m p then k + 2 ^ p else k) 0

/-- One port of a die at the end of its training. -/
def State.trainPort (d : DieId) (m : BitVec 8) (ok : Nat → Bool) (s : State) (p : Nat) : State :=
  let t := (s.putB (Reg.tileBondPstat d p) 0 (ok p)).putB (Reg.tileBondPstat d p) 1 (bitN m.toNat p)
  if bitN m.toNat p then t else t.portGone d p 0

/-- One tile of a die that came up; `was` where the die was absent before. -/
def State.idleTile (was : Bool) (s : State) (x : TileId) : State :=
  if s.tileState x = 0 ∨ (s.tileState x = 5 ∧ was) then (s.setTileState x 1).putB Reg.evtOosStat x.val false else s

/-- A die that comes up: its status, then its ports, then its tiles. -/
def State.comesUp (s : State) (d : DieId) (m : BitVec 8) : State :=
  (dieTileIds d).foldl (State.idleTile (s.bit (Reg.tileDieStat d) 1))
    ((List.range 8).foldl (State.trainPort d m (s.portPasses d m)) (s.setDieStat d (1 + 4 + 2 ^ 8 * s.passMask d m)))

/-- COMPUTE_DIE_BRING_UP with a port that passes. -/
theorem exec_computeDieBringUp {s : State} {d : DieId} {m : BitVec 8} (hal : s.alive = true) (htr : s.gait.trans = .walkToTrot)
    (hpend : s.stack.bring[d] = 0) (hmask : s.passMask d m ≠ 0) :
    exec (.computeDieBringUp d m) s = .next ((s.comesUp d m).settleDie d 1) :=
  (if_neg (by simp [hal])).trans (if_neg (not_or_intro (not_not_intro htr) (not_or_intro (not_not_intro hpend) hmask)))

section
variable {s : State} {d : DieId} {m : BitVec 8}

theorem State.bitN_passMask (p : Fin 8) : bitN (s.passMask d m) p = s.portPasses d m p := by
  rw [State.passMask, bitN_mask, decide_eq_true p.isLt, Bool.true_and]

theorem State.passMask_ne_zero {p : Fin 8} (hp : s.portPasses d m p = true) : s.passMask d m ≠ 0 := by
  intro h0
  rw [← State.bitN_passMask, h0] at hp
  simp [bitN_eq] at hp

theorem State.setDieStat_touches (d v : Nat) : Touches (· = Reg.tileDieStat d) s (s.setDieStat d v) := State.put_touches _ rfl

theorem State.trainPort_touches (ok : Nat → Bool) {p : Nat} (hp : p < 8) : Touches PortWord s (s.trainPort d m ok p) := by
  have hword : PortWord (Reg.tileBondPstat d p) := .inr (by unfold Reg.tileBondPstat; omega)
  have hbits := (State.putB_touches (s := s) 0 (ok p) hword).trans (State.putB_touches 1 (bitN m.toNat p) hword)
  unfold State.trainPort
  dsimp only
  split
  · exact hbits
  · exact hbits.trans (State.logEvent_touches _ _ _ _ fun o hlo hhi => .inl ⟨hlo, hhi⟩)

theorem State.idleTile_touches (was : Bool) (x : TileId) : Touches TileWord s (s.idleTile was x) := by
  unfold State.idleTile
  split
  · exact (s.setTileState_touches x 1).trans (State.putB_touches _ _ (.inl (by decide)))
  · exact Touches.refl _ s

/-- The log entry of a port that failed training leaves the ports' words. -/
theorem State.bit_trainPort (ok : Nat → Bool) (p q i : Nat) : (s.trainPort d m ok p).bit (Reg.tileBondPstat d q) i
    = ((s.putB (Reg.tileBondPstat d p) 0 (ok p)).putB (Reg.tileBondPstat d p) 1 (bitN m.toNat p)).bit (Reg.tileBondPstat d q) i := by
  unfold State.trainPort
  dsimp only
  split
  · rfl
  · exact (State.logEvent_evtOnly _ _ _ _ _).bit (.inr (by unfold Reg.tileBondPstat; omega)) i

theorem State.bit_trainPort_self (ok : Nat → Bool) (p i : Nat) : (s.trainPort d m ok p).bit (Reg.tileBondPstat d p) i
    = if i = 1 then bitN m.toNat p else if i = 0 then ok p else s.bit (Reg.tileBondPstat d p) i := by
  rw [State.bit_trainPort, State.bit_putB _ _ (by decide), State.bit_putB _ _ (by decide)]

theorem State.bit_trainPort_ne (ok : Nat → Bool) (p i : Nat) {q : Nat} (hq : q ≠ p) :
    (s.trainPort d m ok p).bit (Reg.tileBondPstat d q) i = s.bit (Reg.tileBondPstat d q) i := by
  have hword : Reg.tileBondPstat d q ≠ Reg.tileBondPstat d p := by unfold Reg.tileBondPstat; omega
  rw [State.bit_trainPort, State.bit_putB_ne _ _ _ _ hword, State.bit_putB_ne _ _ _ _ hword]

/-- The run over the ports gives each its two bits. -/
theorem State.bit_trainPorts (ok : Nat → Bool) (p : Fin 8) (i : Nat) :
    ((List.range 8).foldl (State.trainPort d m ok) s).bit (Reg.tileBondPstat d p) i
      = if i = 1 then bitN m.toNat p else if i = 0 then ok p else s.bit (Reg.tileBondPstat d p) i :=
  foldl_each (State.trainPort d m ok) (fun s q => s.bit (Reg.tileBondPstat d q) i)
    (fun q b => if i = 1 then bitN m.toNat q else if i = 0 then ok q else b)
    (fun s q => s.bit_trainPort_self ok q i) (fun s q _ => s.bit_trainPort_ne ok q i) List.nodup_range s (List.mem_range.2 p.isLt)

theorem State.tileState_putB_oos (i : Nat) (b : Bool) (x : TileId) : (s.putB Reg.evtOosStat i b).tileState x = s.tileState x :=
  State.fld_putB_ne s _ _ _ _ (by unfold Reg.tileState Reg.evtOosStat; omega)

theorem State.tileState_setTileState_ne (x : TileId) (v : Nat) {y : TileId} (hy : y ≠ x) :
    (s.setTileState x v).tileState y = s.tileState y := by
  refine congrArg (bitsN · 2 0) ((s.setTileState_frame x v).1 _ ?_)
  have := Fin.val_ne_of_ne hy
  rw [List.mem_singleton]
  unfold Reg.tileState
  omega

theorem State.tileState_idleTile_self (was : Bool) (x : TileId) :
    (s.idleTile was x).tileState x = if s.tileState x = 0 ∨ (s.tileState x = 5 ∧ was = true) then 1 else s.tileState x := by
  unfold State.idleTile
  split
  · rw [State.tileState_putB_oos, State.tileState_setTileState _ _ (by decide)]
  · rfl

theorem State.tileState_idleTile_ne (was : Bool) (x : TileId) {y : TileId} (hy : y ≠ x) :
    (s.idleTile was x).tileState y = s.tileState y := by
  unfold State.idleTile
  split
  · rw [State.tileState_putB_oos, State.tileState_setTileState_ne x 1 hy]
  · rfl

/-- The run over a die's tiles makes the initialised ones idle, and those its absence had put out of service. -/
theorem State.tileState_idleTiles (was : Bool) {x : TileId} (hx : x.val / 16 = d.val) :
    ((dieTileIds d).foldl (State.idleTile was) s).tileState x
      = if s.tileState x = 0 ∨ (s.tileState x = 5 ∧ was = true) then 1 else s.tileState x :=
  foldl_each (State.idleTile was) (fun s y => s.tileState y) (fun _ v => if v = 0 ∨ (v = 5 ∧ was = true) then 1 else v)
    (fun s y => s.tileState_idleTile_self was y) (fun s y _ => s.tileState_idleTile_ne was y) (dieTileIds_nodup d) s (mem_dieTileIds.2 hx)

theorem State.trainPorts_touches (ok : Nat → Bool) : Touches PortWord s ((List.range 8).foldl (State.trainPort d m ok) s) :=
  Touches.foldl _ _ _ fun _ _ hp => State.trainPort_touches ok (List.mem_range.1 hp)

theorem State.idleTiles_touches (was : Bool) : Touches TileWord s ((dieTileIds d).foldl (State.idleTile was) s) :=
  Touches.foldl _ _ _ fun _ x _ => State.idleTile_touches was x

theorem State.comesUp_touches : Touches (fun o => 0x80000 ≤ o) s (s.comesUp d m) :=
  ((State.setDieStat_touches d _).mono fun o ho => ho ▸ le_tileDieStat d).trans
    ((State.trainPorts_touches _).mono fun o ho => by unfold PortWord at ho; omega) |>.trans
    ((State.idleTiles_touches _).mono fun o ho => by unfold TileWord at ho; omega)

/-- The die is present, with those ports that pass. -/
theorem State.bit_comesUp_dieStat {i : Nat} (hi : i < 16) :
    (s.comesUp d m).bit (Reg.tileDieStat d) i = bitN (1 + 4 + 2 ^ 8 * s.passMask d m) i := by
  rw [State.comesUp, (State.idleTiles_touches _).bit (by unfold TileWord Reg.tileDieStat; omega),
    (State.trainPorts_touches _).bit (by unfold PortWord Reg.tileDieStat; omega), State.bit_setDieStat s d _ hi]

/-- The status of a die that came up: present, its clock locked, and its ports above. -/
theorem bitN_dieStat (mask i : Nat) : bitN (1 + 4 + 2 ^ 8 * mask) i = if i < 8 then bitN 5 i else bitN mask (i - 8) := by
  rw [Nat.add_comm, bitN_eq, Nat.testBit_two_pow_mul_add _ (by decide), bitN_eq, bitN_eq]

theorem State.diePorts_comesUp (p : Fin 8) : bitN ((s.comesUp d m).diePorts d) p = s.portPasses d m p := by
  have hbit := s.bit_comesUp_dieStat (d := d) (m := m) (i := 8 + p) (by omega)
  rw [State.diePorts, State.fld, bitN_bitsN, decide_eq_true (by omega), Bool.true_and]
  refine hbit.trans ?_
  rw [bitN_dieStat, if_neg (by omega), Nat.add_sub_cancel_left, State.bitN_passMask]

theorem State.bit_comesUp_port (p : Fin 8) : (s.comesUp d m).bit (Reg.tileBondPstat d p) 0 = s.portPasses d m p
    ∧ (s.comesUp d m).bit (Reg.tileBondPstat d p) 1 = bitN m.toNat p := by
  have hword : ¬ TileWord (Reg.tileBondPstat d p) := by unfold TileWord Reg.tileBondPstat; omega
  rw [State.comesUp, (State.idleTiles_touches _).bit hword, (State.idleTiles_touches _).bit hword, State.bit_trainPorts,
    State.bit_trainPorts]
  exact ⟨rfl, rfl⟩

theorem State.tileState_comesUp {x : TileId} (hx : x.val / 16 = d.val) : (s.comesUp d m).tileState x
    = if s.tileState x = 0 ∨ (s.tileState x = 5 ∧ s.bit (Reg.tileDieStat d) 1 = true) then 1 else s.tileState x := by
  rw [State.comesUp, State.tileState_idleTiles _ hx,
    (State.trainPorts_touches _).tileState (by unfold PortWord Reg.tileState; omega),
    (State.setDieStat_touches d _).tileState (by unfold Reg.tileState Reg.tileDieStat; omega)]

end

/-! ### A die declared absent (R472) -/

/-- The ports of a die that never trained are out of service. -/
def State.dropPort (d : DieId) (s : State) (p : Nat) : State :=
  (s.putB (Reg.tileBondPstat d p) 0 false).putB (Reg.tileBondPstat d p) 1 false

/-- One tile of an absent die. -/
def State.tileOut (s : State) (x : TileId) : State :=
  if s.tileState x = 4 then s else (s.setTileState x 5).putB Reg.evtOosStat x.val true

/-- A die at the 42 µs mark, before it is declared absent: its ports where they failed, and the cause's own bit. -/
def State.diePortsFailed (s : State) (d : DieId) (c : BitVec 5) : State :=
  let t := s.at_ (s.stack.startT + 42000)
  (if bitN c.toNat 3 then (List.range 8).foldl (State.dropPort d) t else t).putB (Reg.tileDieStat d) 2 (!(bitN c.toNat 2))

theorem State.dieTilesOut_eq (s : State) (d : Nat) : s.dieTilesOut d = (dieTileIds d).foldl State.tileOut s := rfl

/-- DIE_ABSENT of a die whose bring-up has not ended. -/
theorem exec_dieAbsent {s : State} {d : DieId} {c : BitVec 5} (hal : s.alive = true) (htr : s.gait.trans = .walkToTrot)
    (hpend : s.stack.bring[d] = 0) (hc : c ≠ 0) :
    exec (.dieAbsent d c) s = .next (((s.diePortsFailed d c).declareAbsent d c.toNat).settleDie d 2) :=
  (if_neg (by simp [hal])).trans (if_neg (not_or_intro (not_not_intro htr) (not_or_intro (not_not_intro hpend) hc)))

section
variable {s : State} {d : DieId}

theorem State.diePortsFailed_touches (c : BitVec 5) :
    Touches (fun o => 0x80000 ≤ o) (s.at_ (s.stack.startT + 42000)) (s.diePortsFailed d c) := by
  have hdrop : ∀ t : State, ∀ p ∈ List.range 8, Touches (fun o => 0x80000 ≤ o) t (State.dropPort d t p) := fun t p _ =>
    (State.putB_touches 0 false (le_tileBondPstat d p)).trans (State.putB_touches 1 false (le_tileBondPstat d p))
  unfold State.diePortsFailed
  dsimp only
  split
  · exact (Touches.foldl _ _ _ hdrop).trans (State.putB_touches _ _ (le_tileDieStat d))
  · exact State.putB_touches _ _ (le_tileDieStat d)

theorem State.bit_diePortsFailed (c : BitVec 5) : (s.diePortsFailed d c).bit (Reg.tileDieStat d) 2 = !(bitN c.toNat 2) := by
  rw [State.diePortsFailed, State.bit_putB _ _ (by decide), if_pos rfl]

theorem State.tileOut_touches (x : TileId) : Touches TileWord s (s.tileOut x) := by
  unfold State.tileOut
  split
  · exact Touches.refl _ s
  · exact (s.setTileState_touches x 5).trans (State.putB_touches _ _ (.inl (by decide)))

theorem State.dieTilesOut_touches : Touches TileWord s (s.dieTilesOut d) := by
  rw [State.dieTilesOut_eq]
  exact Touches.foldl _ _ _ fun _ x _ => State.tileOut_touches x

/-- STATE of a tile, and its bit of those out of service. -/
def State.service (s : State) (x : TileId) : Nat × Bool := (s.tileState x, s.bit Reg.evtOosStat x)

theorem State.service_congr {s t : State} {x : TileId} (hstate : t.rd (Reg.tileState x) = s.rd (Reg.tileState x))
    (hoos : t.rd Reg.evtOosStat = s.rd Reg.evtOosStat) : t.service x = s.service x :=
  congrArg₂ (fun v w => (bitsN v 2 0, bitN w x)) hstate hoos

theorem State.service_tileOut_self (s : State) (x : TileId) :
    (s.tileOut x).service x = if s.tileState x = 4 then s.service x else (5, true) := by
  unfold State.tileOut
  split
  · rfl
  · rw [State.service, State.tileState_putB_oos, State.tileState_setTileState _ _ (by decide), State.bit_putB _ _ x.isLt, if_pos rfl]

theorem State.service_tileOut_ne (s : State) (x : TileId) {y : TileId} (hy : y ≠ x) : (s.tileOut x).service y = s.service y := by
  have hoos : (s.setTileState x 5).bit Reg.evtOosStat y = s.bit Reg.evtOosStat y :=
    congrArg (bitN · y) ((s.setTileState_frame x 5).1 _ (by
      rw [List.mem_singleton]
      unfold Reg.tileState Reg.evtOosStat
      omega))
  unfold State.tileOut
  split
  · rfl
  · rw [State.service, State.tileState_putB_oos, State.tileState_setTileState_ne x 5 hy, State.bit_putB _ _ x.isLt,
      if_neg (Fin.val_ne_of_ne hy), hoos]
    rfl

/-- The tiles of an absent die are quarantined or out of service, and shown so. -/
theorem State.service_dieTilesOut (s : State) {x : TileId} (hx : x.val / 16 = d.val) :
    (s.dieTilesOut d).service x = if (s.service x).1 = 4 then s.service x else (5, true) :=
  foldl_each State.tileOut State.service (fun _ v => if v.1 = 4 then v else (5, true)) State.service_tileOut_self
    (fun s x _ => s.service_tileOut_ne x) (dieTileIds_nodup d) s (mem_dieTileIds.2 hx)

theorem State.declareAbsent_touches (s : State) (c : Nat) : Touches (fun o => 0x80000 ≤ o) s (s.declareAbsent d c) :=
  ((State.setDieStat_touches d _).mono fun o ho => ho ▸ le_tileDieStat d).trans
    (State.dieTilesOut_touches.mono fun o ho => by unfold TileWord at ho; omega) |>.trans
    (State.logEvent_touches _ _ _ _ fun o ho _ => ho)

/-- The status of a die declared absent: no port, absent and not present; the rest as before. -/
theorem State.bit_declareAbsent (s : State) (c : Nat) {i : Nat} (hi : i < 16) : (s.declareAbsent d c).bit (Reg.tileDieStat d) i
    = if 8 ≤ i then false else if i = 1 then true else if i = 0 then false else s.bit (Reg.tileDieStat d) i := by
  have hout : ∀ x : State, Touches TileWord x ((x.dieTilesOut d).logEvent 0x23 d 0 c) := fun x =>
    State.dieTilesOut_touches.trans (State.logEvent_touches _ _ _ _ fun o hlo hhi => .inl ⟨hlo, hhi⟩)
  rw [State.declareAbsent, (hout _).bit (by unfold TileWord Reg.tileDieStat; omega), State.bit_setDieStat s d _ hi,
    bitN_putBits (by decide), bitN_putBits (by decide), bitN_putBits (by decide), State.fld, bitN_bitsN]
  by_cases hhigh : 8 ≤ i
  · rw [if_pos hhigh, if_pos ⟨hhigh, Nat.lt_succ_iff.1 hi⟩]
    simp [bitN_eq]
  · rw [if_neg hhigh, if_neg fun h => hhigh h.1]
    rcases (by omega : i = 0 ∨ i = 1 ∨ 1 < i) with rfl | rfl | hlow
    · rfl
    · rfl
    · rw [if_neg (by omega), if_neg (by omega), if_neg (by omega), if_neg (by omega), decide_eq_true (by omega), Nat.zero_add]
      rfl

theorem State.service_logEvent (s : State) (code unit src data : Nat) (x : TileId) :
    (s.logEvent code unit src data).service x = s.service x :=
  State.service_congr (s.logEvent_evtOnly _ _ _ _ _ (.inr (by unfold Reg.tileState; omega)))
    (s.rd_logEvent_ne (by decide) (by decide) (by decide) (by decide) _ _ _ _)

theorem State.service_setDieStat (s : State) (d v : Nat) (x : TileId) : (s.setDieStat d v).service x = s.service x :=
  State.service_congr (State.rd_put_ne _ _ (by unfold Reg.tileState Reg.tileDieStat; omega))
    (State.rd_put_ne _ _ (by unfold Reg.evtOosStat Reg.tileDieStat; omega))

theorem State.service_settleDie (s : State) (d : DieId) (n : Nat) (x : TileId) : (s.settleDie d n).service x = s.service x :=
  State.service_congr (s.rd_settleDie d n (by unfold Reg.tileState; omega)) (s.rd_settleDie d n (by decide))

/-- A tile of a die declared absent stays quarantined, or is out of service and shown so. -/
theorem State.service_declareAbsent (s : State) (c : Nat) {x : TileId} (hx : x.val / 16 = d.val) :
    (s.declareAbsent d c).service x = if (s.service x).1 = 4 then s.service x else (5, true) := by
  rw [State.declareAbsent, State.service_logEvent, State.service_dieTilesOut _ hx, State.service_setDieStat]

/-- No port of a die declared absent is in service. -/
theorem State.diePorts_declareAbsent (s : State) (c : Nat) : (s.declareAbsent d c).diePorts d = 0 := by
  refine bits_ext fun i => ?_
  rw [State.diePorts, State.fld, bitN_bitsN, bitN_of_lt (Nat.two_pow_pos 0) (Nat.zero_le i), Bool.and_eq_false_imp]
  intro hi
  have hlt : 8 + i < 16 := by
    have := of_decide_eq_true hi
    omega
  exact (s.bit_declareAbsent c hlt).trans (if_pos (Nat.le_add_right 8 i))

end

/-! ### Test access (R479 to R482) -/

section
variable (s : State)

/-- Whether a die is in the chain (R480). -/
def State.inChain (d : Nat) : Bool := bitN s.stack.sel.toNat d && s.dieOn d

theorem State.bitN_selNow (d : Nat) : bitN s.selNow d = (decide (d < 2) && s.inChain d) := bitN_mask s.inChain 2 d

theorem State.stackChain_eq : s.stackChain = (List.range 2).filter s.inChain := by
  refine List.filter_congr fun d hd => ?_
  rw [State.bitN_selNow, decide_eq_true (List.mem_range.1 hd), Bool.true_and]

theorem State.stackChain_contains (d : Fin 2) : s.stackChain.contains d.val = s.inChain d := by
  rw [State.stackChain_eq, Bool.eq_iff_iff, List.contains_iff_mem, List.mem_filter, List.mem_range]
  exact and_iff_right d.isLt

/-- An instruction is held at the dies in the chain. -/
theorem State.dieIr_jtag (n : Nat) (d : Fin 2) : (s.jtag n).stack.dieIr[d] = if s.inChain d then n else s.stack.dieIr[d] := by
  rw [← State.stackChain_contains]
  exact Vector.getElem_ofFn d.isLt

/-- A die's identification code, field by field (R481). -/
theorem idcode_toNat (rev : BitVec 4) {part : Nat} (hpart : part < 2 ^ 16) :
    (idcode rev.toNat part).toNat = 1 + 2 * Config.jtagMfr.toNat + 2 ^ 12 * part + 2 ^ 28 * rev.toNat := by
  have hrev := rev.isLt
  have hmfr := Config.jtagMfr.isLt
  rw [idcode, BitVec.toNat_ofNat]
  omega

end

/-! ### O53 -/

/-- Settles O53: a die that comes up or is declared absent is a run over its ports and one over its tiles, each of which takes its own
step once, and then it is settled; ports that parity or a field test took out stay out (log 75). Test access is the chain the stack
register names, and what it captures of the scan registers is free (log 123). -/
theorem stackAndTest : Obligations.StackAndTest := by
  unfold Obligations.StackAndTest
  refine ⟨fun s d hal htr hpend => ⟨fun m hport => ?up, fun c hc => ?absent⟩,
    fun s => ⟨?bypass, ?sample, ?test, ?idcode, fun v => ?sel⟩⟩
  case up =>
    obtain ⟨p, htrained, hparity, htest⟩ := hport
    have hpass : s.portPasses d m p = true := by simp [State.portPasses, htrained, hparity, htest]
    have hbit : ∀ i < 8, ((s.comesUp d m).settleDie d 1).bit (Reg.tileDieStat d) i = bitN 5 i := fun i hi => by
      rw [State.bit_settleDie _ _ _ _ (le_tileDieStat d), State.bit_comesUp_dieStat (by omega), bitN_dieStat, if_pos hi]
    obtain ⟨hgait, hself, hother, hmem, hfrm, -⟩ := (s.comesUp_touches (d := d) (m := m)).settleDie_spec d Nat.one_ne_zero
    refine ⟨_, exec_computeDieBringUp hal htr hpend (State.passMask_ne_zero hpass), hbit 0 (by decide), hbit 1 (by decide), hgait,
      hself, hother, hmem, hfrm, fun p => ⟨?_, ?_, ?_⟩, fun x hx => ?_⟩
    · exact (State.bit_settleDie _ _ _ _ (le_tileBondPstat d p)).trans (State.bit_comesUp_port p).1
    · exact (State.bit_settleDie _ _ _ _ (le_tileBondPstat d p)).trans (State.bit_comesUp_port p).2
    · rw [State.diePorts_settleDie]
      exact State.diePorts_comesUp p
    · rw [State.tileState_settleDie]
      exact State.tileState_comesUp hx
  case absent =>
    have hbit := fun i (hi : i < 16) =>
      (State.bit_settleDie _ d 2 i (le_tileDieStat d)).trans ((s.diePortsFailed d c).bit_declareAbsent c.toNat hi)
    obtain ⟨hgait, hself, hother, hmem, -, htime⟩ :=
      ((State.diePortsFailed_touches c).trans (State.declareAbsent_touches (d := d) _ c.toNat)).settleDie_spec d (n := 2) (by decide)
    refine ⟨_, exec_dieAbsent hal htr hpend hc, hbit 0 (by decide), hbit 1 (by decide),
      (hbit 2 (by decide)).trans (State.bit_diePortsFailed c), (State.diePorts_settleDie _ _ _).trans (State.diePorts_declareAbsent _ _), hgait,
      htime, hself, hother, hmem, fun x hx => ?_⟩
    have hserv := (State.service_settleDie _ d 2 x).trans ((s.diePortsFailed d c).service_declareAbsent c.toNat hx)
    split at hserv
    next h4 => exact .inl ((congrArg Prod.fst hserv).trans h4)
    next => exact .inr (Prod.mk.inj hserv)
  case bypass =>
    refine ⟨s.bypass, rfl, ⟨rfl, rfl, ?_, s.dieIr_jtag 0, rfl⟩, rfl, fun hmode i hi => ?_⟩
    · exact congrArg (fun l => List.replicate (1 + List.length l) 0) s.stackChain_eq
    · rcases List.mem_pair.1 hi with rfl | rfl <;> exact congrArg Host.Outcome.next (if_pos hmode)
  case sample => exact ⟨_, rfl, rfl, rfl, rfl, s.dieIr_jtag 2⟩
  case test =>
    intro hmode
    have hmode' := Bool.eq_false_iff.1 hmode
    exact ⟨⟨_, congrArg Host.Outcome.next (if_neg hmode'), rfl, rfl, rfl, s.dieIr_jtag 3⟩,
      ⟨_, congrArg Host.Outcome.next (if_neg hmode'), rfl, rfl, rfl, s.dieIr_jtag 4⟩⟩
  case idcode =>
    refine ⟨_, _, _, rfl, ⟨rfl, rfl, rfl, s.dieIr_jtag 1, rfl⟩, rfl, idcode_toNat _ (by decide), ?_, fun x hx => ?_⟩
    · rw [List.length_map, s.stackChain_eq]
      rfl
    · obtain ⟨d, -, rfl⟩ := List.mem_map.1 hx
      exact idcode_toNat _ (by decide)
  case sel =>
    refine ⟨_, _, rfl, ⟨rfl, rfl, rfl, s.dieIr_jtag 5, rfl⟩, fun d hd => ⟨stackSel_bit v s.dieOn hd, ?_⟩⟩
    rw [BitVec.toNat_ofNat, bitN_mod, decide_eq_true (by omega), Bool.true_and, State.bitN_selNow, decide_eq_true hd, Bool.true_and]
    rfl

end Sys2Proof.Machine
end

section
/-! SUPPORT. With every clock of the package stopped (R573), what each command comes to: one that a clock drives changes nothing (log 4),
and one of the reset logic or the test access port leaves the thermal trip as it was, but for a power-on reset. With it the statement
that thermal shutdown holds. -/

namespace Sys2Proof.Machine

open Host

section
variable {s : State}

/-! ### Commands that a clock drives -/

theorem State.sciOn_dead (hdead : s.alive = false) : s.sciOn = false := by simp [State.sciOn, hdead]

theorem State.sciDo_dead (hdead : s.alive = false) (f : State → State) : s.sciDo f = .next s :=
  if_neg (by simp [s.sciOn_dead hdead])

theorem State.wr_dead (hdead : s.alive = false) (r : ReqId) (off w v : Nat) : s.wr r off w v = .next s := if_neg (by simp [hdead])

theorem State.rdCmd_dead (hdead : s.alive = false) (r : ReqId) (off w : Nat) (n : Bool) : s.rdCmd r off w n = .next s :=
  if_neg (by simp [hdead])

theorem State.coreRuns_dead (hdead : s.alive = false) (t : TileId) : s.coreRuns t = false := by simp [State.coreRuns, hdead]

theorem State.ccIssue_dead (hdead : s.alive = false) (t : TileId) (a : CcArgs) (m : ModeGroup) (ok : Bool) (fc : FenceClass) (r w : List Nat)
    (body : State → State) : s.ccIssue t a m ok fc r w body = .next s :=
  if_pos (by simp [State.coreRuns_dead hdead])

theorem State.uIssue_dead (hdead : s.alive = false) (t : TileId) (op : UOp) (a : UArgs) (ok : Bool) (qs gs : List Nat) (tagOk : Bool) :
    s.uIssue t op a ok qs gs tagOk = .next s :=
  if_pos (by simp [State.coreRuns_dead hdead])

theorem State.pollReceive_dead (hdead : s.alive = false) (q : Fin 2) (bytes : List Byte) : s.pollReceive q bytes = s :=
  if_pos (.inl (by simp [hdead]))

/-- A command that a clock drives changes nothing while every clock stands. -/
theorem exec_dead {c : Instr} (hdead : s.alive = false) (hc : c.unclocked = false) : exec c s = .next s := by
  have hnot : ¬ s.alive = true := by simp [hdead]
  cases c with
  | powerOnReset | porstNRise | jtagBypass | jtagIdcode | jtagSamplePreload | jtagExtest | jtagIntest | stackSel | svcRead | svcWrite
  | svcAccessDone =>
    cases hc
  | add | sub | and | or | xor | sll | srl | sra | slt | sltu | min | max | mul | mulh | addI | andI | orI | xorI | sllI | srlI
  | sraI | sltI | liH | ldt | ldtW | stt | sttW | ld | ldW | st | stW | beq | bne | blt | bge | bltu | bgeu | jal | jr | pcmpEq
  | pcmpNe | pcmpLt | pcmpLtu | pcmpEqI | pcmpLtI | pand | por | pxor | pnot | pset | twait | tsig | tread | fenceSb | fenceSc
  | fenceU | fenceAll | epochBegin | epochCommit | epochRein | endItem | tsrr | tsrw | tlbInv | resume | abandon =>
    apply State.ccIssue_dead hdead
  | mmaP | mmaD | mmaS | mmaW | mmaPZ | mmaDZ | mmaSZ | wld | wldSp | wldSpt | swap | vadd | vsub | vmul | vmax | vmin | vand
  | vor | vxor | vshl | vshr | vcvt | vld | vst | vbcast | vlane | vrsum | lblSt | qexp | qcmp | qmrgU | qmrgI | qsort | qred
  | gath | gathR | gathQ8 | gathQ4 | gathPf | hlook | scat | hpref | hupdQ8 | hupdQ4 | treLdl | treLdn | treLadder | treWalk =>
    apply State.uIssue_dead hdead
  | registerWrite | framePeriodWrite | ingCposeGo | portVerifyRequest | portUnverifyRequest | portCalCtrlWrite
  | portGtimeCtrlWrite | ingPoseHeadWrite | ingCtrlEnSet | ingCtrlEnClear | rideAheadWrite | dreySplitWrite | tileReset
  | mgmtReturnToService | mgmtTakeOutOfService | mgmtReset | mgmtReleaseQuarantine | tileSchedProgWrite | tileSchedSelWrite
  | tileSchedKick | shardMig | shardSwitch | shardCancelMig | tileTlbInvWrite | copyHeadWrite | bondTestStart | sciEnable
  | pairLoad | pairErase | pairWrap | pairUnwrap | gaitReqWalk | gaitReqTrot | gaitReqStable | gaitReqNone | gaitRstHostCore
  | gaitRstPackage | gaitBootDoorbell | gaitSvnAdv | idkSign | idkEcdh | gaitIdkLock | gaitWdog | gaitWdogKick | gaitTimeSet
  | gaitFrmStart | evtLogSw | gaitAccLock | aliasWrite | hitchBroadcastWrite | tileStoreWindowWrite =>
    apply State.wr_dead hdead
  | rcRead | evtLogFirstWordRead | aliasRead | hitchBroadcastRead | tileStoreWindowRead =>
    apply State.rdCmd_dead hdead
  | sciTrainingSet | sciStateTimeout | sciFlitReceive | sciAckTimeout | rd | wr | rdr | wra | ownPush | ownDone | ownVer | msi
  | contrib | crd | cwr | crr | cwa | cap | assign | accept | refuse | time | detach | sciRequestTimeout | sciTimeSend
  | contribWaitExpiry =>
    apply State.sciDo_dead hdead
  | poll | pollWake => exact congrArg Outcome.next (State.pollReceive_dead hdead _ _)
  | halterCsFall => exact if_pos (Or.inl (by simp [State.hltOn, hdead]))
  | wheelAwaitLog => exact if_pos (Or.inl (by simp [s.sciOn_dead hdead]))
  | itemDispatch => exact if_pos (Or.inr (Or.inr hnot))
  | perstNRise | gpioWakeEdge => exact if_neg (fun h => hnot h.1)
  | halterCsRise | resetWake | drainComplete | trotToWalkDone | l2WriteBackDone | walkToStableDone | stableToWalkDone
  | pwrGoodMainTimeout | refClockLoss | wakeTimeReached | xtalCalibrate | xtalFail | ppsInEdge | ppsOutSecond | packageWatchdogExpiry
  | bootImageCheck | frameBoundary | copyDescriptorComplete | patrolScrub | refreshRateRead | dqsOscillatorCheck
  | pcieInboundRequest =>
    exact if_pos (Or.inl hnot)
  | _ => exact if_pos hnot

/-! ### Commands of the reset logic and the test access port -/

theorem State.testIr_gait (s : State) (ir : Nat) {act : State → State} (hact : ∀ s : State, (act s).gait = s.gait) :
    (s.testIr ir act).gait = s.gait := by
  unfold State.testIr
  split
  · exact State.count_gait _ _ _
  · exact hact _

/-- An access of the service port is refused without a clock, or ignored while another is under way. -/
theorem State.svcStart_dead (hdead : s.alive = false) (write w64 : Bool) (off : Nat) (data : W64) :
    s.svcStart write w64 off data = if s.stack.svcBusy.isSome then s else s.svcDone w64 off 2 0 := by
  unfold State.svcStart
  dsimp only
  rw [if_pos (Or.inl (by simp [hdead]) : ¬ s.alive = true ∨ s.gait.inReset = true)]

/-- And an access under way ends as refused. -/
theorem exec_svcAccessDone_dead (hdead : s.alive = false) :
    exec .svcAccessDone s = .next (match s.stack.svcBusy with
      | none => s
      | some (_, w64, off, _) => s.svcDone w64 off 2 0) := by
  show execSvcAccessDone s = _
  unfold execSvcAccessDone
  cases s.stack.svcBusy with
  | none => rfl
  | some x => exact if_pos (Or.inl (by simp [hdead]))

/-- A command of the reset logic or the test access port, but for a power-on reset, leaves the thermal trip as it was. -/
theorem exec_unclocked_thermtrip {c : Instr} {t : State} (hdead : s.alive = false) (hc : c.unclocked = true) (hpor : c ≠ .powerOnReset)
    (h : exec c s = .next t) : t.gait.thermtrip = s.gait.thermtrip := by
  cases c with
  | powerOnReset => exact absurd rfl hpor
  | porstNRise lead testmodeN bootSel =>
    replace h : (if s.gait.porstN then Outcome.next s else _) = Outcome.next t := h
    split at h <;> cases h <;> rfl
  | jtagBypass | jtagIdcode | jtagSamplePreload | stackSel => cases h; rfl
  | jtagExtest | jtagIntest => cases h; exact congrArg GaitSt.thermtrip (s.testIr_gait _ fun _ => rfl)
  | svcRead | svcWrite =>
    cases h
    rw [State.svcStart_dead hdead]
    split <;> rfl
  | svcAccessDone =>
    rw [exec_svcAccessDone_dead hdead] at h
    cases h
    split <;> rfl
  | _ => cases hc

end

/-- Settles O4: under the trip no clock runs, so a step that takes a clocked command takes it from the queue and nothing more, and one of
the reset logic or the test access port does not touch the trip. -/
theorem thermalShutdownHolds : Obligations.ThermalShutdownHolds := by
  intro s t htrip hpor hstep
  have hdead : s.alive = false := by simp [State.alive, htrip]
  unfold step at hstep
  split at hstep
  next hnone =>
    have ht : s = t := Outcome.next.inj ((congrArg Outcome.next (if_neg (by simp [hdead]))).symm.trans hstep)
    subst ht
    have htail : s.pending.tail = s.pending := by rw [hnone]; rfl
    exact ⟨htrip, fun _ => by rw [htail]⟩
  next c rest hcons =>
    have hdead' : State.alive { s with pending := rest } = false := hdead
    rw [hcons] at hpor ⊢
    cases hc : c.unclocked with
    | false =>
      obtain rfl := Outcome.next.inj ((exec_dead hdead' hc).symm.trans hstep)
      exact ⟨htrip, fun _ => rfl⟩
    | true =>
      refine ⟨(exec_unclocked_thermtrip hdead' hc (fun h => hpor (congrArg some h)) hstep).trans htrip, fun hall => ?_⟩
      exact absurd (hall c rfl) (by simp [hc])

end Sys2Proof.Machine
end

section
/-! SUPPORT. An access error (R630): what it records, from any requester and of any cause, and what the end of a broadcast leaves as it was
(R516, R622), which an access of the mirror may bring with it. With them the statement on access errors, and those on a step and on reset. -/

namespace Sys2Proof.Machine

open Host

/-- Settles O1: with a command in front, a step is that command on the queue's rest. -/
theorem stepRunsFront : Obligations.StepRunsFront := by
  intro c rest s h
  unfold step
  rw [h]

/-- Settles O2: each register reads as its table's reset, and no word is listed but the hitch's, which the strap sets. -/
theorem resetState : Obligations.ResetState := by
  refine ⟨?_, rfl, by decide +kernel⟩
  decide +kernel

section
variable (s : State)

/-! ### What an access error records (R630) -/

theorem State.rd64_accErr (r : ReqId) (off : BitVec 28) (c : AccCause) :
    (s.accErr r off.toNat c).rd64 Reg.gaitAccErr = off.toNat + 2 ^ 28 * r.val + 2 ^ 32 * c.code + 2 ^ 35 := by
  have hoff := off.isLt
  have hr := r.isLt
  have hc : c.code < 8 := by cases c <;> decide
  rw [State.accErr, State.rd64_put64]
  omega

theorem State.rd_accErr_count (r : ReqId) (off : Nat) (c : AccCause) :
    (s.accErr r off c).rd Cnt.evtCntAccerr.reg = min 0xFFFFFFFF (s.rd Cnt.evtCntAccerr.reg + 1) := by
  rw [State.accErr, State.rd_put64_ne _ _ (by decide) (by decide), State.rd_count _ _ _ (by decide)]

theorem State.accErr_kept (r : ReqId) (off : Nat) (c : AccCause) :
    RegsKept s (s.accErr r off c) ([Reg.gaitAccErr, Reg.gaitAccErr + 4] ++ ctrWords Cnt.evtCntAccerr) :=
  ((s.count_kept Cnt.evtCntAccerr 1).mono (List.subset_append_right _ _)).trans
    ((State.put64_kept _ _ _).mono (List.subset_append_left _ _))

/-! ### The end of a broadcast (R516, R622) -/

end

/-- All that the end of a broadcast may change, beside the list of those under way: the count of missing answers, a requester's status and
data, a free value, and the completion of a request from PCI Express. -/
def Answered (s t : State) : Prop :=
  (∀ o, o ∉ ctrWords Cnt.sciCntBcastNoans → (∀ r : ReqId, o ≠ Reg.gaitBcastStat r.val) → t.rd o = s.rd o)
    ∧ t = { s with regs := t.regs, freeCtr := t.freeCtr, rdata := t.rdata, pcie := t.pcie }

section
variable {s t u : State}

theorem Answered.refl (s : State) : Answered s s := ⟨fun _ _ _ => rfl, rfl⟩

theorem Answered.trans (h : Answered s t) (h' : Answered t u) : Answered s u :=
  ⟨fun o ho hr => (h'.1 o ho hr).trans (h.1 o ho hr), by rw [h'.2, h.2]⟩

theorem State.count_answered (s : State) (n : Nat) : Answered s (s.count Cnt.sciCntBcastNoans n) := by
  obtain ⟨g, hg⟩ := s.count_regs Cnt.sciCntBcastNoans n
  exact ⟨fun o ho _ => s.count_kept _ n o ho, by rw [hg]⟩

theorem State.putStat_answered (s : State) (r : ReqId) (v : Nat) : Answered s (s.put (Reg.gaitBcastStat r.val) v) :=
  ⟨fun _ _ hr => State.rd_put_ne s v (hr r), rfl⟩

theorem State.freeBits_answered (s : State) (w : Nat) : Answered s (s.freeBits w).2 := ⟨fun _ _ _ => rfl, rfl⟩

theorem State.diffUnit_answered (s : State) (off w : Nat) : Answered s (s.diffUnit off w).2 := by
  unfold State.diffUnit
  split
  · exact Answered.refl s
  · exact s.freeBits_answered 6
  · exact Answered.refl s

/-- The broadcasts under way, given anew. -/
def State.withBcasts (s : State) (bs : List Bcast) : State := { s with hitch := { s.hitch with bcasts := bs } }

theorem Answered.withBcasts (h : Answered s t) (bs : List Bcast) : Answered (s.withBcasts bs) (t.withBcasts bs) :=
  ⟨h.1, by rw [h.2]; rfl⟩

/-- A broadcast that ends leaves the list of those under way, and changes little else. -/
theorem State.bcastFinish_answered (s : State) (b : Bcast) : Answered (s.withBcasts (s.hitch.bcasts.erase b)) (s.bcastFinish b) := by
  unfold State.bcastFinish
  extract_lets hitch s1 s2 noans stat ans v alias_
  refine (s1.count_answered b.waiting.length).trans ?_
  split
  · exact s2.putStat_answered _ _
  split
  next far s3 hfar =>
  have h3 : Answered s2 s3 := by
    split at hfar
    · exact (Prod.mk.inj hfar).2 ▸ s2.freeBits_answered 1
    · exact (Prod.mk.inj hfar).2 ▸ Answered.refl s2
  refine h3.trans ?_
  extract_lets own s4 s5
  have h5 : Answered s3 s5 := by
    unfold s5
    split <;> exact ⟨fun _ _ _ => rfl, rfl⟩
  refine h5.trans ?_
  split
  · split
    · exact s5.putStat_answered _ _
    · exact (s5.diffUnit_answered _ _).trans (State.putStat_answered _ _ _)
  · split <;> exact s5.putStat_answered _ _

theorem State.foldl_bcastFinish_answered (l : List Bcast) (s : State) :
    ∃ bs, Answered (s.withBcasts bs) (l.foldl (fun (s : State) b => s.bcastFinish b) s) := by
  induction l generalizing s with
  | nil => exact ⟨s.hitch.bcasts, Answered.refl s⟩
  | cons b l ih =>
    obtain ⟨bs, hrest⟩ := ih (s.bcastFinish b)
    exact ⟨bs, ((s.bcastFinish_answered b).withBcasts bs).trans hrest⟩

/-- So with every broadcast whose members have all answered. -/
theorem State.settleBcasts_answered (s : State) : ∃ bs, Answered (s.withBcasts bs) s.settleBcasts :=
  State.foldl_bcastFinish_answered _ s

/-- A broadcast that begins changes no word but a requester's status and the count of missing answers. -/
theorem State.rd_bcastStart (s : State) (r : ReqId) (write : Bool) (off w v here stat : Nat) {o : Nat}
    (ho : o ∉ ctrWords Cnt.sciCntBcastNoans) (hr : ∀ r : ReqId, o ≠ Reg.gaitBcastStat r.val) :
    (s.bcastStart r write off w v here stat).rd o = s.rd o := by
  obtain ⟨bs, h⟩ := State.settleBcasts_answered _
  exact h.1 o ho hr
end

/-! ### An access that meets an error -/

section
variable {s : State} {r : ReqId} {off : BitVec 28} {w : Nat} {c : AccCause}

/-- What an access error leaves in GAIT_ACC_ERR and in its counter. -/
def Recorded (s : State) (r : ReqId) (off : BitVec 28) (c : AccCause) (t : State) : Prop :=
  t.rd64 Reg.gaitAccErr = off.toNat + 2 ^ 28 * r.val + 2 ^ 32 * c.code + 2 ^ 35
    ∧ t.rd Cnt.evtCntAccerr.reg = min 0xFFFFFFFF (s.rd Cnt.evtCntAccerr.reg + 1)

theorem State.accErr_recorded (s : State) (r : ReqId) (off : BitVec 28) (c : AccCause) : Recorded s r off c (s.accErr r off.toNat c) :=
  ⟨s.rd64_accErr r off c, s.rd_accErr_count r off.toNat c⟩

theorem Recorded.give {t : State} (h : Recorded s r off c t) (r' : ReqId) (v : Nat) : Recorded s r off c (t.give r' v) := by
  simpa only [Recorded, State.give_rd, State.give_rd64] using h

theorem State.bcastStart_recorded {s1 : State} (h : Recorded s r off c s1) (write : Bool) (v here stat : Nat) :
    Recorded s r off c (s1.bcastStart r write off.toNat w v here stat) := by
  have hkept : ∀ o ∈ [Reg.gaitAccErr, Reg.gaitAccErr + 4, Cnt.evtCntAccerr.reg],
      (s1.bcastStart r write off.toNat w v here stat).rd o = s1.rd o := by
    intro o ho
    refine State.rd_bcastStart s1 r write _ w v here stat ?_ ?_
    · revert o; decide
    · revert o; decide
  obtain ⟨herr, hcnt⟩ := h
  rw [State.rd64_eq] at herr
  refine ⟨?_, ?_⟩
  · rw [State.rd64_eq, hkept _ (by decide), hkept _ (by decide), herr]
  · rw [hkept _ (by decide), hcnt]

/-- A write that meets an error, of the package's own space or of the mirror: the error, and at most a broadcast after it. -/
theorem exec_registerWrite_error (v : BitVec 64) (hal : s.alive = true) (herr : s.accCheck r true (selOf off.toNat w) w = some c) :
    ∃ t, exec (.registerWrite r off w v) s = .next t ∧ Recorded s r off c t ∧ (isMirror off.toNat = false → t = s.accErr r off.toNat c) := by
  have hlocal : s.localWrite r off.toNat w v.toNat = (none, s.accErr r off.toNat c) := by
    unfold State.localWrite
    simp only [herr]
  refine ⟨_, if_pos hal, ?_⟩
  unfold State.csWrite
  rw [hlocal, herr]
  have hrec := s.accErr_recorded r off c
  cases hmir : isMirror off.toNat with
  | false => exact ⟨hrec, fun _ => rfl⟩
  | true =>
    refine ⟨?_, fun h => absurd h (by decide)⟩
    rw [if_pos rfl]
    cases c with
    | unreachable => exact State.bcastStart_recorded hrec _ _ _ _
    | reserved | hostOnly | locked | notStatic => exact hrec

/-- A read, likewise: its requester gets 0. -/
theorem exec_rcRead_error (n : Bool) (hal : s.alive = true) (herr : s.accCheck r false (selOf off.toNat w) w = some c) :
    ∃ t, exec (.rcRead r off w n) s = .next t ∧ Recorded s r off c t
      ∧ (isMirror off.toNat = false → t = (s.accErr r off.toNat c).give r 0) := by
  have hlocal : ∀ clear counted, s.localRead r off.toNat w clear counted = (0, none, s.accErr r off.toNat c) := by
    intro clear counted
    unfold State.localRead
    simp only [herr]
  refine ⟨_, if_pos hal, ?_⟩
  unfold State.csRead
  rw [hlocal, hlocal, herr]
  have hrec := s.accErr_recorded r off c
  cases hmir : isMirror off.toNat with
  | false => exact ⟨hrec.give r 0, fun _ => rfl⟩
  | true =>
    refine ⟨?_, fun h => absurd h (by decide)⟩
    rw [if_pos rfl]
    cases c with
    | unreachable => exact State.bcastStart_recorded hrec _ _ _ _
    | reserved | hostOnly | locked | notStatic => exact hrec.give r 0

theorem State.accCheck_reserved (s : State) (r : ReqId) (write : Bool) (w : Nat) : s.accCheck r write .reserved w = some .reserved :=
  if_pos rfl

end

/-- Settles O27: the error is recorded and counted whatever stood there; in the package's own space the access does nothing more. -/
theorem accessErrors : Obligations.AccessErrors := by
  intro s r off w v n c hal
  refine ⟨fun herr => ?write, fun herr => ?read, fun hres => ?reserved, s.accErr_recorded r off c⟩
  case write =>
    obtain ⟨t, hexec, hrec, hown⟩ := exec_registerWrite_error v hal herr
    refine ⟨t, hexec, hrec, fun hmir => ?_⟩
    rw [hown hmir]
    exact ⟨s.accErr_eq r _ c, s.accErr_kept r _ c⟩
  case read =>
    obtain ⟨t, hexec, hrec, hown⟩ := exec_rcRead_error n hal herr
    refine ⟨t, hexec, hrec, fun hmir => ?_⟩
    rw [hown hmir]
    exact ⟨State.give_eq_of_regs r 0 (s.accErr_eq r _ c), State.give_rdata _ r 0, fun o ho => (State.give_rd _ r 0 o).trans (s.accErr_kept r _ c o ho)⟩
  case reserved =>
    rw [hres]
    exact ⟨s.accCheck_reserved r true w, s.accCheck_reserved r false w, rfl⟩

end Sys2Proof.Machine
end

section
/-! SUPPORT. The service port (R631), tile-store windows (R613, R614), and aliased accesses and accesses to the mirror (R516, R517, R617 to
R622), each from what its offset selects. With them the statements on each. -/

namespace Sys2Proof.Machine

open Host

/-! ### The service port (R631) -/

section
variable {s : State} {write b : Bool} {off : Nat} {d : W64}

theorem State.svcStart_busy (h : s.stack.svcBusy.isSome = true) : s.svcStart write b off d = s := if_pos h

theorem State.svcStart_refused (hbusy : s.stack.svcBusy = none) (h : s.alive = false ∨ s.gait.inReset = true) :
    s.svcStart write b off d = s.svcDone b off 2 0 := by
  have hrefused : ¬ s.alive = true ∨ s.gait.inReset = true := h.imp_left (fun hdead => by simp [hdead])
  unfold State.svcStart
  dsimp only
  rw [if_neg (by simp [hbusy]), if_pos hrefused]

/-- With clocks, no package reset and no access under way, an access that the rights refuse ends at once. -/
theorem State.svcStart_error {c : AccCause} (hbusy : s.stack.svcBusy = none) (hal : s.alive = true) (hres : s.gait.inReset = false)
    (hmir : isMirror off = false) (herr : s.accCheck svcReq write (selOf off (if b then 8 else 4)) (if b then 8 else 4) = some c) :
    s.svcStart write b off d = (s.accErr svcReq off c).svcDone b off 3 0 := by
  unfold State.svcStart
  dsimp only
  rw [if_neg (by simp [hbusy]), if_neg (by simp [hal, hres]), herr]
  dsimp only
  rw [if_neg (by simp [hmir])]

/-- One that they allow starts. -/
theorem State.svcStart_starts (hbusy : s.stack.svcBusy = none) (hal : s.alive = true) (hres : s.gait.inReset = false)
    (hmir : isMirror off = false) (hok : s.accCheck svcReq write (selOf off (if b then 8 else 4)) (if b then 8 else 4) = none) :
    s.svcStart write b off d
      = { s with stack := { s.stack with svcBusy := some (write, b, off, d), svcStat := 1, svcWide := b, svcOff := off, svcData := 0 } } := by
  unfold State.svcStart
  dsimp only
  rw [if_neg (by simp [hbusy]), if_neg (by simp [hal, hres]), hok]
  dsimp only
  rw [if_neg (by simp [hmir])]

/-- The access under way ends: a write is performed. -/
theorem exec_svcAccessDone_write (hal : s.alive = true) (hres : s.gait.inReset = false) (hmir : isMirror off = false)
    (hbusy : s.stack.svcBusy = some (true, b, off, d))
    (hok : s.accCheck svcReq true (selOf off (if b then 8 else 4)) (if b then 8 else 4) = none) :
    exec .svcAccessDone s = .next ((s.csWrite svcReq off (if b then 8 else 4) d.toNat).svcDone b off 0 0) := by
  show execSvcAccessDone s = _
  unfold execSvcAccessDone
  rw [hbusy]
  dsimp only
  rw [if_neg (by simp [hal, hres]), if_neg (by simp [hmir]), hok]
  rfl

/-- And a read answers with its data. -/
theorem exec_svcAccessDone_read (hal : s.alive = true) (hres : s.gait.inReset = false) (hmir : isMirror off = false)
    (hbusy : s.stack.svcBusy = some (false, b, off, d))
    (hok : s.accCheck svcReq false (selOf off (if b then 8 else 4)) (if b then 8 else 4) = none) :
    let s1 := s.csRead svcReq off (if b then 8 else 4) false
    exec .svcAccessDone s = .next (s1.svcDone b off 0 (spGet (fun _ => (0 : W64)) s1.rdata svcReq.val).toNat) := by
  show execSvcAccessDone s = _
  unfold execSvcAccessDone
  rw [hbusy]
  dsimp only
  rw [if_neg (by simp [hal, hres]), if_neg (by simp [hmir]), hok]
  rfl
end

/-- Settles O36: the port takes one access at a time, whose rights are checked at its start and again at its end (log 106). -/
theorem servicePort : Obligations.ServicePort := by
  intro s b off d hmir w
  refine ⟨fun hbusy => ⟨?_, ?_⟩, fun hbusy h => ⟨?_, ?_⟩, fun hbusy hal hres => ?_, fun hal hres =>
    ⟨exec_svcAccessDone_write hal hres hmir, exec_svcAccessDone_read hal hres hmir⟩⟩
  · exact congrArg Outcome.next (State.svcStart_busy hbusy)
  · exact congrArg Outcome.next (State.svcStart_busy hbusy)
  · exact congrArg Outcome.next (State.svcStart_refused hbusy h)
  · exact congrArg Outcome.next (State.svcStart_refused hbusy h)
  · refine ⟨fun c hc => ?_, fun c hc => ?_, fun hok => ?_, fun hok => ?_⟩
    · exact congrArg Outcome.next (State.svcStart_error hbusy hal hres hmir hc)
    · exact congrArg Outcome.next (State.svcStart_error hbusy hal hres hmir hc)
    · exact ⟨_, congrArg Outcome.next (State.svcStart_starts hbusy hal hres hmir hok), rfl, rfl, rfl⟩
    · exact ⟨_, congrArg Outcome.next (State.svcStart_starts hbusy hal hres hmir hok), rfl, rfl, rfl⟩

/-! ### Tile-store windows (R613, R614) -/

section
variable {s : State} {r : ReqId} {t : TileId} {a w : Nat}

/-- Where a tile's window stands in control space (Table 19-1). -/
theorem selOf_window (hw : w = 4 ∨ w = 8) (hal : a % w = 0) (ha : a < tileStoreBytes) : selOf (0x400000 * t.val + a) w = .window t a := by
  have ht := t.isLt
  have ha' : a < 0x300000 := ha
  have hdiv : (0x400000 * t.val + a) / 0x400000 = t.val := by omega
  have hmod : (0x400000 * t.val + a) % 0x400000 = a := by omega
  have hdvd : (0x400000 * t.val + a) % w = 0 := by rcases hw with rfl | rfl <;> omega
  have hget : (List.finRange 32)[t.val]? = some t := by simp
  unfold selOf
  rw [if_neg (by omega), if_pos (by omega), hdiv, hget]
  dsimp only
  rw [hmod, if_pos ha']

theorem isMirror_window (ha : a < tileStoreBytes) : isMirror (0x400000 * t.val + a) = false := by
  have ht := t.isLt
  have ha' : a < 0x300000 := ha
  exact decide_eq_false (by omega)

/-- A read of the window of a reachable tile meets no error. -/
theorem State.accCheck_window_read (hreach : s.tileReach t = true) : s.accCheck r false (.window t a) w = none := by
  simp [State.accCheck, selWords, State.reach, hreach]

/-- A write, from a requester that no lock refuses, meets one where the segment is not Static. -/
theorem State.accCheck_window_write (hreach : s.tileReach t = true) (hlock : s.lockedFor r = false) :
    s.accCheck r true (.window t a) w = if s.segState t (a / 65536) ≠ 0 then some .notStatic else none := by
  simp [State.accCheck, selWords, State.reach, hreach, hlock]
end

/-- Settles O35: the window's bytes are the store's, and a write is refused where the segment is not Static. -/
theorem tileStoreWindows : Obligations.TileStoreWindows := by
  intro s r t a w v hal hreach hw hdvd ha
  have hsel : selOf (0x400000 * t.val + a.toNat) w = .window t a.toNat := selOf_window hw hdvd ha
  have hmir : isMirror (0x400000 * t.val + a.toNat) = false := isMirror_window ha
  have hwrite : exec (.tileStoreWindowWrite r t a w v) s = .next (s.csWrite r (0x400000 * t.val + a.toNat) w v.toNat) := if_pos hal
  have hread : exec (.tileStoreWindowRead r t a w) s = .next (s.csRead r (0x400000 * t.val + a.toNat) w false) := if_pos hal
  refine ⟨fun hlock hseg => ?_, fun hlock hseg => ?_, ?_⟩
  · rw [hwrite]
    simp [State.csWrite, hmir, State.localWrite, hsel, State.accCheck_window_write hreach hlock, hseg]
  · rw [hwrite]
    simp [State.csWrite, hmir, State.localWrite, hsel, State.accCheck_window_write hreach hlock, hseg]
  · have hdata : s.csRead r (0x400000 * t.val + a.toNat) w false = s.give r (s.tiles[t].tsNat a.toNat w) := by
      simp [State.csRead, hmir, State.localRead, hsel, State.accCheck_window_read hreach]
    rw [hread, hdata]
    exact ⟨_, rfl, rfl, State.give_rdata _ _ _⟩

/-! ### Aliases and the mirror (R617 to R622) -/

section
variable {s : State} {r : ReqId} {k inner w : Nat} {g : Option Nat}

/-- No rule of reachability or of host-only registers refuses an aliased access, so only the lock refuses a write. -/
theorem State.accCheck_many (write : Bool) (hlock : write = true → s.lockedFor r = false) : s.accCheck r write (.many k g inner) w = none := by
  have hnot : ¬ (write = true ∧ s.lockedFor r = true) := fun h => by simp [hlock h.1] at h
  simp [State.accCheck, selWords, State.reach, hnot]

/-- The value an aliased read returns is the lowest reachable member's. -/
theorem State.aliasRead_lowest {u : Nat} {rest : List Nat} (h : (s.aliasUnits k g).filter (s.unitReach k) = u :: rest) :
    (s.aliasRead k g inner w).1 = wordsNat ((selWords (.unit k u inner) w).map s.peekWord) := by
  unfold State.aliasRead
  dsimp only
  rw [h]
  dsimp only
  split <;> rfl

/-- An access of the mirror that nothing refuses acts here and is then sent. -/
theorem State.csWrite_mirror {off : Nat} (v : Nat) (hmir : isMirror off = true) (hok : s.accCheck r true (selOf off w) w = none) :
    s.csWrite r off w v = (s.localWrite r off w v).2.bcastStart r true off w v 0 ((s.localWrite r off w v).1.getD 0) := by
  simp [State.csWrite, hmir, hok]

theorem State.csRead_mirror {off : Nat} (n : Bool) (hmir : isMirror off = true) (hok : s.accCheck r false (selOf off w) w = none) :
    s.csRead r off w n = (s.localRead r off w false n).2.2.bcastStart r false off w 0 (s.localRead r off w false n).1
      ((s.localRead r off w false n).2.1.getD 0) := by
  simp [State.csRead, hmir, hok]

/-- With no broadcast under way and a member to answer, a broadcast that begins is the one under way. -/
theorem State.bcastStart_waits (hnone : s.hitch.bcasts = []) (hms : s.bcastMembers ≠ []) (write : Bool) (off v here stat : Nat) :
    let b : Bcast := ⟨r, s.freeCtr % 65536, write, off, w, s.bcastMembers, [(s.ownPkg, here)], stat, s.time + 10000⟩
    s.bcastStart r write off w v here stat = { s with
      freeCtr := s.freeCtr + 1
      hitch := { s.hitch with
        bcasts := [b]
        outbox := s.hitch.outbox ++ s.bcastMembers.map (fun n => s.bcastMsg write off w v n (s.freeCtr % 65536)) } } := by
  intro b
  have hwait : b.waiting.isEmpty = false := by simpa [b] using hms
  have hfilter : ([] ++ [b]).filter (fun x : Bcast => x.waiting.isEmpty) = [] := by simp [hwait]
  unfold State.bcastStart State.settleBcasts
  rw [hnone]
  dsimp only
  rw [hfilter]
  rfl
end

/-- Settles O34: an aliased access has no target of its own to check; one of the mirror acts at its local offset first (log 105) and is then sent
under the next TAG (log 99). -/
theorem broadcastAccesses : Obligations.BroadcastAccesses := by
  refine ⟨fun s r off w k inner g v hal hsel => ⟨fun hmir hlock => ?_, fun hmir => ?_, fun u rest h => State.aliasRead_lowest h⟩,
    fun s r off w v hal hmir => ⟨fun hok => ?_, fun hok => ?_, fun b h st hnone hms => ?_⟩⟩
  · have hok : s.accCheck r true (.many k g inner) w = none := State.accCheck_many true fun _ => hlock
    refine (if_pos hal : exec (.aliasWrite r off w v) s = _).trans (congrArg Outcome.next ?_)
    simp [State.csWrite, hmir, State.localWrite, hsel, hok]
  · have hok : s.accCheck r false (.many k g inner) w = none := State.accCheck_many false (fun h => absurd h (by decide))
    have hread : s.csRead r off.toNat w false
        = (s.put (Reg.gaitBcastStat r.val) (s.aliasRead k g inner w).2).give r (s.aliasRead k g inner w).1 := by
      simp [State.csRead, hmir, State.localRead, hsel, hok]
    refine ⟨_, (if_pos hal : exec (.aliasRead r off w) s = _).trans (congrArg Outcome.next hread), State.give_rdata _ _ _, ?_, ?_, rfl⟩
    · rw [State.give_rd, State.rd_put_self]
    · exact fun o ho => (State.give_rd _ _ _ o).trans (s.put_kept _ _ o ho)
  · exact ⟨_, _, rfl, (if_pos hal : exec (.hitchBroadcastWrite r off w v) s = _).trans
      (congrArg Outcome.next (State.csWrite_mirror v.toNat hmir hok))⟩
  · exact ⟨_, _, _, rfl, (if_pos hal : exec (.hitchBroadcastRead r off w) s = _).trans
      (congrArg Outcome.next (State.csRead_mirror false hmir hok))⟩
  · intro s'
    have hs' : s' = _ := State.bcastStart_waits hnone hms b off.toNat v.toNat h st
    rw [hs']
    exact ⟨rfl, rfl, rfl⟩

end Sys2Proof.Machine
end

section
/-! SUPPORT. Host-only registers (R627): a host core's write reaches its word, and any other requester's is an access error; what the words of
the identity-key service, the watchdog and the pairing store make of the write (R547, R571, R578, R580). With them the statement on
host-only commands. -/

namespace Sys2Proof.Machine

open Host

section
variable {s : State} {r : ReqId} {o v : Nat}

/-! ### The rights of a requester (R627) -/

/-- A 32-bit write of a register of a fixed block that nothing refuses. -/
theorem State.wr32_fixed (hal : s.alive = true) (ho : o < 0x280000) (hdvd : o % 4 = 0) (hok : s.accCheck r true (.reg o) 4 = none)
    (hv : v < 2 ^ 32) : s.wr32 r o v = .next (s.writeWord r o v true) := by
  have hsel : selOf (csOffset o) 4 = .reg o := selOf_csOffset ho (.inl rfl) hdvd
  have hwords : selWords (selOf (csOffset o) 4) 4 = [o] := by rw [hsel]; rfl
  rw [State.wr32, State.wr_words v hal (isMirror_csOffset ho) (hsel.symm ▸ hok) (by simp [hwords]), hwords]
  exact congrArg (fun x => Outcome.next (s.writeWord r o x true)) (Nat.mod_eq_of_lt hv)

/-- A host core may write every word of the always-on blocks. -/
theorem State.wr32_host (hal : s.alive = true) (hr : r.val < 8) (ho : o < 0xC0000) (hdvd : o % 4 = 0) (hv : v < 2 ^ 32) :
    s.wr32 r o v = .next (s.writeWord r o v true) := by
  have hnot : ¬ 8 ≤ r.val := by omega
  have hlock : s.lockedFor r = false := by simp [State.lockedFor, hnot]
  exact State.wr32_fixed hal (by omega) hdvd (by simp [State.accCheck, State.reach, hnot, hlock, ho]) hv

/-- Another requester's write of a host-only word is an access error, whatever locks it out besides (log 14). -/
theorem State.wr32_hostOnly (hal : s.alive = true) (hr : 8 ≤ r.val) (ho : o < 0x280000) (hdvd : o % 4 = 0) (hown : hostOnly o = true) :
    s.wr32 r o v = .next (s.accErr r (csOffset o) .hostOnly) := by
  have herr : s.accCheck r true (.reg o) 4 = some .hostOnly := by simp [State.accCheck, selWords, hr, hown]
  refine (if_pos hal : s.wr32 r o v = _).trans (congrArg Outcome.next ?_)
  simp [State.csWrite, isMirror_csOffset ho, State.localWrite, selOf_csOffset ho (.inl rfl) hdvd, herr]

end

/-! ### Fields and runs of words -/

/-- A field apart from the one written reads as before. -/
theorem State.fld_putF_apart (s : State) {o hi lo v a b : Nat} (h : lo ≤ hi + 1) (hk : hi < 32) (hd : hi < b ∨ a < lo) :
    (s.putF o hi lo v).fld o a b = s.fld o a b := by
  rw [State.fld, State.rd_putF_self s h hk, bitsN_putBits_ne h hd]
  rfl

/-- Words written one after another, each at its own offset. -/
theorem State.rd_foldl_put_self (s : State) {f : Nat → Nat} (hf : Function.Injective f) (g : Nat → Nat) {n i : Nat} (hi : i < n) :
    ((List.range n).foldl (fun (s : State) i => s.put (f i) (g i)) s).rd (f i) = g i % 2 ^ 32 := by
  induction n with
  | zero => exact absurd hi (by omega)
  | succ n ih =>
    rw [List.range_succ, List.foldl_append]
    by_cases hn : i = n
    · subst hn
      exact State.rd_put_self _ _ _
    · exact (State.rd_put_ne _ _ (fun h => hn (hf h))).trans (ih (by omega))

section
variable (s : State)

/-! ### GAIT_SVN_ADV, GAIT_IDK_CMD, GAIT_WDOG (R571, R578, R580) -/

theorem State.svnAdv_taken {v : Nat} (h : s.gait.svn.toNat < v) (hv : v ≤ 63) :
    s.svnAdv v = (s.modGait (fun q => { q with svn := BitVec.ofNat 6 v })).putF Reg.gaitBootStat 13 8 v :=
  if_neg (by omega)

theorem State.svnAdv_ignored_gait {v : Nat} (h : v ≤ s.gait.svn.toNat ∨ 63 < v) : (s.svnAdv v).gait = s.gait := by
  unfold State.svnAdv
  rw [if_pos h]
  dsimp only
  rw [State.logEvent_eq]
  rfl

theorem gaitIdkOut_injective : Function.Injective Reg.gaitIdkOut := fun i j h => by
  simp only [Reg.gaitIdkOut] at h
  omega

/-- A command of the identity-key service that is taken: busy, its input sampled, its output zero until it ends. -/
theorem State.idkCmd_taken {v : Nat} (hv : v = 1 ∨ v = 2) (hlock : s.bit Reg.gaitIdkStat 3 = false) (hidle : s.gait.idk = none) :
    (s.idkCmd v).fld Reg.gaitIdkStat 2 0 = 1 ∧ (∀ i < 16, (s.idkCmd v).rd (Reg.gaitIdkOut i) = 0)
      ∧ (s.idkCmd v).gait.idk = some (v, (List.range 16).map (fun i => BitVec.ofNat 32 (s.rd (Reg.gaitIdkIn i)))) := by
  have htaken : s.idkCmd v = ((((List.range 16).foldl (fun (s : State) i => s.put (Reg.gaitIdkOut i) 0) s).putF Reg.gaitIdkStat 2 0 1).modGait
      (fun q => { q with idk := some (v, (List.range 16).map (fun i => BitVec.ofNat 32 (s.rd (Reg.gaitIdkIn i)))) })) := by
    refine if_neg ?_
    rw [hlock, hidle]
    rcases hv with rfl | rfl <;> simp
  rw [htaken]
  refine ⟨?_, fun i hi => ?_, rfl⟩
  · rw [State.modGait_fld, State.fld_putF_self _ (by decide) (by decide)]
    decide
  · have hne : Reg.gaitIdkOut i ≠ Reg.gaitIdkStat := by simp only [Reg.gaitIdkOut, Reg.gaitIdkStat]; omega
    rw [State.modGait_rd, State.rd_putF_ne _ _ _ _ hne, State.rd_foldl_put_self s gaitIdkOut_injective (fun _ => 0) hi, Nat.zero_mod]

theorem State.wdogWrite_starts {ms : Nat} (hoff : s.gait.wdogOn = false) (hms : ms ≠ 0) :
    s.wdogWrite ms = (s.put Reg.gaitWdog (min 10000 ms)).modGait
      (fun q => { q with wdogOn := true, wdogLeft := 1000000 * min 10000 ms, wdogAt := s.time }) :=
  if_neg (by simp [hoff, hms])

theorem State.wdogWrite_ignored {ms : Nat} (h : s.gait.wdogOn = true ∨ ms = 0) : s.wdogWrite ms = s := if_pos h

/-! ### The pairing store (R547) -/

/-- PAIRED and GEN after a load or an erasure; its log entry touches neither, nor the key. -/
theorem State.pairGen_spec (b : Bool) (data : Nat) :
    (s.pairGen b data).bit Reg.hltPairStat 0 = b ∧ (s.pairGen b data).fld Reg.hltPairStat 31 16 = (s.fld Reg.hltPairStat 31 16 + 1) % 2 ^ 16
      ∧ (s.pairGen b data).halter = s.halter := by
  unfold State.pairGen
  dsimp only
  refine ⟨?_, ?_, ?_⟩
  · rw [State.bit, State.rd_logEvent_of_lt _ (by decide)]
    exact (State.bit_putB _ b (by decide) 0).trans (if_pos rfl)
  · rw [State.fld, State.rd_logEvent_of_lt _ (by decide)]
    refine (State.fld_putF_apart _ (by decide) (by decide) (.inl (by decide))).trans ?_
    rw [State.fld_putF_self _ (by decide) (by decide)]
    omega
  · rw [State.logEvent_eq]
    rfl

theorem State.pairCtrl_load : s.pairCtrl 1 =
    State.pairGen { s with halter := { s.halter with key := some (leNat (s.regBytes (Reg.hltPairKey 0) 4)) } } true 1 := rfl

theorem State.pairCtrl_erase : s.pairCtrl 2 = State.pairGen { s with halter := { s.halter with key := none } } false 0 := rfl

end

/-- Settles O31: a host core's write reaches its word's own action; any other requester's is refused for its rights first (log 14). -/
theorem hostOnlyCommands : Obligations.HostOnlyCommands := by
  refine ⟨fun s r hal hr => ?host, fun s r v b hal hr x hx => ?other⟩
  case other =>
    simp only [List.mem_cons, List.not_mem_nil, or_false] at hx
    rcases hx with rfl | rfl | rfl | rfl | rfl | rfl | rfl | rfl | rfl | rfl | rfl
    all_goals exact State.wr32_hostOnly hal hr (by decide) (by decide) (by decide)
  case host =>
    have hwrite {o v : Nat} (ho : o < 0xC0000) (hdvd : o % 4 = 0) (hv : v < 2 ^ 32) : s.wr32 r o v = .next (s.writeWord r o v true) :=
      State.wr32_host hal hr ho hdvd hv
    refine ⟨fun v hlo hhi => ?_, fun v h => ?_, ⟨hwrite (by decide) (by decide) (by decide), hwrite (by decide) (by decide) (by decide),
      hwrite (by decide) (by decide) (by decide)⟩, fun v => s.idkCmd_taken, fun ms => ⟨fun hoff hms => ?_, fun h => ?_⟩,
      hwrite (by decide) (by decide) (by decide), fun b => ?_, ⟨hwrite (by decide) (by decide) (by decide),
      hwrite (by decide) (by decide) (by decide), hwrite (by decide) (by decide) (by decide), hwrite (by decide) (by decide) (by decide)⟩,
      ?_, ?_, ?_, ?_, fun k hk => ?_⟩
    · have hexec : exec (.gaitSvnAdv r v) s = .next (s.svnAdv v.toNat) := hwrite (by decide) (by decide) v.isLt
      rw [hexec, s.svnAdv_taken hlo hhi]
      refine ⟨_, rfl, rfl, ?_, fun o ho => State.rd_putF_ne _ _ _ _ (by simpa using ho), rfl⟩
      rw [State.fld_putF_self _ (by decide) (by decide)]
      exact Nat.mod_eq_of_lt (by omega)
    · exact ⟨_, (hwrite (by decide) (by decide) v.isLt : exec (.gaitSvnAdv r v) s = .next (s.svnAdv v.toNat)), s.svnAdv_ignored_gait h⟩
    · have hexec : exec (.gaitWdog r ms) s = .next (s.wdogWrite ms.toNat) := hwrite (by decide) (by decide) ms.isLt
      rw [hexec, s.wdogWrite_starts hoff hms]
      refine ⟨_, rfl, ?_, rfl, fun o ho => State.rd_put_ne _ _ (by simpa using ho), rfl⟩
      rw [State.modGait_rd, State.rd_put_self]
      exact Nat.mod_eq_of_lt (by omega)
    · have hexec : exec (.gaitWdog r ms) s = .next (s.wdogWrite ms.toNat) := hwrite (by decide) (by decide) ms.isLt
      rw [hexec, s.wdogWrite_ignored h]
    · have hexec : exec (.gaitAccLock r b) s = .next (s.orReg Reg.gaitAccLock (b.toNat % 8)) := hwrite (by decide) (by decide) (by omega)
      rw [hexec, Nat.mod_eq_of_lt b.isLt]
    · rw [s.pairCtrl_load, (State.pairGen_spec _ _ _).2.2]
    · rw [s.pairCtrl_erase, (State.pairGen_spec _ _ _).2.2]
    · rw [s.pairCtrl_load, (State.pairGen_spec _ _ _).1]
    · rw [s.pairCtrl_erase, (State.pairGen_spec _ _ _).1]
    · rcases hk with rfl | rfl
      · exact (State.pairGen_spec _ _ _).2.1
      · exact (State.pairGen_spec _ _ _).2.1

end Sys2Proof.Machine
end

section
/-! SUPPORT. Registers of the base-die units and of the slots (R612, R615, R628): where a word's write goes, and what the words of ingest,
Drey, the ports and the tiles make of it (R149, R150, R156, R216, R223, R440, R598). With them the statements on the commands that are such
writes. -/

namespace Sys2Proof.Machine

open Host

section
variable {s : State} {r : ReqId} {o v : Nat}

/-! ### A word whose writable bits are its lowest (R11) -/

/-- A masked write of a word whose writable bits are its lowest sets that field. -/
theorem State.storeMasked_low {row : RegRow} {k n : Nat} (h : regAt o = some (row, k)) (hm : (row.mask >>> (32 * k)) % 2 ^ 32 = 2 ^ (n + 1) - 1)
    (hx : row.isX = false) : s.storeMasked o v = s.putF o n 0 v := by
  have hbit : ∀ i, bitN (2 ^ (n + 1) - 1) i = decide (i ≤ n) := fun i => by
    rw [bitN_eq, Nat.testBit_two_pow_sub_one]
    exact decide_eq_decide.mpr Nat.lt_succ_iff
  have hword : s.rd o - (s.rd o &&& (2 ^ (n + 1) - 1)) + (v &&& (2 ^ (n + 1) - 1)) = putBits (s.rd o) n 0 v :=
    bits_ext fun i => by rw [bitN_replace, hbit, bitN_putBits (Nat.zero_le _)]; simp
  rw [State.storeMasked_eq h, hm, hx]
  exact congrArg (s.put o) hword

/-! ### Registers of the base-die units (R628) -/

theorem hostOnly_baseDie (ho : 0xC0000 ≤ o) : hostOnly o = false := by
  simp [hostOnly]
  omega

/-- A field of one bit. -/
theorem State.fld_bit (s : State) (o i : Nat) : s.fld o i i = b2n (s.bit o i) := by
  have hone : i + 1 - i = 1 := by omega
  rw [State.fld, State.bit, bitsN, bitN, hone]
  rcases Nat.mod_two_eq_zero_or_one (s.rd o >>> i) with h | h <;> simp [h, b2n]

/-- A 32-bit write of a register of a base-die unit, which Walk and above reach, goes to its word. -/
theorem State.wr32_baseDie (h : MayWrite s r) (hg : s.gaitN ≠ 0) (hlo : 0xC0000 ≤ o) (ho : o < 0x280000) (hdvd : o % 4 = 0) (hv : v < 2 ^ 32) :
    s.wr32 r o v = .next (s.writeWord r o v true) :=
  State.wr32_fixed h.1 ho hdvd (by simp [State.accCheck, State.reach, selWords, h.2, hg, hostOnly_baseDie hlo]) hv

/-- One of 64 bits: the low word, then the high word (R623). -/
theorem State.wr64_baseDie (v : Nat) (h : MayWrite s r) (hg : s.gaitN ≠ 0) (hlo : 0xC0000 ≤ o) (ho : o < 0x280000) (hdvd : o % 8 = 0) :
    s.wr64 r o v = .next ((s.writeWord r o (v % 2 ^ 32) false).writeWord r (o + 4) (v / 2 ^ 32 % 2 ^ 32) true) := by
  have hsel : selOf (csOffset o) 8 = .reg o := selOf_csOffset ho (.inr rfl) hdvd
  have hwords : selWords (selOf (csOffset o) 8) 8 = [o, o + 4] := by rw [hsel]; rfl
  have hpair : selWords (.reg o) 8 = [o, o + 4] := rfl
  have hok : s.accCheck r true (.reg o) 8 = none := by
    simp [State.accCheck, hpair, State.reach, h.2, hg, hostOnly_baseDie hlo, hostOnly_baseDie (Nat.le_add_right_of_le hlo : 0xC0000 ≤ o + 4)]
  rw [State.wr64, State.wr_words v h.1 (isMirror_csOffset ho) (hsel.symm ▸ hok) (by simp [hwords]), hwords]
  rfl

/-! ### Slots of tiles and of ports (R612, R615, R628) -/

/-- Where slot `u` of a kind stands: its registers' offsets, and what an access of one selects. -/
theorem selOf_slot {kind u i w : Nat} (hkind : kind < 2) (hu : u < unitsOf kind) (hi : i < 0x1000) (hw : w = 4 ∨ w = 8) (hdvd : i % w = 0) :
    selOf (csOffset (unitOff kind u i)) w = .unit kind u i := by
  have hu32 : u < 32 := lt_of_lt_of_le hu (by unfold unitsOf; split_ifs <;> omega)
  have hoff : unitOff kind u i = 0x1000000 + 0x100000 * kind + 0x1000 * u + i := if_neg (by omega)
  have hmod : (0x8000000 + (0x1000000 + 0x100000 * kind + 0x1000 * u + i) - 0x8000000) % 0x4000000
      = 0x1000000 + 0x100000 * kind + 0x1000 * u + i := by omega
  have hdvd' : (0x8000000 + (0x1000000 + 0x100000 * kind + 0x1000 * u + i)) % w = 0 := by rcases hw with rfl | rfl <;> omega
  have hslot : slotSel kind (0x1000 * u + i) = .unit kind u i := by
    have hn : (0x1000 * u + i) / 0x1000 = u := by omega
    have hrest : (0x1000 * u + i) % 0x1000 = i := by omega
    unfold slotSel
    dsimp only
    rw [hn, hrest, if_pos hu]
  unfold selOf
  rw [hoff, csOffset, if_neg (by omega), if_neg (by omega)]
  dsimp only
  rw [hmod, if_neg (by omega)]
  interval_cases kind
  · rw [if_pos (by omega), show 0x1000000 + 0x100000 * 0 + 0x1000 * u + i - 0x1000000 = 0x1000 * u + i by omega, hslot]
  · rw [if_neg (by omega), if_pos (by omega), show 0x1000000 + 0x100000 * 1 + 0x1000 * u + i - 0x1100000 = 0x1000 * u + i by omega, hslot]

theorem isMirror_slot {kind u i : Nat} (hkind : kind < 2) (hu : u < unitsOf kind) (hi : i < 0x1000) :
    isMirror (csOffset (unitOff kind u i)) = false := by
  have hu32 : u < 32 := lt_of_lt_of_le hu (by unfold unitsOf; split_ifs <;> omega)
  have hoff : unitOff kind u i = 0x1000000 + 0x100000 * kind + 0x1000 * u + i := if_neg (by omega)
  rw [hoff]
  exact decide_eq_false (by unfold csOffset; omega)

theorem unitOff_ge {kind : Nat} (hkind : kind < 2) (u i : Nat) : 0xC0000 ≤ unitOff kind u i := by
  rw [unitOff, if_neg (by omega)]
  omega

section
variable {kind u i : Nat}

/-- The rights of a write in a reachable slot, and in one that is not. -/
theorem State.accCheck_slot (w : Nat) (h : MayWrite s r) (hkind : kind < 2) :
    s.accCheck r true (.unit kind u i) w = if s.unitReach kind u then none else some .unreachable := by
  have hopen : (selWords (.unit kind u i) w).any hostOnly = false := by
    simp [selWords, hostOnly_baseDie (unitOff_ge hkind _ _)]
  unfold State.accCheck
  rw [if_neg (by simp), if_neg (by simp [hopen]), if_neg (by simp [h.2])]
  cases hreach : s.unitReach kind u <;> simp [State.reach, hreach]

/-- A 32-bit write in a reachable slot goes to its word. -/
theorem State.wr32_slot (h : MayWrite s r) (hkind : kind < 2) (hu : u < unitsOf kind) (hi : i < 0x1000) (hdvd : i % 4 = 0)
    (hreach : s.unitReach kind u = true) (hv : v < 2 ^ 32) : s.wr32 r (unitOff kind u i) v = .next (s.writeWord r (unitOff kind u i) v true) := by
  have hsel := selOf_slot hkind hu hi (.inl rfl : 4 = 4 ∨ 4 = 8) hdvd
  have hwords : selWords (selOf (csOffset (unitOff kind u i)) 4) 4 = [unitOff kind u i] := by rw [hsel]; rfl
  have hok : s.accCheck r true (selOf (csOffset (unitOff kind u i)) 4) 4 = none := by
    rw [hsel, State.accCheck_slot 4 h hkind, if_pos hreach]
  rw [State.wr32, State.wr_words v h.1 (isMirror_slot hkind hu hi) hok (by simp [hwords]), hwords]
  exact congrArg (fun x => Outcome.next (s.writeWord r (unitOff kind u i) x true)) (Nat.mod_eq_of_lt hv)

/-- One of 64 bits: the low word, then the high word (R623). -/
theorem State.wr64_slot (v : Nat) (h : MayWrite s r) (hkind : kind < 2) (hu : u < unitsOf kind) (hi : i < 0x1000) (hdvd : i % 8 = 0)
    (hreach : s.unitReach kind u = true) :
    s.wr64 r (unitOff kind u i) v
      = .next ((s.writeWord r (unitOff kind u i) (v % 2 ^ 32) false).writeWord r (unitOff kind u (i + 4)) (v / 2 ^ 32 % 2 ^ 32) true) := by
  have hsel := selOf_slot hkind hu hi (.inr rfl : 8 = 4 ∨ 8 = 8) hdvd
  have hwords : selWords (selOf (csOffset (unitOff kind u i)) 8) 8 = [unitOff kind u i, unitOff kind u (i + 4)] := by rw [hsel]; rfl
  have hok : s.accCheck r true (selOf (csOffset (unitOff kind u i)) 8) 8 = none := by
    rw [hsel, State.accCheck_slot 8 h hkind, if_pos hreach]
  rw [State.wr64, State.wr_words v h.1 (isMirror_slot hkind hu hi) hok (by simp [hwords]), hwords]
  rfl

/-- A write in a slot that is not reachable is an access error, cause 4. -/
theorem State.wr_slot_unreachable {w : Nat} (h : MayWrite s r) (hkind : kind < 2) (hu : u < unitsOf kind) (hi : i < 0x1000)
    (hw : w = 4 ∨ w = 8) (hdvd : i % w = 0) (hreach : s.unitReach kind u = false) :
    s.wr r (csOffset (unitOff kind u i)) w v = .next (s.accErr r (csOffset (unitOff kind u i)) .unreachable) := by
  have hcheck : s.accCheck r true (.unit kind u i) w = some .unreachable := by simp [State.accCheck_slot w h hkind, hreach]
  refine (if_pos h.1 : s.wr r (csOffset (unitOff kind u i)) w v = _).trans (congrArg Outcome.next ?_)
  simp [State.csWrite, isMirror_slot hkind hu hi, State.localWrite, selOf_slot hkind hu hi hw hdvd, hcheck]

end

/-- A word of a tile's slot. -/
theorem State.writeWord_tile (s : State) (r : ReqId) (t : TileId) {i : Nat} (hi : i < 0x1000) (v : Nat) (last : Bool) :
    s.writeWord r (unitOff 0 t i) v last = s.writeTile r t (unitOff 0 t i) v := by
  have ht := t.isLt
  have hoff : unitOff 0 t i = 0x1000000 + 0x1000 * t + i := rfl
  have hdiv : (unitOff 0 t i - 0x1000000) / 0x1000 = t := by omega
  unfold State.writeWord
  iterate 10 rw [if_neg (by omega)]
  rw [if_pos (by omega), hdiv]
  simp

/-- A word of a port's slot. -/
theorem State.writeWord_port (s : State) (r : ReqId) (p : PortId) {i : Nat} (hi : i < 0x1000) (v : Nat) (last : Bool) :
    s.writeWord r (unitOff 1 p i) v last = s.writePort r p (unitOff 1 p i) v := by
  have hp := p.isLt
  have hoff : unitOff 1 p i = 0x1100000 + 0x1000 * p + i := rfl
  have hdiv : (unitOff 1 p i - 0x1100000) / 0x1000 = p := by omega
  unfold State.writeWord
  iterate 11 rw [if_neg (by omega)]
  rw [hdiv]
  simp

section
variable {t : TileId} {p : PortId} {i : Nat}

theorem State.wr32_tile (h : MayWrite s r) (hreach : s.tileReach t = true) (ho : o = 0x1000000 + 0x1000 * t + i) (hi : i < 0x1000)
    (hdvd : i % 4 = 0) (hv : v < 2 ^ 32) : s.wr32 r o v = .next (s.writeTile r t o v) := by
  have hoff : o = unitOff 0 t i := ho
  have hreach : s.unitReach 0 t = true := hreach
  rw [hoff, State.wr32_slot h (by decide) t.isLt hi hdvd hreach hv, State.writeWord_tile s r t hi]

theorem State.wr64_tile (v : Nat) (h : MayWrite s r) (hreach : s.tileReach t = true) (ho : o = 0x1000000 + 0x1000 * t + i) (hi : i + 4 < 0x1000)
    (hdvd : i % 8 = 0) : s.wr64 r o v = .next ((s.writeTile r t o (v % 2 ^ 32)).writeTile r t (o + 4) (v / 2 ^ 32 % 2 ^ 32)) := by
  have hoff : o = unitOff 0 t i := ho
  have hhigh : o + 4 = unitOff 0 t (i + 4) := by rw [hoff]; rfl
  have hreach : s.unitReach 0 t = true := hreach
  rw [hhigh, hoff, State.wr64_slot v h (by decide) t.isLt (by omega) hdvd hreach, State.writeWord_tile s r t (by omega),
    State.writeWord_tile _ r t hi]

theorem State.wr_tile_unreachable {w : Nat} (h : MayWrite s r) (hreach : s.tileReach t = false) (ho : o = 0x1000000 + 0x1000 * t + i)
    (hi : i < 0x1000) (hw : w = 4 ∨ w = 8) (hdvd : i % w = 0) : s.wr r (csOffset o) w v = .next (s.accErr r (csOffset o) .unreachable) := by
  have hoff : o = unitOff 0 t i := ho
  rw [hoff]
  exact State.wr_slot_unreachable h (by decide) t.isLt hi hw hdvd hreach

theorem State.wr32_port (h : MayWrite s r) (hg : s.gaitN ≠ 0) (ho : o = 0x1100000 + 0x1000 * p + i) (hi : i < 0x1000)
    (hdvd : i % 4 = 0) (hv : v < 2 ^ 32) : s.wr32 r o v = .next (s.writePort r p o v) := by
  have hoff : o = unitOff 1 p i := ho
  have hreach : s.unitReach 1 p = true := decide_eq_true hg
  rw [hoff, State.wr32_slot h (by decide) p.isLt hi hdvd hreach hv, State.writeWord_port s r p hi]

end

/-! ### Words of ingest and Drey (R149, R150, R156) -/

section
variable (s : State)

/-- What a rising EN starts changes neither of the two bits that a write of ING_CTRL stores. -/
theorem State.ingCtrlWrite_fld (v : Nat) : (s.ingCtrlWrite v).fld Reg.ingCtrl 1 0 = v % 4 := by
  have hput : (s.put Reg.ingCtrl (v % 4)).fld Reg.ingCtrl 1 0 = v % 4 := by
    rw [State.fld, State.rd_put_self, Nat.mod_eq_of_lt (by omega)]
    exact Nat.mod_mod _ _
  have hstart (u : State) : (if u.gaitN = 1 ∧ u.gait.trans = .none then u.beginWalkToTrot false else u).rd Reg.ingCtrl = u.rd Reg.ingCtrl := by
    split
    · exact (u.beginWalkToTrot_wakeOnly false).1 _ (by decide)
    · rfl
  unfold State.ingCtrlWrite
  dsimp only
  split
  · exact hput
  · rw [State.fld, hstart]
    split <;> exact hput

/-- A write of ING_CTRL with EN clear stops nothing at once (R149). -/
theorem State.ingCtrlWrite_clear (b : Bool) : s.ingCtrlWrite (2 * b2n b) = s.put Reg.ingCtrl (2 * b2n b) := by
  have hlow : ¬ bitN (2 * b2n b) 0 = true := by cases b <;> decide
  have hlt : 2 * b2n b < 4 := by cases b <;> decide
  exact (if_pos hlow : s.ingCtrlWrite (2 * b2n b) = _).trans (by rw [Nat.mod_eq_of_lt hlt])

/-- A value out of its range is held to it, and recorded (R150). -/
theorem State.ingClamp_spec {lo hi o : Nat} (v : Nat) (hle : lo ≤ hi) (hhi : hi < 2 ^ 32) (ho : o ≠ Reg.ingCfgEvt) :
    (s.ingClamp o lo hi v).rd o = clampN lo hi v ∧ ((v < lo ∨ hi < v) → (s.ingClamp o lo hi v).bit Reg.ingCfgEvt 3 = true)
      ∧ RegsKept s (s.ingClamp o lo hi v) [o, Reg.ingCfgEvt] := by
  have hval : clampN lo hi v < 2 ^ 32 := lt_of_le_of_lt (clampN_le hle v) hhi
  unfold State.ingClamp
  dsimp only
  refine ⟨by rw [State.rd_put_self, Nat.mod_eq_of_lt hval], fun hout => ?_, fun o' ho' => ?_⟩
  · have hne : clampN lo hi v ≠ v := by unfold clampN; split_ifs <;> omega
    rw [if_neg hne, State.bit_put_ne _ _ _ ho.symm]
    exact (State.bit_orReg s (by decide) 3).trans (by simp [bitN])
  · simp only [List.mem_cons, List.not_mem_nil, or_false, not_or] at ho'
    rw [State.rd_put_ne _ _ ho'.1]
    split
    · rfl
    · exact State.rd_orReg_ne s _ ho'.2

/-- The sum that DREY_SPLIT[l] is tested against is the value with the other three. -/
theorem State.foldl_split_sum (l : Fin 4) (v : Nat) :
    (List.range 4).foldl (fun a k => a + (if k = l.val then v else s.rd (Reg.dreySplit k))) 0
      = v + (((List.range 4).filter (· ≠ l.val)).map (fun k => s.rd (Reg.dreySplit k))).sum := by
  fin_cases l <;> simp [List.range_succ] <;> omega

theorem State.splitWrite_taken {l : Fin 4} {v : Nat} (hmul : v % 1024 = 0)
    (hsum : v + (((List.range 4).filter (· ≠ l.val)).map (fun k => s.rd (Reg.dreySplit k))).sum ≤ 1572864) :
    s.splitWrite l.val v = s.put (Reg.dreySplit l.val) v :=
  if_pos ⟨hmul, by rwa [s.foldl_split_sum l v]⟩

theorem State.splitWrite_discarded {l : Fin 4} {v : Nat} (h : v % 1024 ≠ 0
      ∨ 1572864 < v + (((List.range 4).filter (· ≠ l.val)).map (fun k => s.rd (Reg.dreySplit k))).sum) :
    s.splitWrite l.val v = s.orReg Reg.dreyCfgEvt 1 :=
  if_neg (by rw [s.foldl_split_sum l v]; omega)

/-- PORT_GTIME_CTRL: its domain, and logSyncInterval held to its range (R633). -/
theorem State.writeGtimeCtrl (v : Nat) :
    s.writePortSh Reg.portGtimeCtrl v = s.putF Reg.portGtimeCtrl 4 0 (syncInterval v + 16 * b2n (bitN v 4)) := by
  have hrow : regAt Reg.portGtimeCtrl = some (⟨0x0, [], 1, .rw, 0x1F, 13, false⟩, 0) := by decide
  refine (if_pos rfl : s.writePortSh Reg.portGtimeCtrl v = _).trans ?_
  rw [State.storeWord_rw hrow (.inl rfl)]
  exact State.storeMasked_low hrow (by decide) rfl

theorem syncInterval_lt (v : Nat) : syncInterval v < 16 := by
  unfold syncInterval
  split_ifs <;> omega

theorem State.gtimeCtrl_fields (v : Nat) :
    let t := s.putF Reg.portGtimeCtrl 4 0 (syncInterval v + 16 * b2n (bitN v 4))
    t.bit Reg.portGtimeCtrl 4 = bitN v 4 ∧ t.fld Reg.portGtimeCtrl 3 0 = syncInterval v := by
  have hsync := syncInterval_lt v
  have hword : (s.putF Reg.portGtimeCtrl 4 0 (syncInterval v + 16 * b2n (bitN v 4))).fld Reg.portGtimeCtrl 4 0
      = syncInterval v + 16 * b2n (bitN v 4) := by
    have hb : b2n (bitN v 4) ≤ 1 := by unfold b2n; split <;> decide
    rw [State.fld_putF_self s (by decide) (by decide)]
    exact Nat.mod_eq_of_lt (by omega)
  refine ⟨?_, ?_⟩
  · rw [State.bit_putF s (by decide) (by decide), if_pos (by decide)]
    cases hv : bitN v 4 <;> simp only [bitN, b2n, Nat.shiftRight_eq_div_pow] <;> simp <;> omega
  · rw [State.fld, ← bitsN_bitsN_low _ (by decide : 3 ≤ 4)]
    refine (congrArg (fun x => bitsN x 3 0) hword).trans ?_
    simp only [bitsN, Nat.shiftRight_zero]
    omega

/-- TILE_SCHED_SEL and PORT_CAL_CTRL have one bit. -/
theorem State.storeWord_schedSel (b : Bool) : s.storeWord Reg.tileSchedSel (b2n b) = s.putB Reg.tileSchedSel 0 b := by
  have hrow : regAt Reg.tileSchedSel = some (⟨0x18, [], 1, .rw, 0x1, 0, false⟩, 0) := by decide
  rw [State.storeWord_rw hrow (.inl rfl)]
  exact State.storeMasked_low hrow (by decide) rfl

theorem State.storeWord_calCtrl (p : PortId) (b : Bool) : s.storeWord (Reg.portCalCtrl p) (b2n b) = s.putB (Reg.portCalCtrl p) 0 b := by
  have hrow : regAt (Reg.portCalCtrl p) = some (⟨0x10, [], 1, .rw, 0x1, 0, false⟩, 0) := by revert p; decide
  rw [State.storeWord_rw hrow (.inl rfl)]
  exact State.storeMasked_low hrow (by decide) rfl

/-! ### Where a word of a block goes -/

theorem State.writeWord_split (r : ReqId) (l : Fin 4) (v : Nat) : s.writeWord r (Reg.dreySplit l) v true = s.splitWrite l.val v := by
  match l with
  | 0 | 1 | 2 | 3 => rfl

theorem State.writeWord_copyHead (r : ReqId) (c : Fin 4) (v : Nat) :
    s.writeWord r (Reg.hrdCpyHead c) v true = (s.put (Reg.hrdCpyHead c) (v % 8192)).cpyBusy c := by
  have hc := c.isLt
  have hoff : Reg.hrdCpyHead c = 0x12000C + 0x100 * c := rfl
  have hscale : Reg.hrdShdScale = 0x110000 := rfl
  have hbase : Reg.hrdCpyBase 0 = 0x120000 := rfl
  have hdiv : (Reg.hrdCpyHead c - Reg.hrdCpyBase 0) / 0x100 = c := by omega
  unfold State.writeWord
  iterate 4 rw [if_neg (by omega)]
  rw [if_pos (by omega), State.writeHrd, if_neg (by omega), if_neg (by omega)]
  dsimp only
  rw [hdiv]
  simp only [List.getElem?_eq_getElem, List.length_finRange, hc, List.getElem_finRange]
  rw [if_neg (by omega)]
  exact if_pos (by omega)

theorem State.writeWord_sciCtrl (r : ReqId) (p : Fin 2) (v : Nat) : s.writeWord r (Reg.sciCtrl p) v true = s.sciCtrlWrite p v := by
  match p with
  | 0 | 1 => rfl

theorem State.writeWord_shard (r : ReqId) (k : Fin 16) (h : Fin 64) (v : Nat) :
    s.writeWord r (Reg.hrdShdReq k h) v true = s.shardWrite r (Reg.hrdShdReq k h) v := by
  have hk := k.isLt
  have hh := h.isLt
  have hoff : Reg.hrdShdReq k h = 0x100110 + 0x1000 * k + 0x20 * h := rfl
  have hscale : Reg.hrdShdScale = 0x110000 := rfl
  unfold State.writeWord
  iterate 4 rw [if_neg (by omega)]
  rw [if_pos (by omega), State.writeHrd, if_pos (by omega)]
  exact if_pos (by omega)

theorem State.writePort_calCtrl (r : ReqId) (p : PortId) (v : Nat) :
    s.writePort r p (Reg.portCalCtrl p) v = s.storeWord (Reg.portCalCtrl p) v := by
  have hctrl : Reg.portCalCtrl p ≠ Reg.portCtrl p := by simp only [Reg.portCalCtrl, Reg.portCtrl]; omega
  have hlife : ¬ (Reg.portCalCtrl p = Reg.portLifeMin p ∨ Reg.portCalCtrl p = Reg.portLifeWarn p ∨ Reg.portCalCtrl p = Reg.portLifeRated p) := by
    simp only [Reg.portCalCtrl, Reg.portLifeMin, Reg.portLifeWarn, Reg.portLifeRated]
    omega
  exact (if_neg hctrl).trans (if_neg hlife)

/-- TILE_SCHED_PROG[b]: the low word is stored, and the high word starts the check of the program (R227, R623). -/
theorem State.writeWord_schedProg (r : ReqId) (b : Bool) (lo hi : Nat) :
    (s.writeWord r (Reg.tileSchedProg (b2n b)) lo false).writeWord r (Reg.tileSchedProg (b2n b) + 4) hi true
      = ((s.storeWord (Reg.tileSchedProg (b2n b)) lo).storeWord (Reg.tileSchedProg (b2n b) + 4) hi).schedProg (if b then 1 else 0) := by
  cases b <;> rfl

/-! ### Words of the tiles' slots (R216, R223, R440, R598) -/

theorem State.writeTile_reset (r : ReqId) (t : TileId) (v : Nat) : s.writeTile r t (Reg.tileReset t) v = s.tileResetNow t := by
  simp only [State.writeTile, Reg.tileReset, Reg.tileMgmtReq, Reg.tileWdog]
  iterate 2 rw [if_neg (by omega)]
  exact if_pos trivial

/-- A management request is the code and the GEN of the write. -/
theorem mgmtReq_of (r : ReqId) (o cur : Nat) {c : Nat} (g : BitVec 16) (hc : 1 ≤ c) (hmax : c ≤ 4) :
    mgmtReq r o (c + 2 ^ 16 * g.toNat) cur 4 = some ⟨c, g.toNat, decide (g.toNat = cur), false, r, o⟩ := by
  have hg := g.isLt
  have hcode : bitsN (c + 2 ^ 16 * g.toNat) 2 0 = c := by simp only [bitsN, Nat.shiftRight_zero]; omega
  have hgen : bitsN (c + 2 ^ 16 * g.toNat) 31 16 = g.toNat := by simp only [bitsN, Nat.shiftRight_eq_div_pow]; omega
  unfold mgmtReq
  rw [hcode, hgen]
  exact if_neg (by omega)

/-- TILE_MGMT_REQ: nothing but its word and the tile's request. -/
theorem State.mgmtWrite_spec (r : ReqId) (t : TileId) {c : Nat} (g : BitVec 16) (hc : 1 ≤ c) (hmax : c ≤ 4) :
    let s' := s.mgmtWrite r t (c + 2 ^ 16 * g.toNat)
    s'.tiles[t].mgmt = some ⟨c, g.toNat, decide (g.toNat = s.fld (Reg.tileState t) 31 16), false, r, Reg.tileMgmtReq t⟩
      ∧ s' = { s with regs := s'.regs, tiles := s'.tiles } ∧ RegsKept s s' [Reg.tileMgmtReq t]
      ∧ s'.tiles[t] = { s.tiles[t] with mgmt := s'.tiles[t].mgmt } ∧ ∀ u : TileId, u ≠ t → s'.tiles[u] = s.tiles[u] := by
  have hrow : regAt (Reg.tileMgmtReq t) = some (⟨0x8, [], 1, .rw, 0xFFFF0007, 0, false⟩, 0) := by revert t; decide
  have hput : ∃ w, s.storeWord (Reg.tileMgmtReq t) (c + 2 ^ 16 * g.toNat) = s.put (Reg.tileMgmtReq t) w :=
    ⟨_, (State.storeWord_rw hrow (.inl rfl)).trans (State.storeMasked_eq hrow)⟩
  obtain ⟨w, hw⟩ := hput
  rw [State.mgmtWrite, hw, mgmtReq_of r _ _ g hc hmax]
  refine ⟨?_, rfl, fun o ho => ?_, ?_, fun u hu => ?_⟩
  · rw [State.modTile_self]
  · exact State.rd_put_ne s _ (by simpa using ho)
  · rw [State.modTile_self]
    rfl
  · exact State.modTile_ne _ _ hu

/-- TILE_TLB_INV is written in full, and its high word acts on both (R440, R623). -/
theorem State.writeTlbInv (r : ReqId) (t : TileId) (v : BitVec 64) :
    ∃ s1, s1 = { s with regs := s1.regs } ∧ RegsKept s s1 [Reg.tileTlbInv t, Reg.tileTlbInv t + 4]
      ∧ (s.writeTile r t (Reg.tileTlbInv t) (v.toNat % 2 ^ 32)).writeTile r t (Reg.tileTlbInv t + 4) (v.toNat / 2 ^ 32 % 2 ^ 32)
        = s1.tlbInvWrite t v.toNat := by
  have hlow : regAt (Reg.tileTlbInv t) = some (⟨0x708, [], 2, .wo, 0xFFFFFFFFFFFFFFFF, 0, false⟩, 0) := by revert t; decide
  have hhigh : regAt (Reg.tileTlbInv t + 4) = some (⟨0x708, [], 2, .wo, 0xFFFFFFFFFFFFFFFF, 0, false⟩, 1) := by revert t; decide
  have hput (u : State) (w : Nat) : u.storeMasked (Reg.tileTlbInv t) w = u.putF (Reg.tileTlbInv t) 31 0 w :=
    State.storeMasked_low hlow (by decide) rfl
  have hput' (u : State) (w : Nat) : u.storeMasked (Reg.tileTlbInv t + 4) w = u.putF (Reg.tileTlbInv t + 4) 31 0 w :=
    State.storeMasked_low hhigh (by decide) rfl
  have hfirst (w : Nat) : s.writeTile r t (Reg.tileTlbInv t) w = s.putF (Reg.tileTlbInv t) 31 0 w := by
    rw [← hput]
    simp only [State.writeTile, Reg.tileTlbInv, Reg.tileMgmtReq, Reg.tileWdog, Reg.tileReset, Reg.hrdLfsr, Reg.hrdPfMax, Reg.tileSatp]
    iterate 6 rw [if_neg (by omega)]
    exact if_pos trivial
  have hsecond (u : State) (w : Nat) : u.writeTile r t (Reg.tileTlbInv t + 4) w
      = (u.putF (Reg.tileTlbInv t + 4) 31 0 w).tlbInvWrite t (u.rd (Reg.tileTlbInv t) + 2 ^ 32 * w) := by
    rw [← hput']
    simp only [State.writeTile, Reg.tileTlbInv, Reg.tileMgmtReq, Reg.tileWdog, Reg.tileReset, Reg.hrdLfsr, Reg.hrdPfMax, Reg.tileSatp]
    iterate 7 rw [if_neg (by omega)]
    exact if_pos trivial
  have hrd : (s.putF (Reg.tileTlbInv t) 31 0 (v.toNat % 2 ^ 32)).rd (Reg.tileTlbInv t) = v.toNat % 2 ^ 32 := by
    have hfld := State.fld_putF_self s (o := Reg.tileTlbInv t) (hi := 31) (lo := 0) (v := v.toNat % 2 ^ 32) (by decide) (by decide)
    rw [State.fld, bitsN, Nat.shiftRight_zero, Nat.mod_eq_of_lt (State.rd_lt _ _)] at hfld
    rw [hfld, Nat.mod_mod]
  refine ⟨(s.putF (Reg.tileTlbInv t) 31 0 (v.toNat % 2 ^ 32)).putF (Reg.tileTlbInv t + 4) 31 0 (v.toNat / 2 ^ 32 % 2 ^ 32), rfl,
    fun o ho => ?_, ?_⟩
  · simp only [List.mem_cons, List.not_mem_nil, or_false, not_or] at ho
    rw [State.rd_putF_ne _ _ _ _ ho.2, State.rd_putF_ne _ _ _ _ ho.1]
  · rw [hfirst, hsecond, hrd]
    congr 1
    have hv := v.isLt
    omega

end

end

/-- Settles O33: the slot's own words act while the die is present, and the slot is not reachable while it is absent. -/
theorem tileSlotCommands : Obligations.TileSlotCommands := by
  intro s r t g v h
  have hg := g.isLt
  have hreset : Reg.tileReset t = 0x1000000 + 0x1000 * t + 0x5C := by simp only [Reg.tileReset]; omega
  have hmgmt : Reg.tileMgmtReq t = 0x1000000 + 0x1000 * t + 0x8 := by simp only [Reg.tileMgmtReq]; omega
  have htlb : Reg.tileTlbInv t = 0x1000000 + 0x1000 * t + 0x708 := by simp only [Reg.tileTlbInv]; omega
  refine ⟨fun hreach => ⟨?_, fun x hx => ?_, ?_⟩, fun hreach x hx => ?_⟩
  · exact (State.wr32_tile h hreach hreset (by decide) (by decide) (by decide)).trans (congrArg Outcome.next (s.writeTile_reset r t 1))
  · have hreq {c : Nat} (hc : 1 ≤ c) (hmax : c ≤ 4) :
        s.wr32 r (Reg.tileMgmtReq t) (c + 2 ^ 16 * g.toNat) = .next (s.mgmtWrite r t (c + 2 ^ 16 * g.toNat)) :=
      (State.wr32_tile h hreach hmgmt (by decide) (by decide) (by omega)).trans (congrArg Outcome.next (if_pos rfl))
    simp only [List.mem_cons, List.not_mem_nil, or_false] at hx
    rcases hx with rfl | rfl | rfl | rfl
    all_goals exact ⟨_, hreq (by decide) (by decide), s.mgmtWrite_spec r t g (by decide) (by decide)⟩
  · obtain ⟨s1, hregs, hkept, heq⟩ := s.writeTlbInv r t v
    exact ⟨s1, hregs, hkept, v.toNat, rfl, rfl,
      (State.wr64_tile v.toNat h hreach htlb (by decide) (by decide)).trans (congrArg Outcome.next heq)⟩
  · simp only [List.mem_cons, List.not_mem_nil, or_false] at hx
    rcases hx with rfl | rfl | rfl
    · exact State.wr_tile_unreachable h hreach hreset (by decide) (.inl rfl) (by decide)
    · exact State.wr_tile_unreachable h hreach hmgmt (by decide) (.inl rfl) (by decide)
    · exact State.wr_tile_unreachable h hreach htlb (by decide) (.inr rfl) (by decide)

/-- Settles O32: each command is a write of one word of its unit's block, which Walk and above reach. -/
theorem baseRegisterCommands : Obligations.BaseRegisterCommands := by
  refine ⟨fun s r h hgait => ?commands, fun s => ⟨fun l v hv hmul hsum => ?_, fun l v hbad => ?_, s.ingCtrlWrite_fld, fun lo hi v o hle hhi ho =>
    s.ingClamp_spec v hle hhi ho⟩⟩
  case commands =>
    have hwrite {o v : Nat} (hlo : 0xC0000 ≤ o) (ho : o < 0x280000) (hdvd : o % 4 = 0) (hv : v < 2 ^ 32) :
        s.wr32 r o v = .next (s.writeWord r o v true) := State.wr32_baseDie h hgait hlo ho hdvd hv
    have hb (b : Bool) : b2n b ≤ 1 := by cases b <;> decide
    have hctrl (p : PortId) : Reg.portCtrl p = 0x1100000 + 0x1000 * p + 0 := rfl
    have hcal (p : PortId) : Reg.portCalCtrl p = 0x1100000 + 0x1000 * p + 0x10 := by simp only [Reg.portCalCtrl]; omega
    have hshard (k : Fin 16) (x : Fin 64) (g : BitVec 16) {c : Nat} (hc : c < 4) :
        s.wr32 r (Reg.hrdShdReq k x) (c + 2 ^ 16 * g.toNat) = .next (s.shardWrite r (Reg.hrdShdReq k x) (c + 2 ^ 16 * g.toNat)) := by
      have hoff : Reg.hrdShdReq k x = 0x100110 + 0x1000 * k + 0x20 * x := rfl
      exact (hwrite (by omega) (by omega) (by omega) (by omega)).trans (congrArg Outcome.next (s.writeWord_shard r k x _))
    refine ⟨hwrite (by decide) (by decide) (by decide) (by decide), fun i => ?_, fun b => ⟨?_, ?_, ?_⟩, fun l v => ?_, fun p l => ⟨?_, ?_⟩,
      fun p b => ?_, fun v => ?_, fun b a => ?_, fun b => ?_, fun i => ?_, fun k x g => ⟨?_, ?_, ?_⟩, fun c v => ?_, fun d => ?_, fun p x => ?_⟩
    · refine (hwrite (by decide) (by decide) (by decide) (by omega)).trans ?_
      show Outcome.next ((s.put Reg.ingPoseHead (i.toNat % 256)).publishTo (i.toNat % 256)) = _
      rw [Nat.mod_eq_of_lt i.isLt]
    · exact hwrite (by decide) (by decide) (by decide) (by have := hb b; omega)
    · exact (hwrite (by decide) (by decide) (by decide) (by have := hb b; omega)).trans (congrArg Outcome.next (s.ingCtrlWrite_clear b))
    · have hen : s.fld Reg.ingCtrl 0 0 = b2n (s.bit Reg.ingCtrl 0) := State.fld_bit s Reg.ingCtrl 0
      have hen1 := hb (s.bit Reg.ingCtrl 0)
      refine (hwrite (by decide) (by decide) (by decide) (by have := hb b; omega)).trans ?_
      rw [hen]
      rfl
    · have hoff : Reg.dreySplit l = 0x200010 + 4 * l := rfl
      exact (hwrite (by omega) (by omega) (by omega) v.isLt).trans (congrArg Outcome.next (s.writeWord_split r l _))
    · exact (State.wr32_port h hgait (hctrl p) (by decide) (by decide) (by omega)).trans (congrArg Outcome.next (if_pos rfl))
    · exact (State.wr32_port h hgait (hctrl p) (by decide) (by decide) (by omega)).trans (congrArg Outcome.next (if_pos rfl))
    · exact (State.wr32_port h hgait (hcal p) (by decide) (by decide) (by have := hb b; omega)).trans
        (congrArg Outcome.next ((s.writePort_calCtrl r p _).trans (s.storeWord_calCtrl p b)))
    · refine ⟨_, (hwrite (by decide) (by decide) (by decide) v.isLt).trans (congrArg Outcome.next (s.writeGtimeCtrl v.toNat)), rfl,
        s.putF_kept _ _ _ _, (s.gtimeCtrl_fields v.toNat).1, (s.gtimeCtrl_fields v.toNat).2⟩
    · exact (State.wr64_baseDie _ h hgait (by cases b <;> decide) (by cases b <;> decide) (by cases b <;> decide)).trans
        (by rw [s.writeWord_schedProg, Nat.mod_eq_of_lt (by omega : a.toNat / 2 ^ 32 < 2 ^ 32)])
    · exact (hwrite (by decide) (by decide) (by decide) (by have := hb b; omega)).trans (congrArg Outcome.next (s.storeWord_schedSel b))
    · refine (hwrite (by decide) (by decide) (by decide) (by omega)).trans ?_
      show Outcome.next (s.schedKick (i.toNat % 2 ^ 16)) = _
      rw [Nat.mod_eq_of_lt i.isLt]
    · exact hshard k x g (by decide)
    · exact hshard k x g (by decide)
    · exact hshard k x g (by decide)
    · have hoff : Reg.hrdCpyHead c = 0x12000C + 0x100 * c := rfl
      exact (hwrite (by omega) (by omega) (by omega) v.isLt).trans (congrArg Outcome.next (s.writeWord_copyHead r c _))
    · refine (hwrite (by decide) (by decide) (by decide) (by omega)).trans ?_
      show Outcome.next (s.bondTestWrite ((d.toNat + 4) % 8)) = _
      rw [Nat.mod_eq_of_lt (by omega)]
    · have hoff : Reg.sciCtrl p = 0x180000 + 0x100 * p := rfl
      exact (hwrite (by omega) (by omega) (by omega) (by omega)).trans (congrArg Outcome.next (s.writeWord_sciCtrl r p _))
  · rw [s.splitWrite_taken hmul hsum]
    exact ⟨by rw [State.rd_put_self, Nat.mod_eq_of_lt hv], s.put_kept _ _, rfl⟩
  · rw [s.splitWrite_discarded hbad]
    exact ⟨s.put_kept _ _, (State.bit_orReg s (by decide) 0).trans (by simp [bitN]), rfl⟩

end Sys2Proof.Machine
end

section
/-! SUPPORT. Counters and the event log (R602, R603, R607): the sticky bit of a counter, an entry merged into the newest one, a new entry in
its slot, and the latch of a slot's words. With them the statement on counters and the log. -/

namespace Sys2Proof.Machine

open Host

/-! ### The sticky bit of a counter (R607) -/

theorem State.bit_count_ovf (s : State) (c : Ctr) {n : Nat} (hn : n ≠ 0) (h : c.reg ≠ c.ovf + 4 * (c.bit / 32)) :
    (s.count c n).bit (c.ovf + 4 * (c.bit / 32)) (c.bit % 32)
      = (s.bit (c.ovf + 4 * (c.bit / 32)) (c.bit % 32) || decide (0xFFFFFFFF ≤ s.rd c.reg + n)) := by
  have hpow : 2 ^ (c.bit % 32) < 2 ^ 32 := Nat.pow_lt_pow_right (by decide) (Nat.mod_lt _ (by decide))
  unfold State.count
  rw [if_neg hn]
  dsimp only
  split
  next hlt =>
    rw [State.bit_put_ne _ _ _ h.symm, decide_eq_false (by omega), Bool.or_false]
  next hge =>
    rw [State.bit_orReg _ hpow, bitN_two_pow, State.bit_put_ne _ _ _ h.symm, decide_eq_true rfl, decide_eq_true (by omega)]

/-! ### A new entry of the log (R602) -/

theorem logWord_mod (n k : Nat) : logWord (n % 4096) k = logWord n k := by rw [logWord, logWord, Nat.mod_mod]

theorem logWord_inj {n j k : Nat} : logWord n j = logWord n k ↔ j = k := by
  unfold logWord
  omega

theorem logWord_succ (n k : Nat) : logWord n k + 4 = logWord n (k + 1) := by
  unfold logWord
  omega

theorem logWord_ne_of_lt {o : Nat} (h : o < 0xA0000) (n k : Nat) : logWord n k ≠ o := by
  unfold logWord
  omega

/-- The eight words of the slot and EVT_LOG_SEQ, each written once. -/
theorem State.logPut_words (s : State) (n frm w4 data : Nat) :
    s.logPut n frm w4 data = ((((((((s.put (logWord n 0) s.time).put (logWord n 1) (s.time / 2 ^ 32)).put (logWord n 2) frm).put (logWord n 3) n).put
      (logWord n 4) w4).put (logWord n 5) 0).put (logWord n 6) data).put (logWord n 7) (data / 2 ^ 32)).put Reg.evtLogSeq ((n + 1) % 2 ^ 32) := by
  simp only [State.logPut, State.put64, logWord_mod, logWord_succ]

section
variable (s : State) {n frm w4 data : Nat}

theorem State.logPut_slot (hn : n < 2 ^ 32) (hfrm : frm < 2 ^ 32) (hw4 : w4 < 2 ^ 32) (hdata : data < 2 ^ 64) :
    let t := s.logPut n frm w4 data
    t.rd Reg.evtLogSeq = (n + 1) % 2 ^ 32 ∧ t.rd (logWord n 3) = n ∧ t.rd64 (logWord n 0) = s.time % 2 ^ 64 ∧ t.rd (logWord n 2) = frm
      ∧ t.rd (logWord n 4) = w4 ∧ t.rd (logWord n 5) = 0 ∧ t.rd64 (logWord n 6) = data := by
  have hseq (k : Nat) : logWord n k ≠ Reg.evtLogSeq := logWord_ne_of_lt (by decide) n k
  dsimp only
  simp only [State.logPut_words, State.rd64_eq, logWord_succ, State.rd_put, logWord_inj, hseq]
  simp
  omega

theorem State.logPut_kept : RegsKept s (s.logPut n frm w4 data) ([Reg.evtLogSeq] ++ (List.range 8).map (logWord n)) := fun o ho => by
  simp only [List.cons_append, List.nil_append, List.mem_cons, List.mem_map, List.mem_range, not_or, not_exists, not_and] at ho
  obtain ⟨hseq, hslot⟩ := ho
  have hne {k : Nat} (hk : k < 8) : o ≠ logWord n k := fun h => hslot k hk h.symm
  rw [State.logPut_words, State.rd_put_ne _ _ hseq]
  iterate 8 rw [State.rd_put_ne _ _ (hne (by decide))]

/-- The newest entry of the log, when it is of this frame, of these words and free of errors: one that an event like it joins (R603). -/
def State.logRepeats (s : State) (code unit src data : Nat) : Prop :=
  let last := (s.rd Reg.evtLogSeq + 4095) % 4096
  s.log.used ≠ 0 ∧ s.rd (logWord last 2) = s.frameNum ∧ s.rd (logWord last 4) = code + 2 ^ 16 * unit + 2 ^ 24 * src
    ∧ s.rd64 (logWord last 6) = data ∧ last ∉ s.log.bad

variable {code unit src : Nat}

/-- The test that `logEvent` makes is this one, for words in their range. -/
theorem State.logRepeats_iff (hcode : code < 2 ^ 16) (hunit : unit < 256) (hsrc : src < 256) (hdata : data < 2 ^ 64) :
    s.logRepeats code unit src data ↔
      let last := (s.rd Reg.evtLogSeq + 4095) % 4096
      s.log.used ≠ 0 ∧ s.rd (logWord last 2) = s.frameNum
        ∧ s.rd (logWord last 4) = code % 2 ^ 16 + 2 ^ 16 * (unit % 256) + 2 ^ 24 * (src % 256)
        ∧ s.rd (logWord last 6) = data % 2 ^ 32 ∧ s.rd (logWord last 7) = data / 2 ^ 32 % 2 ^ 32 ∧ ¬ s.log.bad.contains last := by
  have hlow := s.rd_lt (logWord ((s.rd Reg.evtLogSeq + 4095) % 4096) 6)
  have hhigh := s.rd_lt (logWord ((s.rd Reg.evtLogSeq + 4095) % 4096) 7)
  have hwords : s.rd64 (logWord ((s.rd Reg.evtLogSeq + 4095) % 4096) 6) = data ↔
      s.rd (logWord ((s.rd Reg.evtLogSeq + 4095) % 4096) 6) = data % 2 ^ 32
        ∧ s.rd (logWord ((s.rd Reg.evtLogSeq + 4095) % 4096) 7) = data / 2 ^ 32 % 2 ^ 32 := by
    rw [State.rd64_eq, logWord_succ]
    simp only [Nat.reduceAdd, Nat.reducePow] at *
    omega
  unfold State.logRepeats
  dsimp only
  rw [hwords, Nat.mod_eq_of_lt hcode, Nat.mod_eq_of_lt hunit, Nat.mod_eq_of_lt hsrc]
  simp only [List.contains_iff_mem, and_assoc]

/-- A repeat raises the newest entry's count. -/
theorem State.logEvent_repeat (hcode : code < 2 ^ 16) (hunit : unit < 256) (hsrc : src < 256) (hdata : data < 2 ^ 64)
    (h : s.logRepeats code unit src data) {w : Nat} (hw : w = logWord ((s.rd Reg.evtLogSeq + 4095) % 4096) 5) :
    let t := s.logEvent code unit src data
    t.fld w 15 0 = min 65535 (s.fld w 15 0 + 1) ∧ RegsKept s t [w] ∧ t.log = s.log := by
  have hput : s.logEvent code unit src data = s.putF w 15 0 (if s.fld w 15 0 < 65535 then s.fld w 15 0 + 1 else s.fld w 15 0) := by
    rw [hw]
    exact if_pos ((s.logRepeats_iff hcode hunit hsrc hdata).1 h)
  have hfld : s.fld w 15 0 < 65536 := bitsN_lt (s.rd w) 15 0
  dsimp only
  rw [hput, State.fld_putF_self s (by decide) (by decide)]
  refine ⟨?_, s.putF_kept _ _ _ _, rfl⟩
  simp only [Nat.reduceAdd, Nat.reduceSub, Nat.reducePow]
  split <;> omega

/-- The entry that a full log gives up is counted first. -/
def State.logRoom (s : State) : State := if 4096 ≤ s.log.used then s.count Cnt.evtLogOvwr else s

theorem State.logRoom_frame : RegsKept s s.logRoom (ctrWords Cnt.evtLogOvwr) ∧ s.logRoom = { s with regs := s.logRoom.regs } := by
  unfold State.logRoom
  split
  · exact ⟨s.count_kept _ _, s.count_eq _ _⟩
  · exact ⟨RegsKept.refl s _, rfl⟩

/-- The log's own record holds no word. -/
theorem State.rd_withLog (u : State) (l : LogSt) (o : Nat) : ({ u with log := l } : State).rd o = u.rd o := rfl

/-- An event unlike the newest entry takes the next slot. -/
theorem State.logEvent_new (hcode : code < 2 ^ 16) (hunit : unit < 256) (hsrc : src < 256) (hdata : data < 2 ^ 64)
    (h : ¬ s.logRepeats code unit src data) {n : Nat} (hn : n = s.rd Reg.evtLogSeq) :
    let t := s.logEvent code unit src data
    (t.rd Reg.evtLogSeq = (n + 1) % 2 ^ 32 ∧ t.rd (logWord n 3) = n ∧ t.rd64 (logWord n 0) = s.time % 2 ^ 64 ∧ t.rd (logWord n 2) = s.frameNum
      ∧ t.rd (logWord n 4) = code + 2 ^ 16 * unit + 2 ^ 24 * src ∧ t.rd (logWord n 5) = 0 ∧ t.rd64 (logWord n 6) = data)
      ∧ n % 4096 ∉ t.log.bad ∧ RegsKept s t ([Reg.evtLogSeq] ++ (List.range 8).map (logWord n) ++ ctrWords Cnt.evtLogOvwr) := by
  obtain ⟨hroom, hregs⟩ := s.logRoom_frame
  have htime : s.logRoom.time = s.time := by rw [hregs]
  have hput := s.logRoom.logPut_slot (n := n) (frm := s.frameNum) (w4 := code + 2 ^ 16 * unit + 2 ^ 24 * src) (data := data)
    (hn ▸ s.rd_lt _) (s.rd_lt _) (by omega) hdata
  have hkept := s.logRoom.logPut_kept (n := n) (frm := s.frameNum) (w4 := code + 2 ^ 16 * unit + 2 ^ 24 * src) (data := data)
  have hnew : s.logEvent code unit src data
      = { s.logRoom.logPut n s.frameNum (code + 2 ^ 16 * unit + 2 ^ 24 * src) data with log :=
          { s.logRoom.log with used := min 4096 (s.logRoom.log.used + 1), bad := s.logRoom.log.bad.filter (· ≠ n % 4096) } } := by
    refine (if_neg (fun hrep => h ((s.logRepeats_iff hcode hunit hsrc hdata).2 hrep))).trans ?_
    rw [Nat.mod_eq_of_lt hcode, Nat.mod_eq_of_lt hunit, Nat.mod_eq_of_lt hsrc, hn]
    rfl
  rw [htime] at hput
  dsimp only
  rw [hnew]
  simp only [State.rd64_eq, State.rd_withLog] at hput ⊢
  refine ⟨hput, by simp, fun o ho => (State.rd_withLog _ _ o).trans ?_⟩
  exact ((hroom.mono (List.subset_append_right _ _)).trans (hkept.mono (List.subset_append_left _ _))) o ho

end

/-! ### The latch of a slot (R602) -/

/-- A read of the first word of a slot that holds no error latches its eight words. -/
theorem State.logRead_first (s : State) (r : ReqId) (k : Fin 4096) (hbad : k.val ∉ s.log.bad) :
    s.logRead r [logWord k 0] = (s.rd (logWord k 0) % 2 ^ 32, { s with log := { s.log with latch :=
      (r.val, k.val, (List.range 8).map (fun j => BitVec.ofNat 32 (s.rd (logWord k j)))) :: s.log.latch.filter (fun l => l.1 ≠ r.val) } }) := by
  have hk := k.isLt
  have hslot : (logWord k 0 - 0xA0000) / 32 = k := by unfold logWord; omega
  have hword : (logWord k 0 - 0xA0000) / 4 % 8 = 0 := by unfold logWord; omega
  unfold State.logRead
  simp [hslot, hword, hbad, wordsNat, List.range_succ]

/-- Settles O38: a counter's bit is set where it saturates; an event joins the newest entry where that is like it, and takes the next slot
where it is not; the latch is filled at a slot's first word. -/
theorem countersAndLog : Obligations.CountersAndLog := by
  refine ⟨fun s c n hn h => ⟨s.rd_count c n h, s.count_kept c n, s.count_eq c n, s.bit_count_ovf c hn h⟩,
    fun s code unit src data hcode hunit hsrc hdata => ⟨s.logEvent_eq code unit src data, fun hsame => ?_, fun hnew => ?_,
      fun s r k hal hok hbad => ?_⟩⟩
  · exact s.logEvent_repeat hcode hunit hsrc hdata hsame rfl
  · obtain ⟨⟨hseq, hnum, htime, hfrm, hword, hrep, hdat⟩, hbad, hkept⟩ := s.logEvent_new hcode hunit hsrc hdata hnew rfl
    exact ⟨hseq, hnum, htime, hfrm, hword, hrep, hdat, hbad, hkept⟩
  · have ho : logWord k 0 < 0x280000 := by have := k.isLt; unfold logWord; omega
    have hdvd : logWord k 0 % 4 = 0 := by unfold logWord; omega
    have hsel : selOf (csOffset (logWord k 0)) 4 = .reg (logWord k 0) := selOf_csOffset ho (.inl rfl) hdvd
    have hwords : selWords (selOf (csOffset (logWord k 0)) 4) 4 = [logWord k 0] := by rw [hsel]; rfl
    have hlog : s.regRead r [logWord k 0] true false = s.logRead r [logWord k 0] :=
      if_pos (by simp only [List.any_cons, List.any_nil, Bool.or_false, decide_eq_true_eq]; unfold logWord; omega)
    have hread : exec (.evtLogFirstWordRead r k false) s = .next ((s.logRead r [logWord k 0]).2.give r (s.logRead r [logWord k 0]).1) := by
      refine (if_pos hal : s.rdCmd r (csOffset (logWord k 0)) 4 false = _).trans (congrArg Outcome.next ?_)
      rw [State.csRead, if_neg (by simp [isMirror_csOffset ho]), State.localRead_words true false (hsel.symm ▸ hok) (by simp [hwords]), hwords, hlog]
    rw [hread, s.logRead_first r k hbad]
    exact ⟨_, rfl, State.give_rdata _ _ _, rfl, rfl⟩

end Sys2Proof.Machine
end

section
/-! SUPPORT. The words and the record of the gait logic (Tables 17-1 to 17-4): a held request written, dropped and carried out, main power, and
the wake sources. With them the statements on GAIT_REQ (R555) and on main power and the wake sources (R558, R559, R566). -/

namespace Sys2Proof.Machine

open Host

/-! ### Bits of GAIT_STAT beside the gait and its GEN -/

section
variable (s : State)

theorem State.gaitN_putB {i : Nat} (b : Bool) (hlo : 2 ≤ i) (hi : i < 32) : (s.putB Reg.gaitStat i b).gaitN = s.gaitN :=
  State.fld_putF_apart s (by omega) hi (.inr (by omega))

/-- The gait's GEN (Table 17-3). -/
theorem State.gaitGen_putB {i : Nat} (b : Bool) (hi : i < 16) : (s.putB Reg.gaitStat i b).fld Reg.gaitStat 31 16 = s.fld Reg.gaitStat 31 16 :=
  State.fld_putF_apart s (by omega) (by omega) (.inl hi)

theorem State.bit_gaitStat_putB {i j : Nat} (b : Bool) (hi : i < 32) :
    (s.putB Reg.gaitStat i b).bit Reg.gaitStat j = if j = i then b else s.bit Reg.gaitStat j := State.bit_putB s b hi j

/-- A log entry changes no bit of GAIT_STAT. -/
theorem State.bit_logEvent (code unit src data i : Nat) :
    (s.logEvent code unit src data).bit Reg.gaitStat i = s.bit Reg.gaitStat i := by
  rw [State.bit, State.rd_logEvent_of_lt s (by decide)]
  rfl

theorem State.gaitN_logEvent (code unit src data : Nat) : (s.logEvent code unit src data).gaitN = s.gaitN := by
  rw [State.gaitN, State.fld, State.rd_logEvent_of_lt s (by decide)]
  rfl

/-! ### The held request dropped (R555) -/

theorem State.dropHeld_gait : s.dropHeld.gait = { s.gait with held := none } := rfl

theorem State.bit_dropHeld (j : Nat) : s.dropHeld.bit Reg.gaitStat j = if j = 7 then false else s.bit Reg.gaitStat j :=
  s.bit_gaitStat_putB false (by decide)

theorem State.gaitN_dropHeld : s.dropHeld.gaitN = s.gaitN := s.gaitN_putB false (by decide) (by decide)

/-! ### A write of GAIT_REQ (R555) -/

/-- MISM cleared, with the word as written. -/
def State.reqCleared (s : State) (v : Nat) : State := (s.put Reg.gaitReq (v &&& 0xFFFF0003)).putB Reg.gaitStat 3 false

theorem State.reqCleared_stat (v : Nat) :
    (s.reqCleared v).gaitN = s.gaitN ∧ (s.reqCleared v).fld Reg.gaitStat 31 16 = s.fld Reg.gaitStat 31 16
      ∧ (s.reqCleared v).bit Reg.gaitStat 3 = false := by
  refine ⟨?_, ?_, ?_⟩
  · exact (State.gaitN_putB _ false (by decide) (by decide)).trans (s.fld_put_ne _ _ _ (by decide))
  · exact (State.gaitGen_putB _ false (by decide)).trans (s.fld_put_ne _ _ _ (by decide))
  · exact (State.bit_gaitStat_putB _ false (by decide)).trans (if_pos rfl)

theorem State.gaitReqWrite_dropped (r : ReqId) {v : Nat} (h : v % 4 = 0 ∨ reqGait (v % 4) = min 2 s.gaitN) :
    s.gaitReqWrite r v = (s.reqCleared v).dropHeld := by
  refine if_pos (h.imp_right fun heq => heq.trans ?_)
  exact congrArg (min 2) (s.reqCleared_stat v).1.symm

theorem State.gaitReqWrite_held (r : ReqId) {v : Nat} (hv : v < 2 ^ 32) (h0 : v % 4 ≠ 0) (h : reqGait (v % 4) ≠ min 2 s.gaitN) :
    s.gaitReqWrite r v = ((s.reqCleared v).putB Reg.gaitStat 7 true).modGait (fun q =>
      { q with held := some ⟨v % 4, v / 2 ^ 16, s.time, decide (v / 2 ^ 16 ≠ s.fld Reg.gaitStat 31 16), r⟩ }) := by
  obtain ⟨hgait, hgen, -⟩ := s.reqCleared_stat v
  have hcode : bitsN v 31 16 = v / 2 ^ 16 := by
    rw [bitsN, Nat.shiftRight_eq_div_pow]
    exact Nat.mod_eq_of_lt (by omega)
  have hnot : ¬ (v % 4 = 0 ∨ reqGait (v % 4) = (s.reqCleared v).gaitForReq) := by
    rw [State.gaitForReq, hgait]
    exact not_or.2 ⟨h0, h⟩
  refine (if_neg hnot).trans ?_
  rw [← hgen, ← hcode]
  rfl

/-- The bit of a held request, and the request: what they leave alone. -/
theorem State.setHeld_spec (b : Bool) (f : GaitSt → GaitSt) :
    let t := (s.putB Reg.gaitStat 7 b).modGait f
    t.bit Reg.gaitStat 3 = s.bit Reg.gaitStat 3 ∧ RegsKept s t [Reg.gaitStat] ∧ t = { s with regs := t.regs, gait := t.gait }
      ∧ t.gaitN = s.gaitN ∧ t.fld Reg.gaitStat 31 16 = s.fld Reg.gaitStat 31 16 := by
  refine ⟨?_, s.putB_kept Reg.gaitStat 7 b, rfl, ?_, ?_⟩
  · rw [State.modGait_bit, s.bit_gaitStat_putB b (by decide), if_neg (by decide)]
  · rw [State.gaitN, State.modGait_fld]
    exact s.gaitN_putB b (by decide) (by decide)
  · rw [State.modGait_fld, s.gaitGen_putB b (by decide)]

theorem State.gaitReqWrite_spec (r : ReqId) {v : Nat} (hv : v < 2 ^ 32) :
    let t := s.gaitReqWrite r v
    t.bit Reg.gaitStat 3 = false ∧ RegsKept s t [Reg.gaitReq, Reg.gaitStat] ∧ t = { s with regs := t.regs, gait := t.gait }
      ∧ t.gaitN = s.gaitN ∧ t.fld Reg.gaitStat 31 16 = s.fld Reg.gaitStat 31 16 := by
  obtain ⟨hgait, hgen, hmism⟩ := s.reqCleared_stat v
  have hclear : RegsKept s (s.reqCleared v) [Reg.gaitReq, Reg.gaitStat] :=
    ((s.put_kept _ _).mono (by simp)).trans ((State.putB_kept _ _ _ _).mono (by simp))
  obtain ⟨b, f, heq⟩ : ∃ b f, s.gaitReqWrite r v = ((s.reqCleared v).putB Reg.gaitStat 7 b).modGait f := by
    by_cases h : v % 4 = 0 ∨ reqGait (v % 4) = min 2 s.gaitN
    · exact ⟨false, _, s.gaitReqWrite_dropped r h⟩
    · exact ⟨true, _, s.gaitReqWrite_held r hv (not_or.1 h).1 (not_or.1 h).2⟩
  obtain ⟨h3, hkept, hframe, hn, hg⟩ := (s.reqCleared v).setHeld_spec b f
  dsimp only
  rw [heq]
  exact ⟨h3.trans hmism, hclear.trans (hkept.mono (by simp)), rfl, hn.trans hgait, hg.trans hgen⟩

end

/-! ### GAIT_REQUEST_APPLY and GAIT_REQUEST_REFUSE (R555) -/

section
variable {s : State} {h : GaitReq} {idle : Bool}

/-- A held request meets its next row with no transition under way. -/
theorem exec_gaitRequestApply_row {x : Trans × Bool} (hal : s.alive = true) (hheld : s.gait.held = some h) (htr : s.gait.trans = .none)
    (hne : reqGait h.target ≠ min 2 s.gaitN) (hrow : s.nextRow (reqGait h.target) idle = some x) :
    exec (.gaitRequestApply idle) s = .next (if h.changed then
        ((s.putB Reg.gaitStat 3 true).logEvent 0x30 pkgUnit (ReqId.source h.req)
          (csOffset Reg.gaitReq + 2 ^ 32 * h.gen + 2 ^ 48 * s.fld Reg.gaitStat 31 16)).dropHeld
      else
        let s1 := if x.1 = .walkToTrot then s.beginWalkToTrot true else s.setTrans x.1 true
        if x.2 then s1.dropHeld else s1) := by
  show execGaitRequestApply idle s = _
  unfold execGaitRequestApply
  rw [if_neg (by simp [hal]), hheld]
  dsimp only
  rw [if_neg (by simp [htr]), if_neg (show ¬ reqGait h.target = s.gaitForReq from hne), hrow]
  dsimp only
  split <;> rfl

theorem exec_gaitRequestApply_none (hal : s.alive = true) (hheld : s.gait.held = some h) (htr : s.gait.trans = .none)
    (hne : reqGait h.target ≠ min 2 s.gaitN) (hrow : s.nextRow (reqGait h.target) idle = none) :
    exec (.gaitRequestApply idle) s = .next s := by
  show execGaitRequestApply idle s = _
  unfold execGaitRequestApply
  rw [if_neg (by simp [hal]), hheld]
  dsimp only
  rw [if_neg (by simp [htr]), if_neg (show ¬ reqGait h.target = s.gaitForReq from hne), hrow]

theorem exec_gaitRequestRefuse (hal : s.alive = true) (hheld : s.gait.held = some h) :
    let u := s.at_ (h.at_ + if s.bit Reg.gaitStat 6 then 2 * s.frm.period else 400000000)
    exec .gaitRequestRefuse s = .next ((u.count Cnt.gaitCntRefuse).logEvent 0x60 pkgUnit 0 (h.target + 4 * u.gaitN + 2 ^ 16 * h.gen)).dropHeld := by
  show execGaitRequestRefuse s = _
  unfold execGaitRequestRefuse
  rw [if_neg (by simp [hal]), hheld]

end

/-- Settles O37: a write holds or drops the request; its row, its changed GEN, or its time ends it. -/
theorem gaitRequests : Obligations.GaitRequests := by
  refine ⟨fun s r v hv => ?write, fun s h idle hal hheld htr hne => ⟨fun tr last hrow hch => ?_, fun x hrow hch => ?_,
    exec_gaitRequestApply_none hal hheld htr hne⟩, fun s h hal hheld => ?refuse⟩
  case write =>
    obtain ⟨hmism, hkept, hframe, hgait, hgen⟩ := s.gaitReqWrite_spec r hv
    refine ⟨hmism, hkept, hframe, hgait, hgen, fun hdrop => ?_, fun h0 hne => ?_⟩
    · rw [s.gaitReqWrite_dropped r hdrop]
      exact ⟨rfl, (State.bit_dropHeld _ 7).trans (if_pos rfl)⟩
    · rw [s.gaitReqWrite_held r hv h0 hne, State.modGait_bit]
      exact ⟨(State.bit_gaitStat_putB _ true (by decide)).trans (if_pos rfl), rfl⟩
  · rw [exec_gaitRequestApply_row hal hheld htr hne hrow, hch]
    rfl
  · rw [exec_gaitRequestApply_row hal hheld htr hne hrow, hch, if_pos rfl]
    generalize hu : (s.putB Reg.gaitStat 3 true).logEvent _ _ _ _ = u
    have hbit (j : Nat) : u.bit Reg.gaitStat j = if j = 3 then true else s.bit Reg.gaitStat j := by
      rw [← hu, State.bit_logEvent, s.bit_gaitStat_putB true (by decide)]
    have hgait : u.gait = s.gait := by rw [← hu, State.logEvent_eq]; rfl
    have hgaitN : u.gaitN = s.gaitN := by rw [← hu, State.gaitN_logEvent, s.gaitN_putB true (by decide) (by decide)]
    refine ⟨_, rfl, ?_, (u.bit_dropHeld 7).trans (if_pos rfl), ?_, u.gaitN_dropHeld.trans hgaitN⟩
    · rw [u.bit_dropHeld, if_neg (by decide), hbit, if_pos rfl]
    · rw [u.dropHeld_gait, hgait]
  case refuse =>
    refine ⟨_, exec_gaitRequestRefuse hal hheld, ?_⟩
    have hcount : ((s.at_ (h.at_ + if s.bit Reg.gaitStat 6 then 2 * s.frm.period else 400000000)).count Cnt.gaitCntRefuse).rd
        Cnt.gaitCntRefuse.reg = min 0xFFFFFFFF (s.rd Cnt.gaitCntRefuse.reg + 1) := State.rd_count _ _ _ (by decide)
    generalize hu : (s.at_ _).count Cnt.gaitCntRefuse = u at hcount
    have hregs : u = { s.at_ (h.at_ + if s.bit Reg.gaitStat 6 then 2 * s.frm.period else 400000000) with regs := u.regs } := by
      rw [← hu, State.count_eq]
    have hstat : u.gaitN = s.gaitN := by
      rw [← hu, State.gaitN, State.fld, State.rd_count_ne _ _ _ (by decide) (by decide)]
      rfl
    generalize hw : u.logEvent _ _ _ _ = w
    have hlog : w = { u with regs := w.regs, log := w.log } := by rw [← hw, State.logEvent_eq]
    have hrd {o : Nat} (ho : o < 0x80000) : w.rd o = u.rd o := by rw [← hw, State.rd_logEvent_of_lt u ho]
    refine ⟨?_, (w.bit_dropHeld 7).trans (if_pos rfl), ?_, ?_, ?_⟩
    · rw [w.dropHeld_gait, hlog, hregs]
      rfl
    · rw [w.gaitN_dropHeld, State.gaitN, State.fld, hrd (by decide)]
      exact hstat
    · show w.time = _
      rw [hlog, hregs]
      rfl
    · show (w.putB Reg.gaitStat 7 false).rd _ = _
      rw [State.rd_putB_ne _ _ _ (by decide), hrd (by decide), hcount]

/-! ### The wake sources (R566) -/

section
variable (s : State)

theorem State.beginWalkToTrot_kept (own : Bool) : RegsKept s (s.beginWalkToTrot own) [Reg.gaitStat] := by
  unfold State.beginWalkToTrot
  split
  · exact RegsKept.refl s _
  · exact s.putB_kept Reg.gaitStat 2 _

/-- The wake that runs touches no word but GAIT_STAT. -/
theorem State.runWake_kept : RegsKept s s.runWake [Reg.gaitStat] := by
  unfold State.runWake
  split
  · split
    · exact s.putB_kept Reg.gaitStat 2 _
    · split
      · split
        · exact (s.modGait _).beginWalkToTrot_kept false
        · exact RegsKept.refl s _
      · exact fun _ _ => rfl
  · exact RegsKept.refl s _

theorem State.wakeTo_kept (w : Nat) : RegsKept s (s.wakeTo w) [Reg.gaitStat] := by
  unfold State.wakeTo
  split
  · exact (s.modGait _).runWake_kept
  · exact RegsKept.refl s _

/-- An event sets its bit at once, and does nothing more where GAIT_WAKE_EN leaves it out. -/
theorem State.wakeEvent_spec {k : Nat} (hk : k < 32) :
    (s.wakeEvent k).bit Reg.gaitWakeSrc k = true ∧ (s.wakeEvent k).time = s.time
      ∧ (s.bit Reg.gaitWakeEn k = false → s.wakeEvent k = { s with regs := (s.wakeEvent k).regs } ∧ RegsKept s (s.wakeEvent k) [Reg.gaitWakeSrc]) := by
  have hsrc : (s.orReg Reg.gaitWakeSrc (2 ^ k)).bit Reg.gaitWakeSrc k = true := by
    rw [State.bit_orReg s (Nat.pow_lt_pow_right (by decide) hk), bitN_two_pow, decide_eq_true rfl, Bool.or_true]
  refine ⟨?_, by rw [(s.wakeEvent_wakeOnly k).2], fun hen => ?_⟩
  · unfold State.wakeEvent
    dsimp only
    split
    · rw [State.bit, State.wakeTo_kept _ _ _ (by decide)]
      exact hsrc
    · exact hsrc
  · have hquiet : s.wakeEvent k = s.orReg Reg.gaitWakeSrc (2 ^ k) :=
      if_neg (by rw [State.bit_orReg_ne s _ _ (by decide), hen]; decide)
    rw [hquiet]
    exact ⟨rfl, s.put_kept _ _⟩

end

/-! ### Main power (R558, R559, R569, R657) -/

section
variable {s : State}

/-- Without main power for 1 ms the transition ends where it began (R559). -/
theorem exec_pwrGoodMainTimeout (hal : s.alive = true) (htr : s.gait.trans = .stableToWalk) (hpwr : s.gait.pwrRisen = false) :
    ∃ t, exec .pwrGoodMainTimeout s = .next t ∧ t.gait.pwrEn = false ∧ t.gait.wake = none ∧ t.gait.trans = .none
      ∧ t.bit Reg.gaitStat 2 = false ∧ t.gaitN = s.gaitN ∧ t.tiles = s.tiles ∧ t.mem = s.mem
      ∧ t.rd Cnt.gaitCntPwrfail.reg = min 0xFFFFFFFF (s.rd Cnt.gaitCntPwrfail.reg + 1) := by
  have hexec : exec .pwrGoodMainTimeout s = .next ((((s.count Cnt.gaitCntPwrfail).logEvent 0x61 pkgUnit 0 (2 * s.gaitN)).setTrans .none false).modGait
      (fun q => { q with pwrEn := false, wake := none })) := if_neg (by simp [hal, htr, hpwr])
  generalize hu : s.count Cnt.gaitCntPwrfail = u at hexec
  have hcount : u.rd Cnt.gaitCntPwrfail.reg = min 0xFFFFFFFF (s.rd Cnt.gaitCntPwrfail.reg + 1) := by rw [← hu]; exact s.rd_count _ _ (by decide)
  have hregs : u = { s with regs := u.regs } := by rw [← hu, State.count_eq]
  have hstat : u.gaitN = s.gaitN := by
    rw [← hu, State.gaitN, State.fld, State.rd_count_ne _ _ _ (by decide) (by decide)]
    rfl
  generalize hw : u.logEvent 0x61 pkgUnit 0 (2 * s.gaitN) = w at hexec
  have hlog : w = { u with regs := w.regs, log := w.log } := by rw [← hw, State.logEvent_eq]
  have hgait : w.gaitN = u.gaitN := by rw [← hw, State.gaitN_logEvent]
  refine ⟨_, hexec, rfl, rfl, rfl, ?_, ?_, ?_, ?_, ?_⟩
  · exact (w.bit_gaitStat_putB false (by decide)).trans (if_pos rfl)
  · exact (w.gaitN_setTrans .none false).trans (hgait.trans hstat)
  · show w.tiles = _
    rw [hlog, hregs]
  · show w.mem = _
    rw [hlog, hregs]
  · show (w.putB Reg.gaitStat 2 _).rd _ = _
    rw [State.rd_putB_ne _ _ _ (by decide), ← hw, State.rd_logEvent_of_lt u (by decide), hcount]

end

/-- Settles O42: the commands on main power unfold to their effects, and each wake source is one event of its number. -/
theorem powerAndWake : Obligations.PowerAndWake := by
  refine ⟨fun s hal => ?power, fun s hal => ?sources⟩
  case power =>
    have hfall : exec .pwrGoodMainFall s = .next (if (s.gait.pwrEn && s.gait.pwrRisen) = true then (s.modGait (fun q => { q with pwrGood := false })).supplyFail
        else s.modGait (fun q => { q with pwrGood := false })) := if_neg (by simp [hal])
    have hrise : exec .pwrGoodMainRise s = .next (s.modGait (fun q => { q with pwrGood := true, pwrRisen := q.pwrEn, refRunning := q.refEn })) :=
      if_neg (by simp [hal])
    refine ⟨hrise, fun htr hpwr hres => if_neg (by simp [hal, htr, hpwr, hres]), exec_pwrGoodMainTimeout hal, fun hen hpwr => ⟨?_, ?_⟩, fun hoff => ?_⟩
    · exact hfall.trans (congrArg Outcome.next (if_pos (by simp [hen, hpwr])))
    · exact if_neg (by simp [hal, hen, hpwr])
    · refine hfall.trans (congrArg Outcome.next (if_neg ?_))
      rcases hoff with hoff | hoff <;> simp [hoff]
  case sources =>
    have hwoken {u : State} {k : Nat} (hk : k < 32) {o : Outcome State Fault Refusal} (ho : o = .next (u.wakeEvent k)) :
        ∃ t, o = .next t ∧ t.bit Reg.gaitWakeSrc k = true ∧ t.time = u.time
          ∧ (u.bit Reg.gaitWakeEn k = false → t = { u with regs := t.regs } ∧ RegsKept u t [Reg.gaitWakeSrc]) := by
      exact ⟨_, ho, u.wakeEvent_spec hk⟩
    refine ⟨hwoken (by decide) (if_neg (by simp [hal])), fun n r hn => ⟨fun hedge => ?_, fun hedge => ?_⟩, fun harm => ?_, fun harm => ?_,
      fun hend => ?_, fun hend => ?_⟩
    · exact hwoken (by decide) (if_pos ⟨hal, hn, hedge⟩)
    · exact if_neg (fun h => hedge h.2.2)
    · have hreached : exec .wakeTimeReached s = .next (s.at_ (s.rd64 Reg.gaitWakeTime)).wakeTimer := if_neg (by simp [hal, harm])
      exact hwoken (by decide) (hreached.trans (congrArg Outcome.next (if_pos ⟨harm, le_max_right _ _⟩)))
    · exact if_pos (by simp [harm])
    · exact hwoken (by decide) (if_pos ⟨hal, hend⟩)
    · exact if_neg (by simp [hend])

end Sys2Proof.Machine
end

section
/-! SUPPORT. The ROM's check of a boot image (R574 to R576) and the end of a command of the identity-key service (R580). With them the statement
on boot and the identity key. -/

namespace Sys2Proof.Machine

open Host

section
variable {s : State}

/-! ### BOOT_IMAGE_CHECK (R574 to R576) -/

/-- The code of a failed check (Table 17-8). -/
theorem State.imageCode_le (s : State) (img : List Byte) (recovery : Bool) : s.imageCode img recovery ≤ 6 := by
  unfold State.imageCode
  dsimp only
  split_ifs <;> omega

/-- The ROM's code for a slot: 7 for a read that fails, else its image's. -/
def State.bootCode (s : State) (e : Bool) (img : List Byte) : Nat := if e then 7 else s.imageCode img false

theorem State.bootCode_lt (s : State) (e : Bool) (img : List Byte) : s.bootCode e img < 8 := by
  have h := s.imageCode_le img false
  unfold State.bootCode
  split <;> omega

/-- The body read into burrow memory, once the header's checks have passed. -/
def State.bootRead (s : State) (code : Nat) (img : List Byte) : State :=
  if code = 0 ∨ code = 5 ∨ code = 6 then s.memWrite (leAt img 0xC 4) ((img.drop 0x100).take (leAt img 8 4)) else s

theorem State.bootRead_gait (s : State) (code : Nat) (img : List Byte) : (s.bootRead code img).gait = s.gait := by
  unfold State.bootRead
  split
  · rw [(State.memWrite_engineOnly _ _ _).2]
  · rfl

theorem State.rd_bootStart (s : State) (entry : Nat) (slotB recovery : Bool) : (s.bootStart entry slotB recovery).rd Reg.gaitCoreRun = 1 := by
  unfold State.bootStart
  dsimp only
  rw [State.modGait_rd, State.rd_put_self, Nat.mod_eq_of_lt (by decide)]

section
variable {e : Bool} {img : List Byte}

theorem exec_bootImageCheck_passes (hal : s.alive = true) (hrom : s.gait.core0 = .rom) (hcode : s.bootCode e img = 0) :
    exec (.bootImageCheck s.bootSlot e img) s = .next ((s.bootRead (s.bootCode e img) img).bootStart (leAt img 0x10 8) s.bootSlot false) :=
  (if_neg (by simp [hal, hrom])).trans (if_pos hcode)

theorem exec_bootImageCheck_fails (hal : s.alive = true) (hrom : s.gait.core0 = .rom) (hcode : s.bootCode e img ≠ 0) :
    let u := s.bootRead (s.bootCode e img) img
    exec (.bootImageCheck s.bootSlot e img) s = .next ((u.bootFail (s.bootCode e img)).modGait (fun q => { q with
      bootTried := q.bootTried + 1
      core0 := if !decide (u.gait.bootTried ≠ 0) then .rom else if q.bootSel = 2 then .wfi else .recovery })) :=
  (if_neg (by simp [hal, hrom])).trans (if_neg hcode)

end

/-! ### IDK_COMMAND_DONE (R580) -/

section
variable {inp : List W32} {c : Nat}

/-- The service's input, and the point it spells (log 94). -/
def idkBytes (inp : List W32) : List Byte := inp.flatMap (fun w => toLe w.toNat 4)

def idkX (inp : List W32) : Nat := beNat ((idkBytes inp).take 32)

def idkY (inp : List W32) : Nat := beNat ((idkBytes inp).drop 32)

/-- SIGN leaves the signature of its digest. -/
theorem exec_idkCommandDone_sign {x z : Nat} (hal : s.alive = true) (hidk : s.gait.idk = some (1, inp))
    (hsign : ecdsaSign Config.idkPrivate ((idkBytes inp).take 32) = (x, z)) :
    exec .idkCommandDone s
      = .next (((s.modGait (fun q => { q with idk := none })).idkOut (toBe x 32 ++ toBe z 32)).putF Reg.gaitIdkStat 2 0 2) := by
  show execIdkCommandDone s = _
  unfold execIdkCommandDone
  rw [if_neg (by simp [hal])]
  split
  next hnone => cases hidk.symm.trans hnone
  next c' inp' hsome =>
    cases hidk.symm.trans hsome
    refine (if_pos rfl).trans ?_
    split
    next heq =>
      cases hsign.symm.trans heq
      rfl

/-- ECDH with a peer point off the curve leaves zeros and the error bit. -/
theorem exec_idkCommandDone_offCurve (hal : s.alive = true) (hidk : s.gait.idk = some (c, inp)) (hc : c ≠ 1)
    (hoff : onCurve (idkX inp) (idkY inp) = false) :
    exec .idkCommandDone s = .next ((s.modGait (fun q => { q with idk := none })).putF Reg.gaitIdkStat 2 0 6) := by
  show execIdkCommandDone s = _
  unfold execIdkCommandDone
  rw [if_neg (by simp [hal])]
  split
  next hnone => cases hidk.symm.trans hnone
  next c' inp' hsome =>
    cases hidk.symm.trans hsome
    exact (if_neg hc).trans (if_pos (fun h => Bool.false_ne_true (hoff.symm.trans h)))

/-- ECDH with a peer point on it leaves the shared coordinate. -/
theorem exec_idkCommandDone_shared {zx zy : Nat} (hal : s.alive = true) (hidk : s.gait.idk = some (c, inp)) (hc : c ≠ 1)
    (hon : onCurve (idkX inp) (idkY inp) = true) (hmul : ecMul Config.idkPrivate (idkX inp, idkY inp) = some (zx, zy)) :
    exec .idkCommandDone s
      = .next (((s.modGait (fun q => { q with idk := none })).idkOut (toBe zx 32)).putF Reg.gaitIdkStat 2 0 2) := by
  show execIdkCommandDone s = _
  unfold execIdkCommandDone
  rw [if_neg (by simp [hal])]
  split
  next hnone => cases hidk.symm.trans hnone
  next c' inp' hsome =>
    cases hidk.symm.trans hsome
    refine (if_neg hc).trans ((if_neg (fun h => h hon)).trans ?_)
    split
    next heq =>
      cases hmul.symm.trans heq
      rfl
    next heq => cases hmul.symm.trans heq

end

end

/-- Settles O45: the slot's code decides between its image's start and the next slot; the service's end is by its command and its input. -/
theorem bootAndIdentity : Obligations.BootAndIdentity := by
  refine fun s hal => ⟨fun b e img hrom hb => ⟨fun hcode => ?_, fun hcode => ?_⟩, fun c inp hidk => ⟨fun hc r z hsign => ?_, fun hc hoff => ?_, fun hc hon zx zy hmul => ?_⟩⟩
  · subst hb
    exact ⟨exec_bootImageCheck_passes hal hrom hcode, rfl, rfl, State.rd_bootStart _ _ _ _⟩
  · subst hb
    have hgait := s.bootRead_gait (s.bootCode e img) img
    refine ⟨_, exec_bootImageCheck_fails hal hrom hcode, ?_, ?_, rfl, ?_⟩
    · rw [State.modGait_fld, State.bootFail, State.fld_putF_self _ (by decide) (by decide)]
      exact Nat.mod_eq_of_lt (lt_trans (s.bootCode_lt e img) (by decide))
    · show (s.bootRead _ img).gait.bootTried + 1 = _
      rw [hgait]
    · show (if !decide ((s.bootRead _ img).gait.bootTried ≠ 0) then Core0.rom else if (s.bootRead _ img).gait.bootSel = 2 then .wfi else .recovery) = _
      rw [hgait]
      by_cases htried : s.gait.bootTried = 0 <;> simp [htried]
  · subst hc
    exact exec_idkCommandDone_sign hal hidk hsign
  · exact exec_idkCommandDone_offCurve hal hidk hc hoff
  · exact exec_idkCommandDone_shared hal hidk hc hon hmul

end Sys2Proof.Machine
end

section
/-! SUPPORT. Halter's transactions (R529, R532, R538, R539, R544): the record and the words of a port, the bytes of a reply, and what a poll makes
of them. With them the statements on a transaction and on PSEQ. -/

namespace Sys2Proof.Machine

open Host

/-! ### Numbers among bytes -/

theorem leAt_take {bs : List Byte} {n o k : Nat} (h : o + k ≤ n) : leAt (bs.take n) o k = leAt bs o k := by
  rw [leAt, leAt, List.drop_take, List.take_take, Nat.min_eq_left (by omega)]

theorem leAt_lt (bs : List Byte) (o k : Nat) : leAt bs o k < 256 ^ k := by
  refine lt_of_lt_of_le (leNat_lt _) (Nat.pow_le_pow_right (by decide) ?_)
  rw [List.length_take]
  exact min_le_left _ _

/-- A number written between other bytes. -/
theorem leAt_between {a tail : List Byte} {o k : Nat} (n : Nat) (h : a.length = o) : leAt (a ++ toLe n k ++ tail) o k = n % 256 ^ k := by
  rw [leAt, List.append_assoc, ← h, List.drop_left, List.take_append_of_le_length (by simp), List.take_of_length_le (by simp), leNat_toLe]

/-! ### The record of a port, and words kept -/

section
variable (s : State)

theorem RegsKept.rd64 {s t : State} {l : List Nat} (h : RegsKept s t l) {o : Nat} (ho : o ∉ l) (ho' : o + 4 ∉ l) : t.rd64 o = s.rd64 o := by
  rw [State.rd64_eq, State.rd64_eq, h o ho, h (o + 4) ho']

theorem State.rd64_lt (o : Nat) : s.rd64 o < 2 ^ 64 := by
  have hlow := s.rd_lt o
  have hhigh := s.rd_lt (o + 4)
  rw [State.rd64_eq]
  omega

/-- Nothing changed but the words and Halter's own state. -/
def HltOnly (s t : State) : Prop := t = { s with regs := t.regs, halter := t.halter }

theorem HltOnly.trans {s t u : State} (h : HltOnly s t) (h' : HltOnly t u) : HltOnly s u := by
  unfold HltOnly at *
  rw [h', h]

theorem State.modHlt_hltOnly (q : Fin 2) (f : HaltPort → HaltPort) : HltOnly s (s.modHlt q f) := rfl

theorem State.regs_hltOnly {s t : State} (h : t = { s with regs := t.regs }) : HltOnly s t := by
  unfold HltOnly
  rw [h]

theorem regsOnly_trans {s t u : State} (h : t = { s with regs := t.regs }) (h' : u = { t with regs := u.regs }) : u = { s with regs := u.regs } := by
  rw [h', h]

/-- HLT_PORT_STAT lies apart from the counters that a transaction raises. -/
theorem hltPortStat_apart (q : Fin 2) {c : Ctr} (hc : c ∈ [Cnt.hltCntSeq q, Cnt.hltCntWake q, Cnt.hltCntStale q, Cnt.evtCntBaseUe]) :
    Reg.hltPortStat q ∉ ctrWords c ∧ Reg.hltPortStat q + 4 ∉ ctrWords c := by
  revert c q
  decide

/-- And so does HLT_CNT_SEQ; neither is a word of the gait's. -/
theorem hltCntSeq_apart : ∀ q : Fin 2, (Cnt.hltCntSeq q).reg ≠ Reg.hltPortStat q ∧ (Cnt.hltCntSeq q).reg ≠ Reg.hltPortStat q + 4
    ∧ (Cnt.hltCntSeq q).reg ∉ ctrWords (Cnt.hltCntWake q) ∧ Reg.hltPortStat q ∉ [Reg.gaitWakeSrc, Reg.gaitStat]
    ∧ Reg.hltPortStat q + 4 ∉ [Reg.gaitWakeSrc, Reg.gaitStat] ∧ (Cnt.hltCntSeq q).reg ∉ [Reg.gaitWakeSrc, Reg.gaitStat] := by decide

theorem State.rd64_portStat_count (q : Fin 2) {c : Ctr} (n : Nat) (hc : c ∈ [Cnt.hltCntSeq q, Cnt.hltCntWake q, Cnt.hltCntStale q, Cnt.evtCntBaseUe]) :
    (s.count c n).rd64 (Reg.hltPortStat q) = s.rd64 (Reg.hltPortStat q) :=
  (s.count_kept c n).rd64 (hltPortStat_apart q hc).1 (hltPortStat_apart q hc).2

/-! ### A poll (R532, R538) -/

/-- A poll that has come whole. -/
def State.pollSeenNow (q : Fin 2) : State := s.modHlt q (fun p => { p with pollSeen := true })

/-- Whether PSEQ shows a gap against the port's reference (R538). -/
def State.pollGap (q : Fin 2) (seq : Nat) : Bool :=
  bitN (s.rd64 (Reg.hltPortStat q)) 32 && (seq + 65536 - bitsN (s.rd64 (Reg.hltPortStat q)) 31 16) % 65536 != 1

/-- What an accepted poll leaves, before a wake that it asks for. -/
def State.pollTaken (q : Fin 2) (seq opt nonce : Nat) : State :=
  (((s.pollSeenNow q).count (Cnt.hltCntSeq q) (b2n (s.pollGap q seq))).put64 (Reg.hltPortStat q)
    (putBits (putBits (putBits (s.rd64 (Reg.hltPortStat q)) 31 16 seq) 32 32 1) 33 33 opt)).modHlt q
    (fun p => { p with gap := s.pollGap q seq, nonce := if opt = 1 then some nonce else none })

section
variable {s : State} {q : Fin 2} {bs : List Byte}

theorem not_pollIgnored (hal : s.alive = true) (hlen : 16 ≤ bs.length) (hlow : s.halter.ports[q].csLow = true)
    (hseen : s.halter.ports[q].pollSeen = false) :
    ¬ (¬ s.alive = true ∨ ¬ s.halter.ports[q].csLow = true ∨ s.halter.ports[q].pollSeen = true ∨ bs.length < 16) := by
  rw [hal, hlow, hseen]
  simp [hlen]

theorem State.pollReceive_badCrc (hal : s.alive = true) (hlen : 16 ≤ bs.length) (hlow : s.halter.ports[q].csLow = true)
    (hseen : s.halter.ports[q].pollSeen = false) (hcrc : crc16 (bs.take 14) ≠ leAt bs 14 2) :
    s.pollReceive q bs = (s.pollSeenNow q).pollDiscard q (Cnt.hltCntPcrc q) := by
  refine (if_neg (not_pollIgnored hal hlen hlow hseen)).trans (if_pos ?_)
  rw [List.take_take, leAt_take (by decide)]
  exact hcrc

theorem State.pollReceive_badFormat (hal : s.alive = true) (hlen : 16 ≤ bs.length) (hlow : s.halter.ports[q].csLow = true)
    (hseen : s.halter.ports[q].pollSeen = false) (hcrc : crc16 (bs.take 14) = leAt bs 14 2)
    (hfmt : ¬ ((leAt bs 0 1 = 0x3C ∨ leAt bs 0 1 = 0x3D) ∧ leAt bs 1 1 ≤ 1 ∧ leAt bs 12 2 = 0 ∧ (leAt bs 1 1 = 0 → leAt bs 4 8 = 0))) :
    s.pollReceive q bs = (s.pollSeenNow q).pollDiscard q (Cnt.hltCntPfmt q) := by
  refine (if_neg (not_pollIgnored hal hlen hlow hseen)).trans ((if_neg ?_).trans (if_pos ?_))
  · rw [List.take_take, leAt_take (by decide)]
    exact not_not.2 hcrc
  · simp only [leAt_take (by decide : 0 + 1 ≤ 16), leAt_take (by decide : 1 + 1 ≤ 16), leAt_take (by decide : 12 + 2 ≤ 16),
      leAt_take (by decide : 4 + 8 ≤ 16)]
    by_contra hgood
    refine hfmt ⟨?_, ?_, ?_, ?_⟩ <;> omega

theorem State.pollReceive_accepted (hal : s.alive = true) (hlen : 16 ≤ bs.length) (hlow : s.halter.ports[q].csLow = true)
    (hseen : s.halter.ports[q].pollSeen = false) (hcrc : crc16 (bs.take 14) = leAt bs 14 2)
    (hcmd : leAt bs 0 1 = 0x3C ∨ leAt bs 0 1 = 0x3D) (hopt : leAt bs 1 1 ≤ 1) (hres : leAt bs 12 2 = 0)
    (hnonce : leAt bs 1 1 = 0 → leAt bs 4 8 = 0) :
    let u := s.pollTaken q (leAt bs 2 2) (leAt bs 1 1) (leAt bs 4 8)
    s.pollReceive q bs = if leAt bs 0 1 = 0x3D then (u.count (Cnt.hltCntWake q)).wakeEvent 0 else u := by
  have hcount (b : Bool) (t : State) : (if b then t.count (Cnt.hltCntSeq q) else t) = t.count (Cnt.hltCntSeq q) (b2n b) := by cases b <;> rfl
  refine (if_neg (not_pollIgnored hal hlen hlow hseen)).trans ((if_neg ?_).trans ((if_neg ?_).trans ?_))
  · rw [List.take_take, leAt_take (by decide)]
    exact not_not.2 hcrc
  · simp only [leAt_take (by decide : 0 + 1 ≤ 16), leAt_take (by decide : 1 + 1 ≤ 16), leAt_take (by decide : 12 + 2 ≤ 16),
      leAt_take (by decide : 4 + 8 ≤ 16)]
    omega
  · simp only [leAt_take (by decide : 0 + 1 ≤ 16), leAt_take (by decide : 1 + 1 ≤ 16), leAt_take (by decide : 2 + 2 ≤ 16),
      leAt_take (by decide : 4 + 8 ≤ 16), hcount]
    rfl

end

/-- The words and the record after a poll has been taken. -/
theorem State.pollTaken_spec (q : Fin 2) {seq opt : Nat} (nonce : Nat) (hseq : seq < 2 ^ 16) :
    let u := s.pollTaken q seq opt nonce
    u.halter.ports[q] = { s.halter.ports[q] with pollSeen := true, gap := s.pollGap q seq, nonce := if opt = 1 then some nonce else none }
      ∧ bitsN (u.rd64 (Reg.hltPortStat q)) 31 16 = seq ∧ bitN (u.rd64 (Reg.hltPortStat q)) 32 = true
      ∧ u.rd (Cnt.hltCntSeq q).reg = min 0xFFFFFFFF (s.rd (Cnt.hltCntSeq q).reg + b2n (s.pollGap q seq))
      ∧ u = { s with regs := u.regs, halter := u.halter } := by
  have hcount : ((s.pollSeenNow q).count (Cnt.hltCntSeq q) (b2n (s.pollGap q seq))).rd (Cnt.hltCntSeq q).reg
      = min 0xFFFFFFFF (s.rd (Cnt.hltCntSeq q).reg + b2n (s.pollGap q seq)) := State.rd_count _ _ _ (by revert q; decide)
  generalize hv : (s.pollSeenNow q).count (Cnt.hltCntSeq q) (b2n (s.pollGap q seq)) = v at hcount
  have hregs : v = { s.pollSeenNow q with regs := v.regs } := by rw [← hv, State.count_eq]
  have hport : v.halter.ports[q] = { s.halter.ports[q] with pollSeen := true } := by
    rw [hregs]
    exact s.modHlt_self q (fun p => { p with pollSeen := true })
  have htaken : s.pollTaken q seq opt nonce = (v.put64 (Reg.hltPortStat q)
      (putBits (putBits (putBits (s.rd64 (Reg.hltPortStat q)) 31 16 seq) 32 32 1) 33 33 opt)).modHlt q
        (fun p => { p with gap := s.pollGap q seq, nonce := if opt = 1 then some nonce else none }) := by rw [← hv]; rfl
  have hlt : putBits (putBits (putBits (s.rd64 (Reg.hltPortStat q)) 31 16 seq) 32 32 1) 33 33 opt < 2 ^ 64 :=
    putBits_lt (by decide) (putBits_lt (by decide) (putBits_lt (by decide) (s.rd64_lt _) (by decide)) (by decide)) (by decide)
  have hword : (s.pollTaken q seq opt nonce).rd64 (Reg.hltPortStat q)
      = putBits (putBits (putBits (s.rd64 (Reg.hltPortStat q)) 31 16 seq) 32 32 1) 33 33 opt := by
    rw [htaken, State.modHlt_rd64, State.rd64_put64, Nat.mod_eq_of_lt hlt]
  dsimp only
  rw [hword]
  refine ⟨?_, ?_, ?_, ?_, ?_⟩
  · rw [htaken, State.modHlt_self, State.put64_halter, hport]
  · rw [bitsN_putBits_ne (by decide) (.inr (by decide)), bitsN_putBits_ne (by decide) (.inr (by decide)), bitsN_putBits_self (by decide)]
    exact Nat.mod_eq_of_lt hseq
  · rw [bitN_putBits (by decide), if_neg (by decide), bitN_putBits (by decide), if_pos (by decide)]
    decide
  · rw [htaken, State.modHlt_rd, State.rd_put64_ne _ _ (hltCntSeq_apart q).1 (hltCntSeq_apart q).2.1, hcount]
  · exact (State.modHlt_hltOnly s q _).trans ((State.regs_hltOnly hregs).trans
      (htaken ▸ (State.regs_hltOnly (v.put64_eq _ _)).trans (State.modHlt_hltOnly _ q _)))

/-- A wake that a poll asks for changes neither the port nor its words. -/
theorem State.pollWake_spec (u : State) (q : Fin 2) :
    let t := (u.count (Cnt.hltCntWake q)).wakeEvent 0
    t.halter = u.halter ∧ t.rd64 (Reg.hltPortStat q) = u.rd64 (Reg.hltPortStat q) ∧ t.rd (Cnt.hltCntSeq q).reg = u.rd (Cnt.hltCntSeq q).reg
      ∧ t.bit Reg.gaitWakeSrc 0 = true := by
  obtain ⟨hkept, heq⟩ := (u.count (Cnt.hltCntWake q)).wakeEvent_wakeOnly 0
  obtain ⟨-, -, hwake, hlow, hhigh, hseq⟩ := hltCntSeq_apart q
  refine ⟨?_, ?_, ?_, (State.wakeEvent_spec _ (by decide)).1⟩
  · rw [heq]
    show (u.count (Cnt.hltCntWake q)).halter = _
    rw [State.count_eq]
  · rw [hkept.rd64 hlow hhigh, State.rd64_portStat_count u q 1 (by simp)]
  · rw [hkept _ hseq, u.count_kept _ _ _ hwake]

/-- An accepted poll: the port's record, its words, and the wake. -/
theorem State.pollReceive_spec {q : Fin 2} {bs : List Byte} (hal : s.alive = true) (hlen : 16 ≤ bs.length) (hlow : s.halter.ports[q].csLow = true)
    (hseen : s.halter.ports[q].pollSeen = false) (hcrc : crc16 (bs.take 14) = leAt bs 14 2)
    (hcmd : leAt bs 0 1 = 0x3C ∨ leAt bs 0 1 = 0x3D) (hopt : leAt bs 1 1 ≤ 1) (hres : leAt bs 12 2 = 0)
    (hnonce : leAt bs 1 1 = 0 → leAt bs 4 8 = 0) :
    let t := s.pollReceive q bs
    t.halter.ports[q] = { s.halter.ports[q] with
        pollSeen := true, gap := s.pollGap q (leAt bs 2 2), nonce := if leAt bs 1 1 = 1 then some (leAt bs 4 8) else none }
      ∧ bitsN (t.rd64 (Reg.hltPortStat q)) 31 16 = leAt bs 2 2 ∧ bitN (t.rd64 (Reg.hltPortStat q)) 32 = true
      ∧ t.rd (Cnt.hltCntSeq q).reg = min 0xFFFFFFFF (s.rd (Cnt.hltCntSeq q).reg + b2n (s.pollGap q (leAt bs 2 2)))
      ∧ (leAt bs 0 1 = 0x3D → t.bit Reg.gaitWakeSrc 0 = true) ∧ (leAt bs 0 1 = 0x3C → t = { s with regs := t.regs, halter := t.halter }) := by
  obtain ⟨hport, hseq, hval, hcount, heq⟩ := s.pollTaken_spec q (opt := leAt bs 1 1) (leAt bs 4 8) (leAt_lt bs 2 2)
  have hreceive := State.pollReceive_accepted hal hlen hlow hseen hcrc hcmd hopt hres hnonce
  dsimp only at hreceive ⊢
  rcases hcmd with hcmd | hcmd
  · rw [if_neg (by omega)] at hreceive
    rw [hreceive]
    exact ⟨hport, hseq, hval, hcount, by omega, fun _ => heq⟩
  · rw [if_pos hcmd] at hreceive
    obtain ⟨hhlt, hstat, hcnt, hwake⟩ := (s.pollTaken q (leAt bs 2 2) (leAt bs 1 1) (leAt bs 4 8)).pollWake_spec q
    rw [hreceive, hhlt, hstat, hcnt]
    exact ⟨hport, hseq, hval, hcount, fun _ => hwake, by omega⟩

/-! ### The start of a transaction (R529, R539) -/

/-- The bytes of a reply: RSEQ stands at byte 2, and byte 0x13 holds the port's own two flags above its three others (Table 16-3). -/
theorem State.hltReplyHead_bytes (q : Fin 2) (mac : Bool) (tail : List Byte) :
    let head := s.hltReplyHead q mac
    head.length = 20 ∧ leAt (head ++ tail) 2 2 = bitsN (s.rd64 (Reg.hltPortStat q)) 15 0
      ∧ bitN (leAt (head ++ tail) 0x13 1) 3 = s.halter.ports[q].gap ∧ bitN (leAt (head ++ tail) 0x13 1) 4 = s.halter.ports[q].bad := by
  rcases hbank : s.hltBank with ⟨f, z, v, age, stale⟩
  have hrseq := bitsN_lt (s.rd64 (Reg.hltPortStat q)) 15 0
  have hflags : ∀ a b c d e : Bool,
      bitN ((b2n a + 2 * b2n b + 4 * b2n c + 8 * b2n d + 16 * b2n e) % 256 ^ 1) 3 = d
        ∧ bitN ((b2n a + 2 * b2n b + 4 * b2n c + 8 * b2n d + 16 * b2n e) % 256 ^ 1) 4 = e := by decide
  unfold State.hltReplyHead
  rw [hbank]
  dsimp only
  refine ⟨by simp, ?_, ?_⟩
  · simp only [List.append_assoc]
    rw [← List.append_assoc (toLe 1 1), ← List.append_assoc (toLe 1 1 ++ _), leAt_between _ (by simp)]
    exact Nat.mod_eq_of_lt hrseq
  · rw [leAt_between _ (by simp)]
    exact hflags _ _ _ _ _

/-- The words of a port once its reply is latched: RSEQ moves on by one. -/
def State.csFallWords (q : Fin 2) (stale : Bool) : State :=
  let st := s.rd64 (Reg.hltPortStat q)
  let s := s.put64 (Reg.hltPortStat q) (putBits (putBits st 15 0 (bitsN st 15 0 + 1)) 33 33 0)
  let s := s.count64 (Reg.hltCntPoll q)
  let s := if stale then s.count (Cnt.hltCntStale q) else s
  if s.halter.bankBad then s.count Cnt.evtCntBaseUe else s

theorem hltCntPoll_apart : ∀ q : Fin 2, Reg.hltPortStat q ∉ [Reg.hltCntPoll q, Reg.hltCntPoll q + 4]
    ∧ Reg.hltPortStat q + 4 ∉ [Reg.hltCntPoll q, Reg.hltCntPoll q + 4] := by decide

theorem State.csFallWords_spec (q : Fin 2) (stale : Bool) :
    let u := s.csFallWords q stale
    bitsN (u.rd64 (Reg.hltPortStat q)) 15 0 = (bitsN (s.rd64 (Reg.hltPortStat q)) 15 0 + 1) % 2 ^ 16 ∧ u = { s with regs := u.regs } := by
  have hcount (t : State) (b : Bool) {c : Ctr} (hc : c ∈ [Cnt.hltCntSeq q, Cnt.hltCntWake q, Cnt.hltCntStale q, Cnt.evtCntBaseUe]) :
      (if b then t.count c else t).rd64 (Reg.hltPortStat q) = t.rd64 (Reg.hltPortStat q)
        ∧ (if b then t.count c else t) = { t with regs := (if b then t.count c else t).regs } := by
    cases b
    · exact ⟨rfl, rfl⟩
    · exact ⟨t.rd64_portStat_count q 1 hc, t.count_eq c 1⟩
  unfold State.csFallWords
  dsimp only
  generalize hput : s.put64 _ _ = p
  have hlt : putBits (putBits (s.rd64 (Reg.hltPortStat q)) 15 0 (bitsN (s.rd64 (Reg.hltPortStat q)) 15 0 + 1)) 33 33 0 < 2 ^ 64 :=
    putBits_lt (by decide) (putBits_lt (by decide) (s.rd64_lt _) (by decide)) (by decide)
  have hp : bitsN (p.rd64 (Reg.hltPortStat q)) 15 0 = (bitsN (s.rd64 (Reg.hltPortStat q)) 15 0 + 1) % 2 ^ 16 := by
    rw [← hput, State.rd64_put64, Nat.mod_eq_of_lt hlt, bitsN_putBits_ne (by decide) (.inr (by decide)), bitsN_putBits_self (by decide)]
  have hpeq : p = { s with regs := p.regs } := by rw [← hput]; exact s.put64_eq _ _
  obtain ⟨hn, hneq⟩ : (p.count64 (Reg.hltCntPoll q)).rd64 (Reg.hltPortStat q) = p.rd64 (Reg.hltPortStat q)
      ∧ p.count64 (Reg.hltCntPoll q) = { p with regs := (p.count64 (Reg.hltCntPoll q)).regs } :=
    ⟨(p.count64_kept _ 1).rd64 (hltCntPoll_apart q).1 (hltCntPoll_apart q).2, p.count64_eq _ 1⟩
  generalize p.count64 (Reg.hltCntPoll q) = n at hn hneq ⊢
  obtain ⟨hv, hveq⟩ := hcount n stale (c := Cnt.hltCntStale q) (by simp)
  generalize (if stale = true then n.count (Cnt.hltCntStale q) else n) = v at hv hveq ⊢
  obtain ⟨hw, hweq⟩ := hcount v v.halter.bankBad (c := Cnt.evtCntBaseUe) (by simp)
  generalize (if v.halter.bankBad = true then v.count Cnt.evtCntBaseUe else v) = w at hw hweq ⊢
  exact ⟨by rw [hw, hv, hn, hp], regsOnly_trans hpeq (regsOnly_trans hneq (regsOnly_trans hveq hweq))⟩

/-- The nonce that a reply answers with its MAC, and the key it does so under (R544). -/
def State.macDueOf (q : Fin 2) : Option (Nat × Nat) :=
  match s.halter.ports[q].nonce, s.halter.key with
  | some n, some k => some (n, k)
  | _, _ => none

/-- The reply latched, and all that goes with it (R529, R539, R544). -/
def State.csFall (q : Fin 2) : State :=
  (s.csFallWords q (bitN (leAt (s.hltReplyHead q (s.macDueOf q).isSome) 0x13 1) 0)).modHlt q (fun p => { p with
    csLow := true, reply := hltSeal (s.hltReplyHead q (s.macDueOf q).isSome) (List.replicate 8 0), macDue := s.macDueOf q
    pollSeen := false, nonce := none, gap := false, bad := false, sent := [] })

theorem exec_halterCsFall {b : Bool} (hon : s.hltOn (hltIdx b) = true) (hlow : s.halter.ports[hltIdx b].csLow = false) :
    exec (.halterCsFall b) s = .next (s.csFall (hltIdx b)) := by
  refine (if_neg ?_).trans rfl
  rw [hon, hlow]
  decide

theorem State.csFall_frame (q : Fin 2) :
    HltOnly s (s.csFall q) ∧ ∀ o : Fin 2, o ≠ q → (s.csFall q).halter.ports[o] = s.halter.ports[o] := by
  have hregs := (s.csFallWords_spec q (bitN (leAt (s.hltReplyHead q (s.macDueOf q).isSome) 0x13 1) 0)).2
  refine ⟨(State.regs_hltOnly hregs).trans (State.modHlt_hltOnly _ q _), fun o ho => ?_⟩
  rw [State.csFall, State.modHlt_ne _ _ ho, hregs]

theorem State.csFall_rseq (q : Fin 2) :
    bitsN ((s.csFall q).rd64 (Reg.hltPortStat q)) 15 0 = (bitsN (s.rd64 (Reg.hltPortStat q)) 15 0 + 1) % 2 ^ 16 := by
  rw [State.csFall, State.modHlt_rd64]
  exact (s.csFallWords_spec q _).1

theorem State.reply_bytes (q : Fin 2) (mac : Bool) :
    let reply := hltSeal (s.hltReplyHead q mac) (List.replicate 8 0)
    reply.length = 32 ∧ leAt reply 2 2 = bitsN (s.rd64 (Reg.hltPortStat q)) 15 0
      ∧ bitN (leAt reply 0x13 1) 3 = s.halter.ports[q].gap ∧ bitN (leAt reply 0x13 1) 4 = s.halter.ports[q].bad := by
  obtain ⟨hlen, -⟩ := s.hltReplyHead_bytes q mac []
  unfold hltSeal
  dsimp only
  rw [List.append_assoc]
  exact ⟨by simp [hlen], (s.hltReplyHead_bytes q mac _).2⟩

/-- The counters of a discarded poll lie apart from their overflow word. -/
theorem hltCtr_apart : ∀ q : Fin 2, (Cnt.hltCntPcrc q).reg ≠ (Cnt.hltCntPcrc q).ovf + 4 * ((Cnt.hltCntPcrc q).bit / 32)
    ∧ (Cnt.hltCntPfmt q).reg ≠ (Cnt.hltCntPfmt q).ovf + 4 * ((Cnt.hltCntPfmt q).bit / 32) := by decide

/-- A poll discarded is counted, and the port marked (R532). -/
theorem State.pollDiscard_spec (q : Fin 2) {c : Ctr} (hc : c.reg ≠ c.ovf + 4 * (c.bit / 32)) :
    let t := (s.pollSeenNow q).pollDiscard q c
    t.halter.ports[q] = { s.halter.ports[q] with pollSeen := true, bad := true }
      ∧ t.rd c.reg = min 0xFFFFFFFF (s.rd c.reg + 1) ∧ RegsKept s t (ctrWords c) ∧ HltOnly s t := by
  have hregs := (s.pollSeenNow q).count_eq c 1
  refine ⟨?_, ?_, ?_, ?_⟩
  · rw [State.pollDiscard, State.modHlt_self, hregs]
    show { (s.pollSeenNow q).halter.ports[q] with bad := true } = _
    rw [State.pollSeenNow, State.modHlt_self]
  · rw [State.pollDiscard, State.modHlt_rd]
    exact State.rd_count _ c 1 hc
  · exact fun o ho => (s.pollSeenNow q).count_kept c 1 o ho
  · exact (State.modHlt_hltOnly s q _).trans ((State.regs_hltOnly hregs).trans (State.modHlt_hltOnly _ q _))

/-- What the end of a transaction counts (R532). -/
def State.csRiseCounts (q : Fin 2) (bits : Nat) : State :=
  if s.halter.ports[q].pollSeen then (if bits < 384 then s.count (Cnt.hltCntTrunc q) else s) else s.pollDiscard q (Cnt.hltCntShort q)

theorem State.csRiseCounts_frame (q : Fin 2) (bits : Nat) :
    HltOnly s (s.csRiseCounts q bits) ∧ ∀ o : Fin 2, o ≠ q → (s.csRiseCounts q bits).halter.ports[o] = s.halter.ports[o] := by
  unfold State.csRiseCounts
  split
  · split
    · exact ⟨State.regs_hltOnly (s.count_eq _ 1), fun o _ => by rw [State.count_eq]⟩
    · exact ⟨rfl, fun o _ => rfl⟩
  · refine ⟨(State.regs_hltOnly (s.count_eq _ 1)).trans (State.modHlt_hltOnly _ q _), fun o ho => ?_⟩
    rw [State.pollDiscard, State.modHlt_ne _ _ ho, State.count_eq]

/-! ### Power-on reset -/

/-- A word after power-on reset is at its reset value, but SCI_HITCH_STAT. -/
theorem exec_powerOnReset_words : ∃ t, exec .powerOnReset s = .next t ∧ ∀ o, o ≠ Reg.sciHitchStat → t.rd o = (regReset o).toNat := by
  refine ⟨_, rfl, fun o ho => ?_⟩
  exact congrArg BitVec.toNat (spGet_set_ne (d := regReset) [] _ ho)

/-- No reference is held there for PSEQ. -/
theorem hltPortStat_reset : ∀ q : Fin 2, Reg.hltPortStat q ≠ Reg.sciHitchStat ∧ Reg.hltPortStat q + 4 ≠ Reg.sciHitchStat
    ∧ bitN ((regReset (Reg.hltPortStat q)).toNat + 2 ^ 32 * (regReset (Reg.hltPortStat q + 4)).toNat) 32 = false := by decide

end

/-- Settles O39: CS_N low and CS_N high are one change of the port's record each; the checks of a poll are made in turn. -/
theorem halterTransaction : Obligations.HalterTransaction := by
  refine ⟨fun s b => ⟨fun hon hlow => ?_, fun h => ?_, fun hal => ?_, fun n hal hlow => ?_⟩, fun s b bs hal hlen hlow hseen i hi => ?polls⟩
  · obtain ⟨hframe, hother⟩ := s.csFall_frame (hltIdx b)
    obtain ⟨hlen, hseq, hgap, hbad⟩ := s.reply_bytes (hltIdx b) (s.macDueOf (hltIdx b)).isSome
    have hrseq := s.csFall_rseq (hltIdx b)
    have hport : (s.csFall (hltIdx b)).halter.ports[hltIdx b] = _ := State.modHlt_self _ (hltIdx b) _
    refine ⟨_, exec_halterCsFall s hon hlow, ?_⟩
    rw [hport]
    exact ⟨rfl, rfl, rfl, hlen, hrseq, hseq, hgap, hbad, rfl, rfl, rfl, hother, hframe⟩
  · refine if_pos (h.imp (fun hoff => ?_) id)
    rw [hoff]
    decide
  · exact if_neg (by simp [hal])
  · have hexec : exec (.halterCsRise b n) s = .next ((s.csRiseCounts (hltIdx b) n).modHlt (hltIdx b) (fun p => { p with
        csLow := false, pollSeen := false, macDue := none
        sent := ([0x5A, 0xA5] ++ s.halter.ports[hltIdx b].withMac.reply ++ List.replicate (n / 8) 0).take (n / 8) })) := by
      refine (if_neg ?_).trans rfl
      rw [hal, hlow]
      decide
    obtain ⟨hframe, hother⟩ := s.csRiseCounts_frame (hltIdx b) n
    refine ⟨_, hexec, ?_, ?_, fun o ho => ?_, hframe.trans (State.modHlt_hltOnly _ (hltIdx b) _)⟩
    · rw [State.modHlt_self]
    · rw [State.modHlt_self]
    · rw [State.modHlt_ne _ _ ho, hother o ho]
  case polls =>
    have hexec : exec i s = .next (s.pollReceive (hltIdx b) bs) := by
      simp only [List.mem_cons, List.not_mem_nil, or_false] at hi
      rcases hi with rfl | rfl <;> rfl
    refine ⟨fun hcrc => ?_, fun hcrc hfmt => ?_, fun hcrc ⟨hcmd, hopt, hres, hnonce⟩ => ?_⟩
    · rw [hexec, State.pollReceive_badCrc hal hlen hlow hseen hcrc]
      exact ⟨_, rfl, s.pollDiscard_spec (hltIdx b) (hltCtr_apart _).1⟩
    · rw [hexec, State.pollReceive_badFormat hal hlen hlow hseen hcrc hfmt]
      exact ⟨_, rfl, s.pollDiscard_spec (hltIdx b) (hltCtr_apart _).2⟩
    · obtain ⟨hport, -, -, -, hwake, hframe⟩ := s.pollReceive_spec hal hlen hlow hseen hcrc hcmd hopt hres hnonce
      refine ⟨_, hexec, ?_⟩
      rw [hport]
      exact ⟨rfl, hlow, rfl, hwake, hframe⟩

/-- Settles O40: the poll is taken against the port's reference, which it then becomes; the reply that follows shows the gap. -/
theorem pollSequence : Obligations.PollSequence := by
  refine ⟨fun s b bs hal hlen hlow hseen hcrc hcmd hopt hres hnonce i hi => ?_, fun s b hon hlow => ?_, fun s => ?_⟩
  · have hexec : exec i s = .next (s.pollReceive (hltIdx b) bs) := by
      simp only [List.mem_cons, List.not_mem_nil, or_false] at hi
      rcases hi with rfl | rfl <;> rfl
    obtain ⟨hport, hseq, hval, hcount, hwake, -⟩ := s.pollReceive_spec hal hlen hlow hseen hcrc hcmd hopt hres hnonce
    refine ⟨_, hexec, ?_, hseq, hval, hcount, ?_, hwake⟩
    · rw [hport]
      rfl
    · rw [hport]
  · refine ⟨_, exec_halterCsFall s hon hlow, ?_⟩
    rw [State.csFall, State.modHlt_self]
    obtain ⟨-, -, hgap, -⟩ := s.reply_bytes (hltIdx b) (s.macDueOf (hltIdx b)).isSome
    exact hgap
  · obtain ⟨t, hexec, hrd⟩ := exec_powerOnReset_words s
    refine ⟨t, hexec, fun q => ?_⟩
    obtain ⟨hlow, hhigh, hval⟩ := hltPortStat_reset q
    rw [State.rd64_eq, hrd _ hlow, hrd _ hhigh]
    exact hval

end Sys2Proof.Machine
end

section
/-! SUPPORT. Uncorrectable words (R585, Table 18-1) and errors of the wire bond (R474 to R476, R485): what a class of SRAM makes of one, the flit
and the timeout, the ports that a window or a field test takes out. With them the statement on hardware errors. -/

namespace Sys2Proof.Machine

open Host

/-! ### SRAM_UNCORRECTABLE_ERROR (Table 18-1) -/

section
variable {s : State}

theorem State.epochOfParity_count (s : State) (c : Ctr) (n p : Nat) : (s.count c n).epochOfParity p = s.epochOfParity p := by
  rw [State.count_eq]
  rfl

/-- A word lost in a buffer of the base die counts, and degrades the frame of its parity. -/
theorem exec_sramUncorrectableError_buffer {p : Bool} {e : Epoch} (hal : s.alive = true) (he : s.epochOfParity (b2n p) = some e) :
    exec (.sramUncorrectableError (.baseBuffer (some p))) s = .next ((s.count Cnt.evtCntBaseUe).degrade e.frame) := by
  have he' : (s.count Cnt.evtCntBaseUe).epochOfParity (b2n p) = some e := (s.epochOfParity_count _ _ _).trans he
  refine (if_neg (by simp [hal])).trans ?_
  rw [he']

/-- A word of the log is bad from then on. -/
theorem exec_sramUncorrectableError_log (k : Fin 4096) (hal : s.alive = true) :
    ∃ t, exec (.sramUncorrectableError (.eventLog k)) s = .next t ∧ k.val ∈ t.log.bad ∧ t = { s with log := t.log } := by
  refine ⟨_, if_neg (by simp [hal]), ?_, rfl⟩
  show k.val ∈ (if k.val ∈ s.log.bad then s.log.bad else k.val :: s.log.bad)
  split
  case isTrue h => exact h
  case isFalse => exact List.mem_cons_self

/-- And so is a unit of memory. -/
theorem exec_sramUncorrectableError_memory {a : Nat} (hal : s.alive = true) (hmem : s.isMem a = true)
    (hecc : a < 0x8000000 ∨ s.install.inlineEcc = true) :
    ∃ t, exec (.sramUncorrectableError (.memory a)) s = .next t ∧ (∃ b, (eccUnit a, b) ∈ t.mem.bad) ∧ t = { s with mem := t.mem }
      ∧ t.mem.cells = s.mem.cells := by
  have hcovered : (decide (a < 0x8000000) || s.install.inlineEcc) = true := by simpa using hecc
  by_cases hbad : s.mem.bad.any (fun w => w.1 == eccUnit a) = true
  · refine ⟨s, (if_neg (by simp [hal])).trans (if_neg ?_), ?_, rfl, rfl⟩
    · rw [hmem, hbad]
      simp
    · obtain ⟨w, hw, heq⟩ := List.any_eq_true.1 hbad
      exact ⟨w.2, (beq_iff_eq.1 heq) ▸ hw⟩
  · refine ⟨_, (if_neg (by simp [hal])).trans (if_pos ?_), ⟨false, List.mem_cons_self⟩, rfl, rfl⟩
    rw [hmem, hcovered, Bool.not_eq_true _ |>.mp hbad]
    rfl

/-! ### Ports that leave service (R476, R485) -/

/-- The status word of a logical port, counted over both dies. -/
def pstatWord (i : Nat) : Nat := Reg.tileBondPstat (i / 8) (i % 8)

theorem pstatWord_inj {i j : Nat} : pstatWord i = pstatWord j ↔ i = j := by
  unfold pstatWord Reg.tileBondPstat
  omega

/-- A port marked to leave, for the reason whose bit is `k`. -/
structure PortOut (k i : Nat) (s t : State) : Prop where
  marked : t.bit (pstatWord i) k = true
  others : ∀ j, j ≠ i → t.bit (pstatWord j) k = s.bit (pstatWord j) k
  stack : t.stack = { s.stack with leaving := s.stack.leaving ++ [(i / 8, i % 8)] }
  frame : StackOnly s t

/-- A run over ports, each of which leaves. -/
theorem foldl_portOut {α : Type} {k : Nat} (f : State → α → State) (idx : α → Nat) (h : ∀ s x, PortOut k (idx x) s (f s x)) (l : List α)
    (s : State) :
    (∀ i, (l.foldl f s).bit (pstatWord i) k = (decide (i ∈ l.map idx) || s.bit (pstatWord i) k))
      ∧ (l.foldl f s).stack = { s.stack with leaving := s.stack.leaving ++ l.map (fun x => (idx x / 8, idx x % 8)) }
      ∧ StackOnly s (l.foldl f s) := by
  induction l generalizing s with
  | nil => exact ⟨fun i => by simp, by simp, rfl⟩
  | cons x l ih =>
    obtain ⟨hmarked, hothers, hstack, hframe⟩ := h s x
    obtain ⟨hbit, hleaving, hrest⟩ := ih (f s x)
    rw [List.foldl_cons]
    refine ⟨fun i => ?_, ?_, hframe.trans hrest⟩
    · rw [hbit]
      by_cases hi : i = idx x
      · rw [hi, hmarked]
        simp
      · rw [hothers i hi]
        simp [hi]
    · rw [hleaving, hstack]
      simp

/-- The port's word set, its log entry, and its name on the list. -/
def State.leavePort (s : State) (i reason : Nat) : State :=
  { s.portGone (i / 8) (i % 8) reason with
    stack := { (s.portGone (i / 8) (i % 8) reason).stack with leaving := (s.portGone (i / 8) (i % 8) reason).stack.leaving ++ [(i / 8, i % 8)] } }

theorem State.leavePort_portOut {s w : State} {k i : Nat} (reason : Nat) (hbit : w.bit (pstatWord i) k = true) (hkept : RegsKept s w [pstatWord i])
    (heq : w = { s with regs := w.regs }) : PortOut k i s (w.leavePort i reason) := by
  unfold State.leavePort
  generalize hu : w.portGone (i / 8) (i % 8) reason = u
  have hlog : LogOnly w u := hu ▸ State.logEvent_logOnly _ _ _ _ _
  have hword (j : Nat) : u.rd (pstatWord j) = w.rd (pstatWord j) := hlog.1 _ (by unfold pstatWord Reg.tileBondPstat; omega)
  have hstack : u.stack = s.stack := by rw [hlog.2, heq]
  have hframe : StackOnly s u := by
    refine StackOnly.trans (t := w) ?_ hlog.stackOnly
    unfold StackOnly
    rw [heq]
  refine ⟨?_, fun j hj => ?_, ?_, hframe.of_eq _ _ _⟩
  · exact (congrArg (bitN · k) (hword i)).trans hbit
  · exact congrArg (bitN · k) ((hword j).trans (hkept _ (by simpa [pstatWord_inj] using hj)))
  · rw [hstack]

/-! ### A flit and its timeout (R474, R475) -/

section
variable {d : DieId} {p : Fin 8} {t : TileId} {de ce : Bool} {tag : Option (BitVec 8)}

/-- Under a rein-back the error is counted, and no more (R486). -/
theorem exec_bondFlitReceive_reined (hal : s.alive = true) (hdie : s.bit (Reg.tileDieStat d) 0 = true)
    (hport : s.bit (Reg.tileBondPstat d p) 0 = true) (herr : de = true ∨ ce = true) (ht : t.val / 16 = d.val)
    (hrein : (s.flitError d p t).tagReined (tag.map (·.toNat)) = true) :
    exec (.bondFlitReceive d p t de ce tag) s = .next (s.flitError d p t) := by
  have hany : (de || ce) = true := by simpa using herr
  refine (if_neg (by simp [hal])).trans ((if_neg ?_).trans (if_pos hrein))
  exact not_or_intro (not_not_intro hdie) (not_or_intro (not_not_intro hport) (not_or_intro (by simp [hany]) (not_not_intro ht)))

/-- The oldest lost access of a die, of whatever kind, is the one a timeout ends. -/
theorem exec_bondTimeout {h : BondHit} {at0 : Nat} (hal : s.alive = true) (ht : t.val / 16 = d.val)
    (hlost : s.tiles[t].lostAccess (tag.map (·.toNat)) = some (h, at0))
    (hbefore : ∀ x : TileId, x < t → x.val / 16 = d.val → s.tiles[x].lostAccess (tag.map (·.toNat)) = none) :
    let s1 := (s.at_ (at0 + 2000)).count (Cnt.tileBondCntTmo d)
    (∀ q, h = .gather q → q.drop = true → exec (.bondTimeout d tag) s = .next (s1.dropReq t q))
      ∧ ((∀ q, h = .gather q → q.drop = false) → exec (.bondTimeout d tag) s = .next ((s1.degradeTag (tag.map (·.toNat))).bondPoison t h)) := by
  have hfind : (dieTileIds d).findSome? (fun t => (s.tiles[t].lostAccess (tag.map (·.toNat))).map (fun x => (t, x.1, x.2))) = some (t, h, at0) :=
    findSome_dieTileIds ht (by rw [hlost]; rfl) fun x hx hd => by rw [hbefore x hx hd]; rfl
  refine ⟨fun q hq hdrop => ?_, fun hkept => ?_⟩
  · subst hq
    refine (if_neg (by simp [hal])).trans ?_
    dsimp only
    rw [hfind]
    exact if_pos hdrop
  · refine (if_neg (by simp [hal])).trans ?_
    dsimp only
    rw [hfind]
    cases h with
    | gather q => exact if_neg (by simp [hkept q rfl])
    | load q | store e | scat e => rfl

end

/-! ### The window (R476) -/

/-- The threshold of the window's tests. -/
def State.winThr (s : State) : Nat := max 1 (s.fld Reg.tileBondCfg 7 0)

/-- A port in service with errors enough, on three tiles. -/
def State.winPort (s : State) (i : Nat) : Bool :=
  s.bit (pstatWord i) 0 && decide (s.winThr ≤ (s.portErrs (i / 8) (i % 8)).length ∧ 3 ≤ (s.portErrs (i / 8) (i % 8)).eraseDups.length)

def State.winPorts (s : State) : List Nat := (List.range 16).filter s.winPort

/-- The errors counted against a tile. -/
def State.tileErrs (s : State) (t : TileId) : Nat :=
  ((s.stack.winErrs.filter (fun e => !(s.winPorts.contains (8 * e.1 + e.2.1)))).filter (fun e => e.2.2 == t.val)).length

/-- The tiles with too many. -/
def State.winTiles (s : State) : List TileId := (List.finRange 32).filter (fun t => decide (s.winThr ≤ s.tileErrs t))

/-- A window ended: no error is counted. -/
def State.nextWindow (s : State) : State := { s with stack := { s.stack with winErrs := [], windows := s.stack.windows + 1 } }

theorem exec_bondErrorWindow (hal : s.alive = true) :
    exec .bondErrorWindow s = .next (s.winTiles.foldl (fun (s : State) (t : TileId) => s.failTile t 2)
      (s.winPorts.foldl (fun (s : State) i => (s.putB (pstatWord i) 3 true).leavePort i 1)
        (s.at_ ((s.stack.windows + 1) * 1000000000))).nextWindow) :=
  (if_neg (by simp [hal])).trans rfl

theorem State.contains_winPorts (s : State) (i : Nat) : s.winPorts.contains i = (decide (i < 16) && s.winPort i) := by
  rw [Bool.eq_iff_iff]
  simp [State.winPorts]

theorem State.tileErrs_eq (s : State) (t : TileId) :
    s.tileErrs t = (s.stack.winErrs.filter (fun e => !(decide (8 * e.1 + e.2.1 < 16) && s.winPort (8 * e.1 + e.2.1)) && e.2.2 == t.val)).length := by
  unfold State.tileErrs
  rw [List.filter_filter]
  simp only [State.contains_winPorts, Bool.and_comm]

/-- No tile has too many errors: the ports that have are to leave, and nothing else happens. -/
theorem exec_bondErrorWindow_ports (hal : s.alive = true) (hnone : ∀ t, s.tileErrs t < s.winThr) :
    ∃ t, exec .bondErrorWindow s = .next t
      ∧ t = { s with time := max s.time ((s.stack.windows + 1) * 1000000000), regs := t.regs, stack := t.stack, log := t.log }
      ∧ t.stack.winErrs = [] ∧ t.stack.windows = s.stack.windows + 1
      ∧ ∀ i < 16, (s.winPort i = true → t.bit (pstatWord i) 3 = true ∧ (i / 8, i % 8) ∈ t.stack.leaving)
        ∧ (s.winPort i = false → t.bit (pstatWord i) 3 = s.bit (pstatWord i) 3) := by
  have htiles : s.winTiles = [] := by
    rw [State.winTiles, List.filter_eq_nil_iff]
    intro t _
    simpa using hnone t
  have hstep (u : State) (i : Nat) : PortOut 3 i u ((u.putB (pstatWord i) 3 true).leavePort i 1) :=
    State.leavePort_portOut 1 ((State.bit_putB u true (by decide) 3).trans (if_pos rfl)) (u.putB_kept _ 3 true) rfl
  have hexec := exec_bondErrorWindow hal
  rw [htiles, List.foldl_nil] at hexec
  obtain ⟨hbit, hstack, hframe⟩ := foldl_portOut _ id hstep s.winPorts (s.at_ ((s.stack.windows + 1) * 1000000000))
  generalize List.foldl _ (s.at_ _) s.winPorts = u at hexec hbit hstack hframe
  have hmem {i : Nat} (hi : i < 16) : decide (i ∈ s.winPorts.map id) = s.winPort i := by
    rw [List.map_id, ← List.contains_eq_mem, s.contains_winPorts, decide_eq_true hi, Bool.true_and]
  refine ⟨u.nextWindow, hexec, ?_, rfl, ?_, fun i hi => ⟨fun hbad => ⟨?_, ?_⟩, fun hgood => ?_⟩⟩
  · unfold StackOnly at hframe
    unfold State.nextWindow
    rw [hframe]
    rfl
  · show u.stack.windows + 1 = _
    rw [hstack]
    rfl
  · exact (hbit i).trans (by rw [hmem hi, hbad, Bool.true_or])
  · show (i / 8, i % 8) ∈ u.stack.leaving
    have hin : i ∈ s.winPorts := by simpa [State.winPorts] using ⟨hi, hbad⟩
    rw [hstack]
    exact List.mem_append_right _ (List.mem_map_of_mem hin)
  · exact (hbit i).trans (by rw [hmem hi, hgood, Bool.false_or]; rfl)

/-- No port has, and one tile has: it fails. -/
theorem exec_bondErrorWindow_tile {t : TileId} (hal : s.alive = true) (hports : ∀ i < 16, s.winPort i = false) (ht : s.winThr ≤ s.tileErrs t)
    (hothers : ∀ x, x ≠ t → s.tileErrs x < s.winThr) :
    exec .bondErrorWindow s = .next ((s.at_ ((s.stack.windows + 1) * 1000000000)).nextWindow.failTile t 2) := by
  have hnone : s.winPorts = [] := by
    rw [State.winPorts, List.filter_eq_nil_iff]
    intro i hi
    simp [hports i (List.mem_range.1 hi)]
  have hone : s.winTiles = [t] := by
    have htest : (fun x => decide (s.winThr ≤ s.tileErrs x)) = (fun x => x == t) := by
      funext x
      by_cases hx : x = t
      · subst hx
        rw [decide_eq_true ht, beq_self_eq_true]
      · rw [decide_eq_false (not_le.2 (hothers x hx)), beq_false_of_ne hx]
    rw [State.winTiles, htest, List.filter_beq, List.count_eq_one_of_mem (List.nodup_finRange 32) (List.mem_finRange t)]
    rfl
  rw [exec_bondErrorWindow hal, hnone, hone]
  rfl

/-! ### The field wire test (R485) -/

/-- The ports that the test fails. -/
def State.testPorts (s : State) (fail : Nat) : List Nat :=
  (List.range 16).filter (fun i => bitN fail i && bitN s.stack.testing (i / 8) && s.bit (pstatWord i) 0)

/-- A failing port marked, with its first failing wire group. -/
def State.testFails (s : State) (groups : List (BitVec 7)) (x : Nat × Nat) : State :=
  ((s.putB (pstatWord x.1) 2 true).putF (pstatWord x.1) 10 4 (match groups[x.2]? with | some g => g.toNat | none => 0)).leavePort x.1 2

theorem State.testFails_portOut (s : State) (groups : List (BitVec 7)) (x : Nat × Nat) : PortOut 2 x.1 s (s.testFails groups x) := by
  unfold State.testFails
  refine State.leavePort_portOut 2 ?_ ((s.putB_kept _ 2 true).trans (State.putF_kept _ _ _ _ _)) rfl
  rw [State.bit_putF _ (by decide) (by decide), if_neg (by decide), State.bit_putB _ _ (by decide), if_pos rfl]

/-- A test that ends marks the ports it failed to leave. -/
theorem exec_bondTestDone_ports (fail : BitVec 16) (groups : List (BitVec 7)) (hal : s.alive = true) (htest : s.stack.testing ≠ 0) :
    ∃ t, exec (.bondTestDone fail groups) s = .next t ∧ t.stack.testing = 0 ∧ t.bit Reg.tileBondTest 2 = false ∧ t.bit Reg.tileBondTest 3 = true
      ∧ t = { s with regs := t.regs, stack := t.stack, log := t.log }
      ∧ ∀ i ∈ s.testPorts fail.toNat, t.bit (pstatWord i) 2 = true ∧ (i / 8, i % 8) ∈ t.stack.leaving := by
  have hexec : exec (.bondTestDone fail groups) s = .next _ := (if_neg (by simp [hal])).trans (if_neg htest)
  obtain ⟨hbit, hstack, hframe⟩ := foldl_portOut (fun s x => s.testFails groups x) Prod.fst (fun s x => s.testFails_portOut groups x)
    (s.testPorts fail.toNat).zipIdx s
  have hfold : exec (.bondTestDone fail groups) s = .next (((State.putB
      { (s.testPorts fail.toNat).zipIdx.foldl (fun s x => s.testFails groups x) s with
        stack := { ((s.testPorts fail.toNat).zipIdx.foldl (fun s x => s.testFails groups x) s).stack with testing := 0 } }
      Reg.tileBondTest 2 false)).putB Reg.tileBondTest 3 true) := hexec
  clear hexec
  generalize List.foldl _ s _ = u at hfold hbit hstack hframe
  have hmap : (s.testPorts fail.toNat).zipIdx.map Prod.fst = s.testPorts fail.toNat := List.zipIdx_map_fst ..
  have hpstat (i : Nat) : pstatWord i ≠ Reg.tileBondTest := by unfold pstatWord Reg.tileBondPstat Reg.tileBondTest; omega
  refine ⟨_, hfold, rfl, ?_, ?_, ?_, fun i hi => ⟨?_, ?_⟩⟩
  · rw [State.bit_putB _ _ (by decide), if_neg (by decide), State.bit_putB _ _ (by decide), if_pos rfl]
  · rw [State.bit_putB _ _ (by decide), if_pos rfl]
  · exact hframe.of_eq _ _ _
  · rw [State.bit_putB_ne _ _ _ _ (hpstat i), State.bit_putB_ne _ _ _ _ (hpstat i)]
    exact (hbit i).trans (by rw [hmap, decide_eq_true hi, Bool.true_or])
  · show (i / 8, i % 8) ∈ u.stack.leaving
    have hin : i ∈ (s.testPorts fail.toNat).zipIdx.map Prod.fst := hmap.symm ▸ hi
    obtain ⟨x, hx, rfl⟩ := List.mem_map.1 hin
    rw [hstack]
    exact List.mem_append_right _ (List.mem_map_of_mem hx)

end

/-- Settles O52: each class of SRAM has its own arm; a flit, a timeout, a window and a test act on the accesses, ports and tiles they find. -/
theorem hardwareErrors : Obligations.HardwareErrors := by
  refine ⟨fun s hal => ⟨fun t => ⟨?_, s.failTile_down t 0⟩, fun p l k => ?_, ?_, fun p e he => exec_sramUncorrectableError_buffer hal he, ?_,
    fun k => exec_sramUncorrectableError_log k hal, fun a => exec_sramUncorrectableError_memory hal⟩,
    fun s hal => ⟨fun d p t de ce g hdie hport herr ht => ?flit, fun d g t h at0 ht hlost hbefore => ?timeout, ?window, fun fail gs htest _ => ?test⟩⟩
  · exact if_neg (by simp [hal])
  · exact if_neg (by simp [hal])
  · exact if_neg (by simp [hal])
  · exact if_neg (by simp [hal])
  case flit =>
    have hreceive := exec_bondFlitReceive (tag := g) hal hdie hport herr ht
    refine ⟨fun hnone => ?_, fun h hrein hfind => ?_⟩
    · cases hrein : (s.flitError d p t).tagReined (g.map (·.toNat)) with
      | true => exact exec_bondFlitReceive_reined hal hdie hport herr ht hrein
      | false =>
        have hfind : (s.flitError d p t).bondFind t p (g.map (·.toNat)) = none := hnone.resolve_left (fun h => Bool.false_ne_true (hrein.symm.trans h))
        rw [hreceive hrein, hfind]
        rfl
    · rw [hreceive hrein, show (s.flitError d p t).bondFind t p (g.map (·.toNat)) = some h from hfind]
      rfl
  case timeout => exact exec_bondTimeout hal ht hlost hbefore
  case window =>
    have hbad (i : Nat) (hi : i < 16) : (decide (i < 16) && s.winPort i) = s.winPort i := by rw [decide_eq_true hi, Bool.true_and]
    refine ⟨fun hfew => ?_, fun hports t ht hothers => ?_⟩
    · obtain ⟨t, hexec, hframe, herrs, hwin, hmarks⟩ := exec_bondErrorWindow_ports hal (fun t => (s.tileErrs_eq t).trans_lt (hfew t))
      refine ⟨t, hexec, hframe, herrs, hwin, fun i hi => ⟨fun h => (hmarks i hi).1 ((hbad i hi).symm.trans h), fun h =>
        (hmarks i hi).2 ((hbad i hi).symm.trans h)⟩⟩
    · exact exec_bondErrorWindow_tile hal (fun i hi => (hbad i hi).symm.trans (hports i hi)) (ht.trans_eq (s.tileErrs_eq t).symm)
        (fun x hx => (s.tileErrs_eq x).trans_lt (hothers x hx))
  case test =>
    obtain ⟨t, hexec, hdone, h2, h3, hframe, hports⟩ := exec_bondTestDone_ports fail gs hal htest
    refine ⟨t, hexec, hdone, h2, h3, hframe, fun i hi ⟨hfail, hdie, hin⟩ => hports i ?_⟩
    rw [State.testPorts, List.mem_filter, List.mem_range, hfail, hdie]
    exact ⟨hi, hin⟩

end Sys2Proof.Machine
end

section
/-! SUPPORT. The link below its messages (R492 to R496, Table 15-1): what a link state entered, a flit sent and a replay leave of the port, and what
the port's words and record are after each training event. With them the statement on the SCI link. -/

namespace Sys2Proof.Machine

open Host

/-! ### What the link's own work can change -/

/-- `t` differs from `s` in registers and in the ports of the hitch alone. -/
def LinkOnly (s t : State) : Prop := t = { s with regs := t.regs, hitch := { s.hitch with ports := t.hitch.ports } }

theorem LinkOnly.refl (s : State) : LinkOnly s s := rfl

theorem LinkOnly.trans {s t u : State} (h : LinkOnly s t) (h' : LinkOnly t u) : LinkOnly s u := by
  unfold LinkOnly at h h' ⊢
  rw [h', h]

theorem LinkOnly.bcasts {s t : State} (h : LinkOnly s t) : t.hitch.bcasts = s.hitch.bcasts := by
  unfold LinkOnly at h
  rw [h]

section
variable (s : State) (p : Fin 2)

theorem State.modSci_linkOnly (f : SciPort → SciPort) : LinkOnly s (s.modSci p f) := rfl

theorem State.put_linkOnly (o v : Nat) : LinkOnly s (s.put o v) := rfl

theorem State.count64_linkOnly (o n : Nat) : LinkOnly s (s.count64 o n) := rfl

theorem State.count_linkOnly (c : Ctr) (n : Nat) : LinkOnly s (s.count c n) := by
  unfold LinkOnly
  rw [s.count_eq]

theorem State.setSciSt_linkOnly (v : Nat) : LinkOnly s (s.setSciSt p v) := by
  unfold State.setSciSt
  split
  · exact LinkOnly.refl s
  · exact (s.put_linkOnly _ _).trans (State.modSci_linkOnly _ _ _)

/-! ### A link state entered -/

theorem State.sciSt_modSci (q : Fin 2) (f : SciPort → SciPort) : (s.modSci q f).sciSt p = s.sciSt p := rfl

/-- The word of a state entered: its state and its GEN are new. -/
theorem State.rd_setSciSt {v : Nat} (h : s.sciSt p ≠ v) : (s.setSciSt p v).rd (Reg.sciState p) =
    putBits (putBits (s.rd (Reg.sciState p)) 3 0 v) 31 16 (bitsN (s.rd (Reg.sciState p)) 31 16 + 1) := by
  unfold State.setSciSt
  rw [if_neg h, State.modSci_rd, State.rd_put_self]
  exact Nat.mod_eq_of_lt (putBits_lt (by decide) (putBits_lt (by decide) (s.rd_lt _) (by decide)) (by decide))

theorem State.sciSt_setSciSt {v : Nat} (hv : v < 16) : (s.setSciSt p v).sciSt p = v := by
  by_cases h : s.sciSt p = v
  · rwa [State.setSciSt, if_pos h]
  · rw [State.sciSt, State.fld, State.rd_setSciSt s p h, bitsN_putBits_ne (by decide) (by decide), bitsN_putBits_self (by decide)]
    exact Nat.mod_eq_of_lt hv

/-- The bits between the state and its GEN stay. -/
theorem State.bit_setSciSt (v : Nat) {i : Nat} (hlo : 4 ≤ i) (hhi : i < 16) : (s.setSciSt p v).bit (Reg.sciState p) i = s.bit (Reg.sciState p) i := by
  by_cases h : s.sciSt p = v
  · rw [State.setSciSt, if_pos h]
  · rw [State.bit, State.rd_setSciSt s p h, bitN_putBits (by decide), if_neg (by omega), bitN_putBits (by decide), if_neg (by omega), State.bit]

/-- Of the port's record only the instant of entry is new. -/
theorem State.port_setSciSt (v : Nat) : ∃ n, (s.setSciSt p v).hitch.ports[p] = { s.hitch.ports[p] with entered := n } := by
  unfold State.setSciSt
  split
  · exact ⟨_, rfl⟩
  · exact ⟨s.time, by rw [State.modSci_self]; rfl⟩

/-! ### Flits -/

theorem State.putFlit_linkOnly (seq ty : Nat) (payload : List Byte) : LinkOnly s (s.putFlit p seq ty payload) :=
  (s.modSci_linkOnly p _).trans (State.count64_linkOnly _ _ _)

/-- A flit sent is one more of those sent, and the retry buffer stays. -/
theorem State.putFlit_port (seq ty : Nat) (payload : List Byte) :
    (s.putFlit p seq ty payload).hitch.ports[p].sent.length = s.hitch.ports[p].sent.length + 1
      ∧ (s.putFlit p seq ty payload).hitch.ports[p].unacked = s.hitch.ports[p].unacked := by
  unfold State.putFlit State.count64
  dsimp only
  rw [State.put64_hitch, State.modSci_self]
  exact ⟨List.length_append, rfl⟩

theorem State.foldl_putFlit_sent (l : List (Nat × Nat × List Byte)) (s : State) :
    (l.foldl (fun (s : State) x => s.putFlit p x.1 x.2.1 x.2.2) s).hitch.ports[p].sent.length = s.hitch.ports[p].sent.length + l.length := by
  induction l generalizing s with
  | nil => rfl
  | cons x r ih =>
    rw [List.foldl_cons, ih, (s.putFlit_port p _ _ _).1, List.length_cons]
    omega

/-- A replay sends every flit of the retry buffer again. -/
theorem State.replay_sent : (s.replay p).hitch.ports[p].sent.length = s.hitch.ports[p].sent.length + s.hitch.ports[p].unacked.length := by
  unfold State.replay
  dsimp only
  rw [State.foldl_putFlit_sent, State.modSci_self, State.count_eq s]

/-! ### Training -/

section
variable {s p}

theorem State.trainEvent_laneDetected {lanes : BitVec 4} (h : s.sciSt p = 1) (hl : lanes ≠ 0) :
    s.trainEvent p (.laneDetected lanes) = (s.modSci p (fun q => { q with lanes := lanes.toNat })).setSciSt p 2 := by
  unfold State.trainEvent
  rw [h]
  exact if_neg hl

theorem State.trainEvent_presetsSettled (h : s.sciSt p = 4) : s.trainEvent p .presetsSettled = (s.putB (Reg.sciState p) 6 true).setSciSt p 5 := by
  unfold State.trainEvent
  rw [h]
  rfl

theorem State.trainEvent_creditsReceived (h : s.sciSt p = 5) : s.trainEvent p .creditsReceived = s.enterNegotiate p := by
  unfold State.trainEvent
  rw [h]
  rfl

theorem State.trainEvent_lockRegained (h : s.sciSt p = 8) :
    s.trainEvent p .lockRegained = (s.modSci p (fun q => { q with since := s.time })).setSciSt p 7 := by
  unfold State.trainEvent
  rw [h]
  rfl

end

/-- NEGOTIATE starts with the receiver's buffers as credit and this package's capabilities to send. -/
theorem State.enterNegotiate_spec : (s.enterNegotiate p).sciSt p = 6 ∧ (s.enterNegotiate p).hitch.ports[p].credits = vcUnits
    ∧ (s.enterNegotiate p).hitch.ports[p].ctl = [recBytes 1 s.ownRec] := by
  unfold State.enterNegotiate
  dsimp only
  generalize hf : (fun q : SciPort => ({ SciPort.idle with retrains := q.retrains, lanes := q.lanes, peer32 := q.peer32
                                                           peerLead := q.peerLead, credits := vcUnits } : SciPort)) = f
  have hc : (f s.hitch.ports[p]).credits = vcUnits ∧ (f s.hitch.ports[p]).ctl = [] := by
    subst hf
    exact ⟨rfl, rfl⟩
  obtain ⟨n, hn⟩ := (s.modSci p f).port_setSciSt p 6
  have hi : ((s.modSci p f).setSciSt p 6).ownRec = s.ownRec := by
    have h := (s.modSci_linkOnly p f).trans (State.setSciSt_linkOnly _ p 6)
    unfold LinkOnly at h
    rw [h]
    rfl
  rw [State.modSci_self] at hn
  unfold State.sendCap State.sendRec
  rw [State.sciSt_modSci, State.modSci_self, hn, hi]
  refine ⟨State.sciSt_setSciSt _ _ (by decide), hc.1, ?_⟩
  show (f s.hitch.ports[p]).ctl ++ _ = _
  rw [hc.2]
  rfl

/-! ### Timeouts -/

/-- The instant of a state's timeout, by whether the state has one. -/
theorem State.atLimit_some {n : Nat} (h : sciLimit (s.sciSt p) = some n) :
    s.atLimit p = { s with time := max s.time (s.hitch.ports[p].entered + n) } := by
  unfold State.atLimit
  rw [h]
  rfl

theorem State.atLimit_none (h : sciLimit (s.sciSt p) = none) : s.atLimit p = s := by
  unfold State.atLimit
  rw [h]

theorem State.flitIn_badCrc {f : List Byte} (hst : s.sciSt p = 6 ∨ s.sciSt p = 7) (hcrc : f.length ≠ 256 ∨ leAt f 0xFC 4 ≠ crc32c (f.take 0xFC)) :
    s.flitIn p f = (s.count (Cnt.sciCntCrc p)).modSci p (fun q => { q with discarding := true, nakDue := true }) := by
  unfold State.flitIn
  rw [if_neg (by omega), if_pos hcrc]

theorem State.replayOrRetrain_replay (hne : s.hitch.ports[p].unacked ≠ []) (hr : s.hitch.ports[p].replays < 4) :
    s.replayOrRetrain p = s.replay p := by
  rw [State.replayOrRetrain, if_neg (by simpa using hne), if_neg (by omega)]

theorem State.replayOrRetrain_retrain (hne : s.hitch.ports[p].unacked ≠ []) (hr : 4 ≤ s.hitch.ports[p].replays) :
    s.replayOrRetrain p = s.sciRetrain p := by
  rw [State.replayOrRetrain, if_neg (by simpa using hne), if_pos hr]

/-! ### The commands of the link while the SCI logic runs -/

section
variable {s p} (hon : s.sciOn = true)
include hon

theorem exec_sciTrainingSet_on (e : TrainEvent) : exec (.sciTrainingSet p e) s = .next (s.trainEvent p e).settleBcasts.sciPump := by
  show execSciTrainingSet p e s = _
  rw [execSciTrainingSet, s.sciDo_on _ hon]

theorem exec_sciFlitReceive_on (f : List Byte) : exec (.sciFlitReceive p f) s = .next (s.flitIn p f).settleBcasts.sciPump := by
  show execSciFlitReceive p f s = _
  rw [execSciFlitReceive, s.sciDo_on _ hon]

/-- With flits unacknowledged, the timeout replays them or retrains. -/
theorem exec_sciAckTimeout_on (hst : s.sciSt p = 6 ∨ s.sciSt p = 7) (hne : s.hitch.ports[p].unacked ≠ []) :
    exec (.sciAckTimeout p) s = .next (({ s with time := max s.time (s.hitch.ports[p].since + 2000) }).replayOrRetrain p).settleBcasts.sciPump := by
  show execSciAckTimeout p s = _
  rw [execSciAckTimeout, s.sciDo_on _ hon, if_pos ⟨hst, by simpa using hne⟩]
  rfl

theorem exec_sciAckTimeout_replay (hst : s.sciSt p = 6 ∨ s.sciSt p = 7) (hne : s.hitch.ports[p].unacked ≠ []) (hr : s.hitch.ports[p].replays < 4) :
    exec (.sciAckTimeout p) s = .next (({ s with time := max s.time (s.hitch.ports[p].since + 2000) }).replay p).settleBcasts.sciPump :=
  (exec_sciAckTimeout_on hon hst hne).trans (congrArg (fun t : State => Outcome.next t.settleBcasts.sciPump)
    ((s.at_ (s.hitch.ports[p].since + 2000)).replayOrRetrain_replay p hne hr))

theorem exec_sciAckTimeout_retrain (hst : s.sciSt p = 6 ∨ s.sciSt p = 7) (hne : s.hitch.ports[p].unacked ≠ []) (hr : 4 ≤ s.hitch.ports[p].replays) :
    exec (.sciAckTimeout p) s = .next (({ s with time := max s.time (s.hitch.ports[p].since + 2000) }).sciRetrain p).settleBcasts.sciPump :=
  (exec_sciAckTimeout_on hon hst hne).trans (congrArg (fun t : State => Outcome.next t.settleBcasts.sciPump)
    ((s.at_ (s.hitch.ports[p].since + 2000)).replayOrRetrain_retrain p hne hr))

theorem exec_sciRequestTimeout_on {tag : BitVec 16} {r : SciReq} (hr : s.hitch.ports[p].reqs.find? (fun r => r.tag == tag.toNat) = some r) :
    exec (.sciRequestTimeout p tag) s =
      .next (({ s with time := max s.time r.due }.count (Cnt.sciCntTmo p)).completeReq p r.tag 3 r.dst []).settleBcasts.sciPump := by
  show execSciRequestTimeout p tag s = _
  rw [execSciRequestTimeout, s.sciDo_on _ hon, hr]
  rfl

theorem exec_sciTimeSend_on (h : s.bit Reg.sciHitchStat 2 = true ∨ s.bit Reg.sciHitchStat 3 = true) :
    exec (.sciTimeSend p) s = .next (s.sendTime p).settleBcasts.sciPump := by
  show execSciTimeSend p s = _
  rw [execSciTimeSend, s.sciDo_on _ hon, if_pos h]

theorem exec_contribWaitExpiry_on {v : PendVerdict} {e : Epoch} (hv : s.hitch.verdict = some v) (he : s.epoch? v.frame = some e) :
    exec .contribWaitExpiry s = .next ({ s with time := max s.time (v.since + 1000 * s.rd Reg.sciContribWait) }.commitMerged e v).settleBcasts.sciPump := by
  have he' : (s.at_ (v.since + 1000 * s.rd Reg.sciContribWait)).epoch? v.frame = some e := he
  show execContribWaitExpiry s = _
  rw [execContribWaitExpiry, s.sciDo_on _ hon]
  dsimp only
  rw [hv]
  dsimp only
  rw [he']
  rfl

theorem exec_hitchBroadcastTimeout_on {b : Bcast} {bs : List Bcast} (hb : s.hitch.bcasts = b :: bs) :
    exec .hitchBroadcastTimeout s = .next ({ s with time := max s.time b.until_ }.bcastFinish b) := by
  have hal : s.alive = true := (Bool.and_eq_true_iff.1 hon).1
  show execHitchBroadcastTimeout s = _
  rw [execHitchBroadcastTimeout, if_neg (by simp [hal]), hb]
  rfl

theorem exec_wheelAwaitLog_on (h2 : s.bit Reg.sciHitchStat 2 = false) (h3 : s.bit Reg.sciHitchStat 3 = false) :
    exec .wheelAwaitLog s = .next ({ s with time := max s.time ((s.time / 1000000000 + 1) * 1000000000) }.logEvent 0x50 pkgUnit 0 3) :=
  if_neg (by simp [hon, h2, h3])

end

end

/-- Settles O58: each clause is the arrival's effect while the SCI logic runs, and the effect's own law. -/
theorem sciLink : Obligations.SciLink := by
  intro s p hon
  refine ⟨exec_sciTrainingSet_on hon, fun lanes hl h => ?_, fun h => ?_, fun h => ?_, fun h => ?_, ?_, fun f => ⟨exec_sciFlitReceive_on hon f, ?_⟩,
    ?_, fun tag r => exec_sciRequestTimeout_on hon, exec_sciTimeSend_on hon, fun v e => exec_contribWaitExpiry_on hon,
    fun b bs => exec_hitchBroadcastTimeout_on hon, exec_wheelAwaitLog_on hon⟩
  case refine_1 =>
    rw [State.trainEvent_laneDetected h hl]
    obtain ⟨n, hn⟩ := (s.modSci p (fun q => { q with lanes := lanes.toNat })).port_setSciSt p 2
    exact ⟨State.sciSt_setSciSt _ _ (by decide), by rw [hn, State.modSci_self]⟩
  case refine_2 =>
    rw [State.trainEvent_presetsSettled h, State.bit_setSciSt _ _ _ (by decide) (by decide), State.bit_putB _ _ (by decide)]
    exact ⟨State.sciSt_setSciSt _ _ (by decide), rfl⟩
  case refine_3 =>
    rw [State.trainEvent_creditsReceived h]
    exact s.enterNegotiate_spec p
  case refine_4 =>
    rw [State.trainEvent_lockRegained h]
    exact State.sciSt_setSciSt _ _ (by decide)
  case refine_5 =>
    show execSciStateTimeout p s = _
    rw [execSciStateTimeout, s.sciDo_on _ hon]
    cases hl : sciLimit (s.sciSt p) with
    | none =>
      rw [s.atLimit_none p hl]
      dsimp only
      generalize s.sciSt p = st
      rcases st with _ | _ | _ | _ | _ | _ | _ | _ | _ | st <;> rfl
    | some n =>
      rw [s.atLimit_some p hl]
      dsimp only
      have hst : ({ s with time := max s.time (s.hitch.ports[p].entered + n) } : State).sciSt p = s.sciSt p := rfl
      rw [hst]
      generalize s.sciSt p = st
      rcases st with _ | _ | _ | _ | _ | _ | _ | _ | _ | st <;> rfl
  case refine_6 => exact fun hst _ hcrc => State.flitIn_badCrc s p hst (Or.inr hcrc)
  case refine_7 =>
    intro q s1 hst hne
    exact ⟨fun hr => ⟨exec_sciAckTimeout_replay hon hst hne hr, s1.replay_sent p⟩, exec_sciAckTimeout_retrain hon hst hne⟩

end Sys2Proof.Machine
end

section
/-! SUPPORT. Messages and records of the hitch (Table 15-5, Table 15-6): each command as the handling of its message or record, what each opcode's
handling is, and what the sending that follows leaves alone. With them the statement that what arrives over the hitch completes. -/

namespace Sys2Proof.Machine

open Host

section
variable {s : State} {p : Fin 2}

/-! ### After an arrival -/

/-- With no broadcast under way there is none to complete. -/
theorem State.settleBcasts_none (h : s.hitch.bcasts = []) : s.settleBcasts = s := by
  rw [State.settleBcasts, h]
  rfl

theorem LinkOnly.settleBcasts {t : State} (h : LinkOnly s t) (hb : s.hitch.bcasts = []) : t.settleBcasts = t :=
  State.settleBcasts_none (h.bcasts.trans hb)

/-- With no message to hand to a port there is none to route. -/
theorem State.routeOutbox_none (h : s.hitch.outbox = []) : s.routeOutbox = s := by
  unfold State.routeOutbox
  rw [h]
  show ({ s with hitch := { s.hitch with outbox := [] } } : State) = s
  rw [← h]

theorem LinkOnly.foldl {α : Type} (l : List α) (f : State → α → State) (hf : ∀ t x, LinkOnly t (f t x)) (s : State) : LinkOnly s (l.foldl f s) :=
  List.foldlRecOn l f (LinkOnly.refl s) fun t ht x _ => ht.trans (hf t x)

theorem LinkOnly.ite {c : Prop} [Decidable c] {t u : State} (ht : c → LinkOnly s t) (hu : ¬ c → LinkOnly s u) : LinkOnly s (if c then t else u) := by
  split
  · next h => exact ht h
  · next h => exact hu h

theorem State.newFlit_linkOnly (s : State) (p : Fin 2) (ty : Nat) (payload : List Byte) : LinkOnly s (s.newFlit p ty payload) := by
  unfold State.newFlit
  exact (s.putFlit_linkOnly p _ ty payload).trans (State.modSci_linkOnly _ _ _)

/-- What a port sends changes its words and its record alone. -/
theorem State.pumpPort_linkOnly (s : State) (p : Fin 2) : LinkOnly s (s.pumpPort p) := by
  unfold State.pumpPort
  refine LinkOnly.ite (fun _ => LinkOnly.refl s) fun _ => ?_
  extract_lets q n s1 s2 q2 s3 q3 s4
  have h1 : LinkOnly s s1 := LinkOnly.foldl _ _ (fun t r => t.newFlit_linkOnly p 2 r) s
  have h2 : LinkOnly s s2 := h1.trans (State.modSci_linkOnly _ _ _)
  have h3 : LinkOnly s s3 := by
    refine LinkOnly.ite (fun _ => ?_) (fun _ => h2)
    exact (h2.trans (State.modSci_linkOnly _ _ _)).trans (LinkOnly.foldl _ _ (fun t r => t.newFlit_linkOnly p 0 r) _)
  have h4 : LinkOnly s s4 := LinkOnly.ite (fun _ => h3.trans (State.count64_linkOnly _ _ _)) (fun _ => h3)
  exact LinkOnly.ite (fun _ => h4.trans (State.putFlit_linkOnly _ _ _ _ _)) (fun _ => h4)

theorem State.sciPump_linkOnly (h : s.hitch.outbox = []) : LinkOnly s s.sciPump := by
  unfold State.sciPump
  rw [State.routeOutbox_none h]
  exact (s.pumpPort_linkOnly 0).trans (State.pumpPort_linkOnly _ 1)

/-! ### Messages by their opcode (Table 15-5) -/

theorem State.arrive_active (hact : SciActive s p) (op : Nat) (h : SciHdr) (data : List Byte) :
    s.arrive p op h data = .next (s.handleMsg p ⟨op, h, data⟩).settleBcasts.sciPump := by
  obtain ⟨hon, hst⟩ := hact
  rw [State.arrive, s.sciDo_on _ hon, if_pos hst]

/-- A message to a port in another link state is not handled. -/
theorem State.arrive_inactive (hon : s.sciOn = true) (hst : s.sciSt p ≠ 7) (op : Nat) (h : SciHdr) (data : List Byte) :
    s.arrive p op h data = .next s.settleBcasts.sciPump := by
  rw [State.arrive, s.sciDo_on _ hon, if_neg hst]

section
variable {h : SciHdr} {data : List Byte} (hdst : h.dst.toNat = s.ownPkg)
include hdst

theorem State.handleMsg_rd : s.handleMsg p ⟨0x00, h, data⟩ = s.serveRd ⟨0x00, h, data⟩ := if_neg (not_not_intro hdst)

theorem State.handleMsg_wr : s.handleMsg p ⟨0x01, h, data⟩ = s.serveWr ⟨0x01, h, data⟩ := if_neg (not_not_intro hdst)

theorem State.handleMsg_response {op : Nat} (hop : op ∈ [0x10, 0x11, 0x50, 0x51]) :
    s.handleMsg p ⟨op, h, data⟩ = s.completeReq p h.tag.toNat h.status.toNat h.src.toNat data := by
  simp only [List.mem_cons, List.not_mem_nil, or_false] at hop
  refine (if_neg (not_not_intro hdst)).trans ?_
  rw [if_neg (by dsimp only; omega), if_neg (by dsimp only; omega), if_pos (by dsimp only; omega)]

theorem State.handleMsg_ownPush : s.handleMsg p ⟨0x20, h, data⟩ = s.ownPush ⟨0x20, h, data⟩ := if_neg (not_not_intro hdst)

theorem State.handleMsg_ownDone : s.handleMsg p ⟨0x21, h, data⟩ = s.ownDone ⟨0x21, h, data⟩ := if_neg (not_not_intro hdst)

theorem State.handleMsg_ownVer : s.handleMsg p ⟨0x22, h, data⟩ = s.ownVer ⟨0x22, h, data⟩ := if_neg (not_not_intro hdst)

theorem State.handleMsg_msi :
    s.handleMsg p ⟨0x30, h, data⟩ = { s with hitch := { s.hitch with msis := s.hitch.msis ++ [(h.operand.toNat, leAt data 0 8)] } } :=
  if_neg (not_not_intro hdst)

theorem State.handleMsg_contrib : s.handleMsg p ⟨0x31, h, data⟩ = s.contribution ⟨0x31, h, data⟩ := if_neg (not_not_intro hdst)

theorem State.handleMsg_crd : s.handleMsg p ⟨0x40, h, data⟩ = s.serveDebug ⟨0x40, h, data⟩ := if_neg (not_not_intro hdst)

theorem State.handleMsg_cwr : s.handleMsg p ⟨0x41, h, data⟩ = s.serveDebug ⟨0x41, h, data⟩ := if_neg (not_not_intro hdst)

end

/-! ### Requests served and completed (R501, R514) -/

section
variable {m : SciMsg}

/-- A read of memory without errors answers with its bytes. -/
theorem State.serveRd_clean (hlo : 3 ≤ m.hdr.size.toNat) (hhi : m.hdr.size.toNat ≤ 8)
    (hr : s.memRange (m.hdr.operand.toNat % 2 ^ 42) (2 ^ m.hdr.size.toNat) = true) (hbad : s.mem.bad = []) (hsoft : s.mem.soft = []) :
    s.serveRd m = s.replyTo m 0 (s.mem.bytes (m.hdr.operand.toNat % 2 ^ 42) (2 ^ m.hdr.size.toNat)) := by
  unfold State.serveRd
  dsimp only
  rw [if_neg (by simp only [hr, not_true_eq_false, or_false]; omega), badIn_clean hbad, State.countSoft_clean hsoft]
  rfl

/-- A read of what is no memory answers STATUS 2. -/
theorem State.serveRd_refused
    (h : m.hdr.size.toNat < 3 ∨ 8 < m.hdr.size.toNat ∨ s.memRange (m.hdr.operand.toNat % 2 ^ 42) (2 ^ m.hdr.size.toNat) = false) :
    s.serveRd m = s.replyTo m 2 [] := by
  unfold State.serveRd
  exact if_pos (by simpa using h)

/-- A write of memory is performed, and acknowledged where that is asked for. -/
theorem State.serveWr_ok (hlo : 3 ≤ m.hdr.size.toNat) (hhi : m.hdr.size.toNat ≤ 8) (hlen : 2 ^ m.hdr.size.toNat ≤ m.data.length)
    (hr : s.memRange (m.hdr.operand.toNat % 2 ^ 42) (2 ^ m.hdr.size.toNat) = true) (hst : m.hdr.status ≠ 1) :
    s.serveWr m = if m.hdr.ackReq = true
      then (s.memWrite (m.hdr.operand.toNat % 2 ^ 42) (m.data.take (2 ^ m.hdr.size.toNat))).replyTo m 0 []
      else s.memWrite (m.hdr.operand.toNat % 2 ^ 42) (m.data.take (2 ^ m.hdr.size.toNat)) := by
  unfold State.serveWr
  simp only [hlo, hhi, hlen, hr, hst, and_self, decide_true, Bool.and_self, if_true, if_false]

/-- A write of what is no memory does nothing, and is answered with STATUS 2 where an answer is asked for. -/
theorem State.serveWr_refused (h : m.hdr.size.toNat < 3 ∨ 8 < m.hdr.size.toNat ∨ m.data.length < 2 ^ m.hdr.size.toNat
      ∨ s.memRange (m.hdr.operand.toNat % 2 ^ 42) (2 ^ m.hdr.size.toNat) = false) :
    s.serveWr m = if m.hdr.ackReq = true then s.replyTo m 2 [] else s := by
  have hok : (decide (3 ≤ m.hdr.size.toNat ∧ m.hdr.size.toNat ≤ 8) && decide (2 ^ m.hdr.size.toNat ≤ m.data.length)
      && s.memRange (m.hdr.operand.toNat % 2 ^ 42) (2 ^ m.hdr.size.toNat)) = false := by
    rw [Bool.and_eq_false_iff, Bool.and_eq_false_iff, decide_eq_false_iff_not, decide_eq_false_iff_not]
    obtain h | h | h | h := h
    · exact Or.inl (Or.inl (by omega))
    · exact Or.inl (Or.inl (by omega))
    · exact Or.inl (Or.inr (by omega))
    · exact Or.inr h
  unfold State.serveWr
  simp only [hok, Bool.false_eq_true, if_false]

/-- A message of the debug class that names a register of the local map: what its access is. -/
theorem State.serveDebug_write {off : Nat} (hop : m.op = 0x41) (ha : m.hdr.operand.toNat % 2 ^ 42 = 0xE0000000 + off) (hmir : isMirror off = false)
    (harea : s.area (m.hdr.operand.toNat % 2 ^ 42) = .control) (hsize : m.hdr.size = 3) (hsel : selOf off 8 ≠ .reserved)
    (hw : selWords (selOf off 8) 8 ≠ []) (hok : s.accCheck 9 true (selOf off 8) 8 = none) :
    s.serveDebug m = (s.regWrite 9 (selWords (selOf off 8) 8) (leAt m.data 0 8)).replyTo m 0 [] := by
  have hoff : m.hdr.operand.toNat % 2 ^ 42 - 0xE0000000 = off := by omega
  unfold State.serveDebug
  extract_lets r a off0 bc off' w
  have hoff' : off' = off := (if_neg (by rw [show off0 = off from hoff, hmir]; decide)).trans hoff
  have hw8 : w = 8 := if_pos hsize
  rw [hoff', hw8, if_neg (by rintro (h | h) <;> [exact h harea; exact hsel h]), if_pos hop, State.localWrite_words _ hok hw]

theorem State.serveDebug_read {off : Nat} (hop : m.op ≠ 0x41) (ha : m.hdr.operand.toNat % 2 ^ 42 = 0xE0000000 + off) (hmir : isMirror off = false)
    (harea : s.area (m.hdr.operand.toNat % 2 ^ 42) = .control) (hsize : m.hdr.size = 3) (hsel : selOf off 8 ≠ .reserved)
    (hw : selWords (selOf off 8) 8 ≠ []) (hok : s.accCheck 9 false (selOf off 8) 8 = none) :
    s.serveDebug m = (s.regRead 9 (selWords (selOf off 8) 8) (!(bitN m.hdr.operand.toNat 63)) false).2.replyTo m 0
      (toLe (s.regRead 9 (selWords (selOf off 8) 8) (!(bitN m.hdr.operand.toNat 63)) false).1 8) := by
  have hoff : m.hdr.operand.toNat % 2 ^ 42 - 0xE0000000 = off := by omega
  unfold State.serveDebug
  extract_lets r a off0 bc off' w
  have hmir' : isMirror off0 = false := by rw [show off0 = off from hoff, hmir]
  have hoff' : off' = off := (if_neg (by rw [hmir']; decide)).trans hoff
  have hbc : bc = bitN m.hdr.operand.toNat 63 := by
    show (_ || isMirror off0) = _
    rw [hmir', Bool.or_false]
  have hw8 : w = 8 := if_pos hsize
  rw [hoff', hw8, hbc, if_neg (by rintro (h | h) <;> [exact h harea; exact hsel h]), if_neg hop, State.localRead_words _ _ hok hw]

end

section
variable {tag status src : Nat} {data : List Byte} {r : SciReq}

theorem State.completeReq_none (h : s.hitch.ports[p].reqs.find? (fun r => r.tag == tag && r.dst == src) = none) :
    s.completeReq p tag status src data = s := by
  unfold State.completeReq
  rw [h]

variable (hr : s.hitch.ports[p].reqs.find? (fun r => r.tag == tag && r.dst == src) = some r)
include hr

theorem State.completeReq_read (hop : r.op = 0x00) :
    s.completeReq p tag status src data = (s.modSci p (fun q => { q with reqs := q.reqs.erase r })).readDone tag status data := by
  unfold State.completeReq
  rw [hr]
  exact if_pos hop

theorem State.completeReq_write (hop : r.op = 0x01) : s.completeReq p tag status src data =
    (if status = 0 ∨ status = 2 then s.modSci p (fun q => { q with reqs := q.reqs.erase r })
     else (s.modSci p (fun q => { q with reqs := q.reqs.erase r })).count (Cnt.sciCntLost p)).writeDone tag status := by
  unfold State.completeReq
  rw [hr]
  exact (if_neg (by omega)).trans (if_pos hop)

theorem State.completeReq_access (hop : r.op = 0x40 ∨ r.op = 0x41) (hst : status = 0) : s.completeReq p tag status src data =
    (s.modSci p (fun q => { q with reqs := q.reqs.erase r })).bcastAnswer tag src (some (leAt data 0 8)) := by
  unfold State.completeReq
  rw [hr]
  exact (if_neg (by omega)).trans ((if_neg (by omega)).trans (if_pos hst))

end

/-! ### Contributions (R508, R509) -/

theorem State.tryMerge_none (h : s.hitch.verdict = none) : s.tryMerge = s := by
  unfold State.tryMerge
  rw [h]

/-- The contributions at the lead once a member's to a frame is kept. -/
def State.contribsWith (s : State) (c : Contribution) : List Contribution :=
  s.hitch.contribs.filter (fun x => ¬ (x.member = c.member ∧ x.frame = c.frame)) ++ [c]

/-- The contribution a message carries. -/
def contribOf (m : SciMsg) : Contribution :=
  ⟨m.hdr.src.toNat, m.hdr.operand.toNat % 2 ^ 32, leAt m.data 0 6, leAt m.data 6 3, leAt m.data 9 1⟩

/-- The lead with no verdict pending keeps a contribution to a frame still to come. -/
theorem State.contribution_kept {m : SciMsg} (hlead : s.bit Reg.sciHitchStat 2 = true) (hf : s.frameNum ≤ m.hdr.operand.toNat % 2 ^ 32)
    (hv : s.hitch.verdict = none) : s.contribution m = { s with hitch := { s.hitch with contribs := s.contribsWith (contribOf m) } } := by
  unfold State.contribution
  extract_lets f c open_ cs
  have hopen : open_ = true := by
    show (_ || decide (s.frameNum ≤ f) || _) = true
    rw [decide_eq_true hf, Bool.or_true, Bool.true_or]
  rw [if_neg (by rw [hlead]; decide), if_neg (by rw [hopen]; decide)]
  exact State.tryMerge_none hv

end

end Sys2Proof.Machine
end

section
/-! SUPPORT. The statements on messages that reach an active port and on what completes over the hitch: each command of Table 15-5 as the handling of
its message, each record of Table 15-6 as the handling of it. -/

namespace Sys2Proof.Machine

open Host

section
variable {s : State} {p : Fin 2}

/-! ### The commands of messages and records -/

section
variable (hact : SciActive s p) (h : SciHdr) (data : List Byte)
include hact

theorem exec_rd_active : exec (.rd p h) s = .next (s.handleMsg p ⟨0x00, h, []⟩).settleBcasts.sciPump := State.arrive_active hact _ _ _

theorem exec_wr_active : exec (.wr p h data) s = .next (s.handleMsg p ⟨0x01, h, data⟩).settleBcasts.sciPump := State.arrive_active hact _ _ _

theorem exec_rdr_active : exec (.rdr p h data) s = .next (s.handleMsg p ⟨0x10, h, data⟩).settleBcasts.sciPump := State.arrive_active hact _ _ _

theorem exec_wra_active : exec (.wra p h) s = .next (s.handleMsg p ⟨0x11, h, []⟩).settleBcasts.sciPump := State.arrive_active hact _ _ _

theorem exec_ownPush_active : exec (.ownPush p h data) s = .next (s.handleMsg p ⟨0x20, h, data⟩).settleBcasts.sciPump :=
  State.arrive_active hact _ _ _

theorem exec_ownDone_active : exec (.ownDone p h) s = .next (s.handleMsg p ⟨0x21, h, []⟩).settleBcasts.sciPump := State.arrive_active hact _ _ _

theorem exec_ownVer_active : exec (.ownVer p h) s = .next (s.handleMsg p ⟨0x22, h, []⟩).settleBcasts.sciPump := State.arrive_active hact _ _ _

theorem exec_msi_active : exec (.msi p h data) s = .next (s.handleMsg p ⟨0x30, h, data⟩).settleBcasts.sciPump := State.arrive_active hact _ _ _

theorem exec_contrib_active : exec (.contrib p h data) s = .next (s.handleMsg p ⟨0x31, h, data⟩).settleBcasts.sciPump :=
  State.arrive_active hact _ _ _

theorem exec_crd_active : exec (.crd p h) s = .next (s.handleMsg p ⟨0x40, h, []⟩).settleBcasts.sciPump := State.arrive_active hact _ _ _

theorem exec_cwr_active : exec (.cwr p h data) s = .next (s.handleMsg p ⟨0x41, h, data⟩).settleBcasts.sciPump := State.arrive_active hact _ _ _

theorem exec_crr_active : exec (.crr p h data) s = .next (s.handleMsg p ⟨0x50, h, data⟩).settleBcasts.sciPump := State.arrive_active hact _ _ _

theorem exec_cwa_active : exec (.cwa p h) s = .next (s.handleMsg p ⟨0x51, h, []⟩).settleBcasts.sciPump := State.arrive_active hact _ _ _

end

section
variable (hon : s.sciOn = true) (hst : s.sciSt p = 6 ∨ s.sciSt p = 7) (l : LinkRec)
include hon hst

/-- A record that reaches a negotiating or active port is handled by its type. -/
theorem State.record_arrives (ty d : Nat) : s.sciDo (fun s => s.handleRec p ty l d) = .next (
    if ty = 1 then s.recCap p l else if ty = 2 then s.recAssign p l else if ty = 3 then s.recAccept p l else if ty = 4 then s.recRefuse p l
    else if ty = 5 then s.recTime p l d else if ty = 6 then s.recDetach p l else s).settleBcasts.sciPump := by
  rw [s.sciDo_on _ hon, State.handleRec, if_neg (by omega)]

theorem exec_cap_on : exec (.cap p l) s = .next (s.recCap p l).settleBcasts.sciPump := State.record_arrives hon hst l 1 0

theorem exec_assign_on : exec (.assign p l) s = .next (s.recAssign p l).settleBcasts.sciPump := State.record_arrives hon hst l 2 0

theorem exec_accept_on : exec (.accept p l) s = .next (s.recAccept p l).settleBcasts.sciPump := State.record_arrives hon hst l 3 0

theorem exec_refuse_on : exec (.refuse p l) s = .next (s.recRefuse p l).settleBcasts.sciPump := State.record_arrives hon hst l 4 0

theorem exec_time_on (d : Nat) : exec (.time p l d) s = .next (s.recTime p l d).settleBcasts.sciPump := State.record_arrives hon hst l 5 d

theorem exec_detach_on : exec (.detach p l) s = .next (s.recDetach p l).settleBcasts.sciPump := State.record_arrives hon hst l 6 0

end

/-! ### TIME (R505, R506) -/

/-- A wheel's time base moved forward to its lead's, and the offset measured. -/
def State.timeTaken (s : State) (l : LinkRec) (d : Nat) : State :=
  (s.put Reg.sciTimeOfs (unsint 32 (((l.leadTime.toNat + d : Nat) : Int) - (s.time : Int)))).at_ (l.leadTime.toNat + d)

theorem State.timeTaken_rd (l : LinkRec) (d : Nat) {o : Nat} (h : o ≠ Reg.sciTimeOfs) : (s.timeTaken l d).rd o = s.rd o := State.rd_put_ne s _ h

theorem State.timeTaken_bit (l : LinkRec) (d i : Nat) {o : Nat} (h : o ≠ Reg.sciTimeOfs) : (s.timeTaken l d).bit o i = s.bit o i :=
  State.bit_put_ne s _ _ h

/-- The frame's clock once a running wheel takes its lead's next boundary (log 46). -/
def FrameSt.boundaryTaken (f : FrameSt) (nb : Nat) : FrameSt :=
  { f with nextB := nb, period := if f.atOrigin ∨ nb ≤ f.lastB then f.period else nb - f.lastB }

/-- What a boundary taken leaves: all but the registers, the frame's clock and the mark of a boundary that differs. -/
def BoundaryTaken (s t : State) : Prop :=
  t = { s with regs := t.regs, frm := t.frm, hitch := { s.hitch with shifted := t.hitch.shifted } } ∧ t.frameNum = s.frameNum

/-- The boundary taken by the frame in progress; one that differs while a frame number is to be adopted is noted (R507). -/
def State.boundaryMoved (s : State) (nb : Nat) : State :=
  let s := if s.hitch.adopt.isSome ∧ nb ≠ s.frm.nextB then { s with hitch := { s.hitch with shifted := true } } else s
  s.modFrm (fun f => f.boundaryTaken nb)

theorem State.boundaryMoved_spec (s : State) (nb : Nat) :
    BoundaryTaken s (s.boundaryMoved nb) ∧ (s.boundaryMoved nb).regs = s.regs ∧ (s.boundaryMoved nb).frm = s.frm.boundaryTaken nb := by
  unfold State.boundaryMoved
  split <;> exact ⟨⟨rfl, rfl⟩, rfl, rfl⟩

/-- The frame timer started with the boundary. -/
def State.timerStarted (s : State) (nb : Nat) : State :=
  (s.putB Reg.gaitStat 6 true).modFrm (fun f => { f with atOrigin := true, nextB := nb, period := 1000 * s.rd Reg.gaitFrmPeriod })

theorem State.timerStarted_spec (s : State) (nb : Nat) :
    BoundaryTaken s (s.timerStarted nb) ∧ (s.timerStarted nb).bit Reg.gaitStat 6 = true ∧ (s.timerStarted nb).frm.nextB = nb :=
  ⟨⟨rfl, State.rd_putB_ne s _ _ (by decide)⟩, (State.bit_putB s _ (by decide) _).trans (if_pos rfl), rfl⟩

section
variable {l : LinkRec} {d : Nat} (hup : s.hitch.up = some p)
include hup

theorem State.recTime_noBoundary (h : l.nextBoundary = 0) : s.recTime p l d = s.timeTaken l d := by
  unfold State.recTime
  rw [if_neg (not_not_intro hup)]
  exact if_pos h

/-- A boundary given is taken by the frame in progress, or starts the frame timer. -/
theorem State.recTime_taken (h : l.nextBoundary ≠ 0) : s.recTime p l d = if s.bit Reg.gaitStat 6 = true
    then (s.timeTaken l d).boundaryMoved l.nextBoundary.toNat else (s.timeTaken l d).timerStarted l.nextBoundary.toNat := by
  rw [← State.timeTaken_bit l d 6 (by decide)]
  unfold State.recTime
  rw [if_neg (not_not_intro hup)]
  exact if_neg h

/-- A wheel whose frame timer runs takes the boundary for the frame in progress. -/
theorem State.recTime_running (h : l.nextBoundary ≠ 0) (hrun : s.bit Reg.gaitStat 6 = true) :
    BoundaryTaken (s.timeTaken l d) (s.recTime p l d) ∧ (s.recTime p l d).regs = (s.timeTaken l d).regs
      ∧ (s.recTime p l d).frm = s.frm.boundaryTaken l.nextBoundary.toNat := by
  rw [State.recTime_taken hup h, if_pos hrun]
  exact State.boundaryMoved_spec _ _

/-- One whose frame timer stands starts it with the boundary. -/
theorem State.recTime_starting (h : l.nextBoundary ≠ 0) (hrun : s.bit Reg.gaitStat 6 = false) :
    BoundaryTaken (s.timeTaken l d) (s.recTime p l d) ∧ (s.recTime p l d).bit Reg.gaitStat 6 = true
      ∧ (s.recTime p l d).frm.nextB = l.nextBoundary.toNat := by
  rw [State.recTime_taken hup h, if_neg (by rw [hrun]; decide)]
  exact State.timerStarted_spec _ _

/-- The time base, memory, the tiles and the frame number after a TIME record, whatever boundary it gives. -/
theorem State.recTime_frame : (s.recTime p l d).time = max s.time (l.leadTime.toNat + d) ∧ (s.recTime p l d).mem = s.mem
    ∧ (s.recTime p l d).tiles = s.tiles ∧ (s.recTime p l d).frameNum = s.frameNum
    ∧ (s.recTime p l d).hitch.bcasts = s.hitch.bcasts ∧ (s.recTime p l d).hitch.outbox = s.hitch.outbox := by
  have hnum : (s.timeTaken l d).frameNum = s.frameNum := State.timeTaken_rd l d (by decide)
  have taken : ∀ {t : State}, BoundaryTaken (s.timeTaken l d) t → t.time = max s.time (l.leadTime.toNat + d) ∧ t.mem = s.mem
      ∧ t.tiles = s.tiles ∧ t.frameNum = s.frameNum ∧ t.hitch.bcasts = s.hitch.bcasts ∧ t.hitch.outbox = s.hitch.outbox := by
    rintro t ⟨ht, hn⟩
    rw [hn, hnum, ht]
    exact ⟨rfl, rfl, rfl, rfl, rfl, rfl⟩
  by_cases h : l.nextBoundary = 0
  · rw [State.recTime_noBoundary hup h]
    exact ⟨rfl, rfl, rfl, hnum, rfl, rfl⟩
  cases hrun : s.bit Reg.gaitStat 6
  · exact taken (State.recTime_starting hup h hrun).1
  · exact taken (State.recTime_running hup h hrun).1

/-- A boundary given is the next one, and the frame timer runs. -/
theorem State.recTime_boundary (h : l.nextBoundary ≠ 0) :
    (s.recTime p l d).frm.nextB = l.nextBoundary.toNat ∧ (s.recTime p l d).bit Reg.gaitStat 6 = true := by
  cases hrun : s.bit Reg.gaitStat 6
  · obtain ⟨-, hbit, hnb⟩ := State.recTime_starting (d := d) hup h hrun
    exact ⟨hnb, hbit⟩
  · obtain ⟨-, hregs, hfrm⟩ := State.recTime_running (d := d) hup h hrun
    refine ⟨by rw [hfrm]; rfl, ?_⟩
    rw [State.bit, State.rd, hregs]
    exact (State.timeTaken_bit l d 6 (by decide)).trans hrun

end

/-! ### DETACH (R518) -/

/-- A wheel told to leave: no member, no lead, no route, and its link negotiates anew. -/
def State.leftHitch (s : State) (p : Fin 2) : State :=
  let s := { s.setHitchStat 0 with hitch := { s.hitch with up := none, adopt := none, shifted := false } }
  ((s.put (Reg.sciRoute p) 0).put (Reg.sciPeerCap p) 0).setSciSt p 6

theorem State.recDetach_own {l : LinkRec} (h2 : s.bit Reg.sciHitchStat 2 = false) (hup : s.hitch.up = some p) (hn : l.number.toNat % 4 = s.ownPkg) :
    s.recDetach p l = s.leftHitch p := by
  unfold State.recDetach
  rw [if_neg (by rw [h2]; decide), hup]
  exact if_pos ⟨rfl, hn⟩

theorem State.setHitchStat_regs (s : State) (v : Nat) : s.setHitchStat v = { s with regs := (s.setHitchStat v).regs } := by
  unfold State.setHitchStat
  dsimp only
  split <;> rfl

theorem State.leftHitch_bcasts : (s.leftHitch p).hitch.bcasts = s.hitch.bcasts := by
  unfold State.leftHitch
  rw [(State.setSciSt_linkOnly _ p 6).bcasts, State.put_hitch, State.put_hitch, s.setHitchStat_regs]

end

end Sys2Proof.Machine
end

section
/-! SUPPORT. The statement that messages, records, training and timeouts of the hitch complete: its parts by kind of arrival. -/

namespace Sys2Proof.Machine

open Host

/-! ### Messages -/

section
variable {s : State} {p : Fin 2} {h : SciHdr} {data : List Byte} (hact : SciActive s p) (hdst : h.dst.toNat = s.ownPkg)
include hact hdst

theorem exec_rd_clean (hb : s.hitch.bcasts = []) (hlo : 3 ≤ h.size.toNat) (hhi : h.size.toNat ≤ 8)
    (hr : s.memRange (h.operand.toNat % 2 ^ 42) (2 ^ h.size.toNat) = true) (hbad : s.mem.bad = []) (hsoft : s.mem.soft = []) :
    exec (.rd p h) s = .next (s.replyTo ⟨0x00, h, []⟩ 0 (s.mem.bytes (h.operand.toNat % 2 ^ 42) (2 ^ h.size.toNat))).sciPump := by
  rw [exec_rd_active hact, State.handleMsg_rd hdst, State.serveRd_clean hlo hhi hr hbad hsoft, State.settleBcasts_none]
  exact hb

theorem exec_wr_clean (hb : s.hitch.bcasts = []) (hlo : 3 ≤ h.size.toNat) (hhi : h.size.toNat ≤ 8)
    (hr : s.memRange (h.operand.toNat % 2 ^ 42) (2 ^ h.size.toNat) = true) (hbad : s.mem.bad = []) (hsoft : s.mem.soft = [])
    (hlen : 2 ^ h.size.toNat ≤ data.length) (hst : h.status ≠ 1) (hack : h.ackReq = true) :
    exec (.wr p h data) s
      = .next ((s.memWrite (h.operand.toNat % 2 ^ 42) (data.take (2 ^ h.size.toNat))).replyTo ⟨0x01, h, data⟩ 0 []).sciPump := by
  rw [exec_wr_active hact, State.handleMsg_wr hdst, State.serveWr_ok hlo hhi hlen hr hst, if_pos hack, State.memWrite_clean hbad hsoft,
    State.settleBcasts_none]
  exact hb

section
variable {r : SciReq} (hr : s.hitch.ports[p].reqs.find? (fun r => r.tag == h.tag.toNat && r.dst == h.src.toNat) = some r)
include hr

theorem exec_rdr_read (hop : r.op = 0x00) : exec (.rdr p h data) s =
    .next ((s.modSci p (fun q => { q with reqs := q.reqs.erase r })).readDone h.tag.toNat h.status.toNat data).settleBcasts.sciPump := by
  rw [exec_rdr_active hact, State.handleMsg_response hdst (by decide), State.completeReq_read hr hop]

theorem exec_wra_write (hop : r.op = 0x01) (hst : h.status = 0) : exec (.wra p h) s =
    .next ((s.modSci p (fun q => { q with reqs := q.reqs.erase r })).writeDone h.tag.toNat 0).settleBcasts.sciPump := by
  rw [exec_wra_active hact, State.handleMsg_response hdst (by decide), State.completeReq_write hr hop, hst]
  rfl

omit hact in
/-- An answer to a broadcast's request, with no broadcast under way to take it. -/
theorem State.response_access (hb : s.hitch.bcasts = []) (hop : r.op = 0x40 ∨ r.op = 0x41) (hst : h.status = 0) {op : Nat}
    (hmem : op ∈ [0x10, 0x11, 0x50, 0x51]) : (s.handleMsg p ⟨op, h, data⟩).settleBcasts =
      (s.modSci p (fun q => { q with reqs := q.reqs.erase r })).bcastAnswer h.tag.toNat h.src.toNat (some (leAt data 0 8)) := by
  have hkeep : ∀ u : State, u.hitch.bcasts = [] → (u.bcastAnswer h.tag.toNat h.src.toNat (some (leAt data 0 8))).settleBcasts
      = u.bcastAnswer h.tag.toNat h.src.toNat (some (leAt data 0 8)) := fun u hu => by
    refine State.settleBcasts_none ?_
    unfold State.bcastAnswer
    rw [hu]
    rfl
  rw [State.handleMsg_response hdst hmem, State.completeReq_access hr hop (by rw [hst]; rfl), hkeep]
  exact hb

theorem exec_crr_access (hb : s.hitch.bcasts = []) (hop : r.op = 0x40) (hst : h.status = 0) : exec (.crr p h data) s =
    .next ((s.modSci p (fun q => { q with reqs := q.reqs.erase r })).bcastAnswer h.tag.toNat h.src.toNat (some (leAt data 0 8))).sciPump := by
  rw [exec_crr_active hact, State.response_access hdst hr hb (.inl hop) hst (by decide)]

theorem exec_cwa_access (hb : s.hitch.bcasts = []) (hop : r.op = 0x41) (hst : h.status = 0) : exec (.cwa p h) s =
    .next ((s.modSci p (fun q => { q with reqs := q.reqs.erase r })).bcastAnswer h.tag.toNat h.src.toNat (some (leAt [] 0 8))).sciPump := by
  rw [exec_cwa_active hact, State.response_access hdst hr hb (.inr hop) hst (by decide)]

end

theorem exec_ownVer_clean (hb : s.hitch.bcasts = []) : exec (.ownVer p h) s = .next (s.putF (Reg.hrdTblVer (h.operand.toNat % 16)) 15 0
    (s.fld (Reg.hrdTblVer (h.operand.toNat % 16)) 15 0 + 1)).sciPump := by
  rw [exec_ownVer_active hact, State.handleMsg_ownVer hdst, State.settleBcasts_none]
  · rfl
  · exact hb

theorem exec_msi_clean (hb : s.hitch.bcasts = []) : exec (.msi p h data) s =
    .next ({ s with hitch := { s.hitch with msis := s.hitch.msis ++ [(h.operand.toNat, leAt data 0 8)] } } : State).sciPump := by
  rw [exec_msi_active hact, State.handleMsg_msi hdst, State.settleBcasts_none]
  exact hb

theorem exec_contrib_clean (hb : s.hitch.bcasts = []) (hlead : s.bit Reg.sciHitchStat 2 = true) (hf : s.frameNum ≤ h.operand.toNat % 2 ^ 32)
    (hv : s.hitch.verdict = none) : exec (.contrib p h data) s =
    .next ({ s with hitch := { s.hitch with contribs := s.contribsWith (contribOf ⟨0x31, h, data⟩) } } : State).sciPump := by
  rw [exec_contrib_active hact, State.handleMsg_contrib hdst, State.contribution_kept hlead hf hv, State.settleBcasts_none]
  exact hb

end

/-! ### Records -/

section
variable {s : State} {p : Fin 2} {l : LinkRec} (hon : s.sciOn = true)
include hon

theorem exec_cap_wheel (hst : s.sciSt p = 6) (hb : s.hitch.bcasts = []) (h2 : s.bit Reg.sciHitchStat 2 = false) (hup : s.hitch.up = none) :
    exec (.cap p l) s = .next (s.modSci p (fun q => { q with cap := some l })).sciPump := by
  have hcap : s.recCap p l = s.modSci p (fun q => { q with cap := some l }) := by
    unfold State.recCap
    rw [if_neg (by rw [h2]; decide), hup]
  rw [exec_cap_on hon (.inl hst), hcap, (s.modSci_linkOnly p _).settleBcasts hb]

theorem exec_assign_own (hst : s.sciSt p = 6) (h2 : s.bit Reg.sciHitchStat 2 = false) (hup : s.hitch.up = none)
    (hl : l.serial = s.install.serial) : exec (.assign p l) s = .next (s.takeAssign p l).settleBcasts.sciPump := by
  have htake : s.recAssign p l = s.takeAssign p l := by
    unfold State.recAssign
    rw [if_neg (by rw [h2]; decide), if_pos ⟨by rw [hup]; rfl, hst, hl⟩]
  rw [exec_assign_on hon (.inl hst), htake]

theorem exec_accept_lead (hst : s.sciSt p = 6) (h2 : s.bit Reg.sciHitchStat 2 = true) :
    exec (.accept p l) s = .next (s.leadAccept p l).settleBcasts.sciPump := by
  rw [exec_accept_on hon (.inl hst), State.recAccept, if_pos h2]

theorem exec_refuse_negotiating (hst : s.sciSt p = 6) (hb : s.hitch.bcasts = []) : exec (.refuse p l) s = .next (s.setSciSt p 9).sciPump := by
  rw [exec_refuse_on hon (.inl hst), State.recRefuse, if_pos hst, (s.setSciSt_linkOnly p 9).settleBcasts hb]

/-- A TIME record to a wheel moves its time base; what is due sent leaves it so. -/
theorem exec_time_wheel {d : Nat} (hst : s.sciSt p = 7) (hb : s.hitch.bcasts = []) (hob : s.hitch.outbox = []) (hup : s.hitch.up = some p) :
    ∃ t, exec (.time p l d) s = .next t ∧ t.time = max s.time (l.leadTime.toNat + d) ∧ t.tiles = s.tiles ∧ t.mem = s.mem
      ∧ (l.nextBoundary ≠ 0 → t.frm.nextB = l.nextBoundary.toNat) := by
  obtain ⟨htime, hmem, htiles, -, hbc, hout⟩ := State.recTime_frame (l := l) (d := d) hup
  have hpump : LinkOnly (s.recTime p l d) (s.recTime p l d).sciPump := State.sciPump_linkOnly (hout.trans hob)
  have hexec : exec (.time p l d) s = .next (s.recTime p l d).sciPump := by
    rw [exec_time_on hon (.inr hst), State.settleBcasts_none (hbc.trans hb)]
  refine ⟨_, hexec, ?_⟩
  unfold LinkOnly at hpump
  rw [hpump]
  exact ⟨htime, htiles, hmem, fun h => (State.recTime_boundary hup h).1⟩

theorem exec_detach_wheel (hst : s.sciSt p = 7) (hb : s.hitch.bcasts = []) (hup : s.hitch.up = some p) (h2 : s.bit Reg.sciHitchStat 2 = false)
    (hn : l.number.toNat % 4 = s.ownPkg) : exec (.detach p l) s = .next (s.recDetach p l).sciPump := by
  rw [exec_detach_on hon (.inr hst), State.recDetach_own h2 hup hn, State.settleBcasts_none (State.leftHitch_bcasts.trans hb)]

end

/-! ### Training and timeouts -/

/-- A request whose time is over is found by its TAG and destination as by its TAG alone. -/
theorem find_tag_dst {l : List SciReq} {tag : Nat} {r : SciReq} (h : l.find? (fun r => r.tag == tag) = some r) :
    l.find? (fun x => x.tag == r.tag && x.dst == r.dst) = some r := by
  obtain ⟨htag, as, bs, rfl, has⟩ := List.find?_eq_some_iff_append.1 h
  have hr : r.tag = tag := by simpa using htag
  refine List.find?_eq_some_iff_append.2 ⟨by simp, as, bs, rfl, fun a ha => ?_⟩
  have := has a ha
  simp only [Bool.not_eq_true', beq_eq_false_iff_ne, ne_eq] at this
  simp [hr, this]

/-- The request is still outstanding once its timeout is counted. -/
theorem State.timedOut_find {s : State} {p : Fin 2} {tag : BitVec 16} {r : SciReq}
    (hr : s.hitch.ports[p].reqs.find? (fun r => r.tag == tag.toNat) = some r) : ({ s with time := max s.time r.due }.count (Cnt.sciCntTmo p)).hitch.ports[p].reqs.find?
    (fun x => x.tag == r.tag && x.dst == r.dst) = some r := by
  rw [State.count_eq]
  exact find_tag_dst hr

section
variable {s : State} {p : Fin 2} (hon : s.sciOn = true)
include hon

theorem exec_sciStateTimeout_caps (hst : s.sciSt p = 5) (hb : s.hitch.bcasts = []) :
    exec (.sciStateTimeout p) s = .next (({ s with time := max s.time (s.hitch.ports[p].entered + 100000) } : State).setSciSt p 1).sciPump := by
  have hlim : s.atLimit p = { s with time := max s.time (s.hitch.ports[p].entered + 100000) } := s.atLimit_some p (by rw [hst]; rfl)
  show execSciStateTimeout p s = _
  rw [execSciStateTimeout, s.sciDo_on _ hon, hlim]
  generalize hu : ({ s with time := max s.time (s.hitch.ports[p].entered + 100000) } : State) = u
  have hu5 : u.sciSt p = 5 := by subst hu; exact hst
  have hub : u.hitch.bcasts = [] := by subst hu; exact hb
  rw [← (u.setSciSt_linkOnly p 1).settleBcasts hub]
  dsimp only
  rw [hu5]
  rfl

theorem exec_sciTrainingSet_lane {lanes : BitVec 4} (hl : lanes ≠ 0) (hst : s.sciSt p = 1) (hb : s.hitch.bcasts = []) :
    exec (.sciTrainingSet p (.laneDetected lanes)) s = .next ((s.modSci p (fun q => { q with lanes := lanes.toNat })).setSciSt p 2).sciPump := by
  rw [exec_sciTrainingSet_on hon, State.trainEvent_laneDetected hst hl,
    ((s.modSci_linkOnly p _).trans (State.setSciSt_linkOnly _ p 2)).settleBcasts hb]

theorem exec_sciFlitReceive_badCrc {f : List Byte} (hst : s.sciSt p = 7) (hb : s.hitch.bcasts = []) (hcrc : leAt f 0xFC 4 ≠ crc32c (f.take 0xFC)) :
    exec (.sciFlitReceive p f) s =
      .next ((s.count (Cnt.sciCntCrc p)).modSci p (fun q => { q with discarding := true, nakDue := true })).sciPump := by
  rw [exec_sciFlitReceive_on hon, s.flitIn_badCrc p (.inr hst) (.inr hcrc),
    ((s.count_linkOnly _ _).trans (State.modSci_linkOnly _ p _)).settleBcasts hb]

theorem exec_sciTimeSend_lead (h2 : s.bit Reg.sciHitchStat 2 = true) (hst : s.sciSt p = 7) (hb : s.hitch.bcasts = []) (hup : s.hitch.up ≠ some p) :
    exec (.sciTimeSend p) s = .next (s.sendRec p 5 { s.ownRec with
      leadTime := BitVec.ofNat 64 s.time, nextBoundary := BitVec.ofNat 64 (if s.bit Reg.gaitStat 6 then s.frm.nextB else 0) }).sciPump := by
  rw [exec_sciTimeSend_on hon (.inl h2), State.sendTime, if_neg (by rintro (h | h) <;> [exact h hst; exact hup h]),
    State.sendRec, (s.modSci_linkOnly p _).settleBcasts hb]

section
variable {tag : BitVec 16} {r : SciReq} (hr : s.hitch.ports[p].reqs.find? (fun r => r.tag == tag.toNat) = some r)
include hr

theorem exec_sciRequestTimeout_read (hop : r.op = 0x00) : exec (.sciRequestTimeout p tag) s = .next ((({ s with time := max s.time r.due }.count
    (Cnt.sciCntTmo p)).modSci p (fun q => { q with reqs := q.reqs.erase r })).readDone r.tag 3 []).settleBcasts.sciPump := by
  rw [exec_sciRequestTimeout_on hon hr, State.completeReq_read (State.timedOut_find hr) hop]

theorem exec_sciRequestTimeout_write (hop : r.op = 0x01) : exec (.sciRequestTimeout p tag) s = .next (((({ s with time := max s.time r.due }.count
    (Cnt.sciCntTmo p)).modSci p (fun q => { q with reqs := q.reqs.erase r })).count (Cnt.sciCntLost p)).writeDone r.tag 3).settleBcasts.sciPump := by
  rw [exec_sciRequestTimeout_on hon hr, State.completeReq_write (State.timedOut_find hr) hop, if_neg (by decide)]

end

theorem exec_hitchBroadcastTimeout_frame {b : Bcast} {bs : List Bcast} (hbc : s.hitch.bcasts = b :: bs) :
    ∃ t, exec .hitchBroadcastTimeout s = .next t ∧ t.hitch.bcasts = bs ∧ t.time = max s.time b.until_ ∧ t.tiles = s.tiles ∧ t.mem = s.mem := by
  refine ⟨_, exec_hitchBroadcastTimeout_on hon hbc, ?_⟩
  generalize hu : ({ s with time := max s.time b.until_ } : State) = u
  have ht : u.time = max s.time b.until_ ∧ u.tiles = s.tiles ∧ u.mem = s.mem := by subst hu; exact ⟨rfl, rfl, rfl⟩
  have hbs : u.hitch.bcasts.erase b = bs := by
    subst hu
    show s.hitch.bcasts.erase b = bs
    rw [hbc, List.erase_cons_head]
  rw [(u.bcastFinish_answered b).2]
  exact ⟨hbs, ht⟩

theorem exec_wheelAwaitLog_frame (h2 : s.bit Reg.sciHitchStat 2 = false) (h3 : s.bit Reg.sciHitchStat 3 = false) :
    ∃ t, exec .wheelAwaitLog s = .next t ∧ t.time = max s.time ((s.time / 1000000000 + 1) * 1000000000)
      ∧ t = { s with time := t.time, regs := t.regs, log := t.log } := by
  refine ⟨_, exec_wheelAwaitLog_on hon h2 h3, ?_⟩
  rw [State.logEvent_eq]
  exact ⟨rfl, rfl⟩

end

/-- Settles O60: each arrival's handling, with no broadcast to complete, and the frame of what is sent. -/
theorem hitchCompletes : Obligations.HitchCompletes := by
  refine ⟨fun s p h data hact hdst hb => ⟨?_, ?_, ?_, ?_, ?_⟩, fun s p l hon hst hb => ⟨?_, ?_, ?_⟩, fun s p l d hon hst hb hob hup h2 => ⟨?_, ?_⟩,
    fun s p hon hb => ⟨?_, ?_, ?_, ?_, ?_, ?_, fun s hon => ⟨?_, ?_, ?_⟩⟩⟩
  case refine_1 =>
    exact fun hlo hhi hr hbad hsoft => ⟨exec_rd_clean hact hdst hb hlo hhi hr hbad hsoft, exec_wr_clean hact hdst hb hlo hhi hr hbad hsoft⟩
  case refine_2 =>
    exact fun r hr => ⟨exec_rdr_read hact hdst hr, exec_wra_write hact hdst hr, exec_crr_access hact hdst hr hb, exec_cwa_access hact hdst hr hb⟩
  case refine_3 =>
    refine ⟨?_, ?_, exec_ownVer_clean hact hdst hb, exec_msi_clean hact hdst hb⟩
    · rw [exec_ownPush_active hact, State.handleMsg_ownPush hdst]
    · rw [exec_ownDone_active hact, State.handleMsg_ownDone hdst]
  case refine_4 => exact fun hlead hf hv => ⟨_, exec_contrib_clean hact hdst hb hlead hf hv, List.getLast?_concat⟩
  case refine_5 =>
    intro off _ hmir ha harea hsize hsel hw
    refine ⟨fun hok => ?_, fun hok => ?_⟩
    · rw [exec_cwr_active hact, State.handleMsg_cwr hdst, State.serveDebug_write rfl ha hmir harea hsize hsel hw hok]
    · rw [exec_crd_active hact, State.handleMsg_crd hdst, State.serveDebug_read (show (0x40 : Nat) ≠ 0x41 by decide) ha hmir harea hsize hsel hw hok]
  case refine_6 => exact fun h2 hup => ⟨exec_cap_wheel hon hst hb h2 hup, exec_assign_own hon hst h2 hup⟩
  case refine_7 => exact exec_accept_lead hon hst
  case refine_8 => exact exec_refuse_negotiating hon hst hb
  case refine_9 => exact exec_time_wheel hon hst hb hob hup
  case refine_10 => exact exec_detach_wheel hon hst hb hup h2
  case refine_11 => exact fun lanes hl hst => exec_sciTrainingSet_lane hon hl hst hb
  case refine_12 => exact fun hst => exec_sciStateTimeout_caps hon hst hb
  case refine_13 => exact fun f hst _ hcrc => exec_sciFlitReceive_badCrc hon hst hb hcrc
  case refine_14 => exact fun hst hne hr => exec_sciAckTimeout_replay hon (.inr hst) hne hr
  case refine_15 => exact fun h2 hst hup => exec_sciTimeSend_lead hon h2 hst hb hup
  case refine_16 => exact fun tag r hr => ⟨exec_sciRequestTimeout_read hon hr, exec_sciRequestTimeout_write hon hr⟩
  case refine_17 => exact fun v e hv he => exec_contribWaitExpiry_on hon hv he
  case refine_18 => exact fun b bs hbc => exec_hitchBroadcastTimeout_frame hon hbc
  case refine_19 => exact exec_wheelAwaitLog_frame hon

end Sys2Proof.Machine
end

section
/-! SUPPORT. Messages passed on, ownership pushes and contributions (R500, R508, R509, R512, R513, R660), and the statement on messages that reach an
active port. -/

namespace Sys2Proof.Machine

open Host

section
variable {s : State} {p : Fin 2}

/-! ### Routing (R500) -/

theorem State.rd64_count64 (s : State) (o n : Nat) : (s.count64 o n).rd64 o = (s.rd64 o + n) % 2 ^ 64 :=
  (State.rd64_put64 s o _).trans (Nat.mod_mod _ _)

/-- A message for another package goes to the queue of the other port where that leads to it, and is counted there. -/
theorem State.forwardMsg_routed (m : SciMsg) (hr : bitN (s.rd (Reg.sciRoute (1 - p : Fin 2))) m.hdr.dst.toNat = true) :
    (s.forwardMsg p m).hitch.ports[(1 - p : Fin 2)].queue = s.hitch.ports[(1 - p : Fin 2)].queue ++ [(1, m)]
      ∧ (s.forwardMsg p m).rd64 (Reg.sciCntFwd (1 - p : Fin 2)) = (s.rd64 (Reg.sciCntFwd (1 - p : Fin 2)) + 1) % 2 ^ 64
      ∧ (s.forwardMsg p m).mem = s.mem := by
  unfold State.forwardMsg
  rw [if_pos hr]
  refine ⟨?_, State.rd64_count64 _ _ _, rfl⟩
  rw [State.count64, State.put64_hitch, State.modSci_self]

/-- One without a route that asks for no answer is dropped and counted. -/
theorem State.forwardMsg_dropped (m : SciMsg) (hr : bitN (s.rd (Reg.sciRoute (1 - p : Fin 2))) m.hdr.dst.toNat = false) (hm : m.asks = false) :
    s.forwardMsg p m = s.count (Cnt.sciCntNoroute p) := by
  unfold State.forwardMsg
  rw [if_neg (by rw [hr]; decide), if_neg (by rw [hm]; decide)]

/-! ### VERSION (R513) -/

theorem State.ownVer_spec (m : SciMsg) :
    (s.ownVer m).fld (Reg.hrdTblVer (m.hdr.operand.toNat % 16)) 15 0 = (s.fld (Reg.hrdTblVer (m.hdr.operand.toNat % 16)) 15 0 + 1) % 2 ^ 16
      ∧ RegsKept s (s.ownVer m) [Reg.hrdTblVer (m.hdr.operand.toNat % 16)] ∧ s.ownVer m = { s with regs := (s.ownVer m).regs } :=
  ⟨State.fld_putF_self s (by decide) (by decide), s.putF_kept _ _ _ _, rfl⟩

/-! ### The step of an inbox (R512) -/

/-- A message of the inbox's own step starts nothing. -/
theorem State.inboxStep_same {k step : Nat} (h : bitsN (s.rd (Reg.sciInboxStat k)) 31 24 = step % 256) : s.inboxStep k step = s := by
  unfold State.inboxStep
  exact if_pos h

/-- The status word of an inbox and the counts of the inboxes set. -/
def State.inboxSet (s : State) (k v : Nat) (cnt lost : List (Nat × Nat)) : State :=
  { s.put (Reg.sciInboxStat k) v with hitch := { s.hitch with inboxCnt := cnt, halfLost := lost } }

theorem State.inboxSet_mem (k v : Nat) (cnt lost : List (Nat × Nat)) : (s.inboxSet k v cnt lost).mem = s.mem := rfl

theorem State.inboxSet_rd (k v : Nat) (cnt lost : List (Nat × Nat)) (o : Nat) : (s.inboxSet k v cnt lost).rd o = (s.put (Reg.sciInboxStat k) v).rd o := rfl

/-- One of another step starts that step's counts. -/
theorem State.inboxStep_new {k step : Nat} (h : ¬ bitsN (s.rd (Reg.sciInboxStat k)) 31 24 = step % 256) :
    s.inboxStep k step = s.inboxSet k (putBits (putBits (s.rd (Reg.sciInboxStat k)) 31 24 step) 23 20 0)
      (s.hitch.inboxCnt.filter (fun x => x.1 ≠ k)) (s.hitch.halfLost.filter (fun x => x.1 ≠ k)) := by
  unfold State.inboxStep
  exact if_neg h

theorem State.inboxStep_kept (k step : Nat) : RegsKept s (s.inboxStep k step) [Reg.sciInboxStat k] := by
  by_cases h : bitsN (s.rd (Reg.sciInboxStat k)) 31 24 = step % 256
  · rw [State.inboxStep_same h]
    exact RegsKept.refl s _
  · rw [State.inboxStep_new h]
    intro o ho
    rw [State.inboxSet_rd]
    exact s.put_kept _ _ o ho

theorem State.inboxStep_mem (k step : Nat) : (s.inboxStep k step).mem = s.mem := by
  by_cases h : bitsN (s.rd (Reg.sciInboxStat k)) 31 24 = step % 256
  · rw [State.inboxStep_same h]
  · rw [State.inboxStep_new h, State.inboxSet_mem]

/-- The inbox is then at the message's step. -/
theorem State.inboxStep_step (k step : Nat) : bitsN ((s.inboxStep k step).rd (Reg.sciInboxStat k)) 31 24 = step % 256 := by
  by_cases h : bitsN (s.rd (Reg.sciInboxStat k)) 31 24 = step % 256
  · rw [State.inboxStep_same h, h]
  · rw [State.inboxStep_new h, State.inboxSet_rd, State.rd_put_self,
      Nat.mod_eq_of_lt (putBits_lt (by decide) (putBits_lt (by decide) (s.rd_lt _) (by decide)) (by decide)),
      bitsN_putBits_ne (by decide) (by decide), bitsN_putBits_self (by decide)]
    rfl

/-- OWN_DONE marks its source in the step's state. -/
theorem State.ownDone_spec (m : SciMsg) : let k := bitsN m.hdr.operand.toNat 3 0
    bitN ((s.ownDone m).rd (Reg.sciInboxStat k)) (20 + m.hdr.src.toNat) = true
      ∧ bitsN ((s.ownDone m).rd (Reg.sciInboxStat k)) 31 24 = bitsN m.hdr.operand.toNat 15 4 % 256
      ∧ RegsKept s (s.ownDone m) [Reg.sciInboxStat k] ∧ (s.ownDone m).mem = s.mem := by
  intro k
  have hstep := s.inboxStep_step k (bitsN m.hdr.operand.toNat 15 4)
  have hkept := s.inboxStep_kept k (bitsN m.hdr.operand.toNat 15 4)
  have hmem := s.inboxStep_mem k (bitsN m.hdr.operand.toNat 15 4)
  have hdone : s.ownDone m = (s.inboxStep k (bitsN m.hdr.operand.toNat 15 4)).putF (Reg.sciInboxStat k) 23 20
      (bitsN ((s.inboxStep k (bitsN m.hdr.operand.toNat 15 4)).rd (Reg.sciInboxStat k)) 23 20 ||| 2 ^ m.hdr.src.toNat) := rfl
  rw [hdone]
  generalize s.inboxStep k (bitsN m.hdr.operand.toNat 15 4) = u at *
  have hsrc : m.hdr.src.toNat < 4 := m.hdr.src.isLt
  refine ⟨?_, ?_, hkept.trans (u.putF_kept _ _ _ _), (u.putF_mem _ _ _ _).trans hmem⟩
  · rw [State.rd_putF_self u (by decide) (by decide), bitN_putBits (by decide), if_pos (by omega), Nat.add_sub_cancel_left, bitN_or, bitN_two_pow,
      decide_eq_true rfl, Bool.or_true]
  · rw [State.rd_putF_self u (by decide) (by decide), bitsN_putBits_ne (by decide) (by decide), hstep]

/-! ### Ownership pushes (R512, R660) -/

/-- No inbox's status is a word of the counters a push may count. -/
theorem sciInboxStat_apart (o : Nat) : Reg.sciInboxStat (bitsN o 3 0) ∉ ctrWords Cnt.sciCntInboxLost
    ∧ Reg.sciInboxStat (bitsN o 3 0) ∉ ctrWords Cnt.evtCntEngAddr
    ∧ Cnt.sciCntInboxLost.reg ∉ [Reg.sciInboxStat (bitsN o 3 0)] ∧ Cnt.evtCntEngAddr.reg ∉ [Reg.sciInboxStat (bitsN o 3 0)] := by
  have hk : bitsN o 3 0 < 16 := bitsN_lt o 3 0
  generalize bitsN o 3 0 = j at hk
  simp only [ctrWords, Cnt.sciCntInboxLost, Cnt.evtCntEngAddr, Reg.sciInboxStat, Reg.sciCntInboxLost, Reg.sciCntOvf, Reg.evtCntEngAddr, Reg.evtOvf,
    List.mem_cons, List.not_mem_nil, or_false]
  omega

/-- A push to a full inbox: dropped and counted, and with the first half of a 128-element row goes the second. -/
def State.pushDropped (u : State) (m : SciMsg) (k : Nat) : State :=
  let s := u.count Cnt.sciCntInboxLost
  if !(bitN m.hdr.operand.toNat 48) ∧ s.fld (Reg.hrdTblCfg k) 3 2 = 3 then
    { s with hitch := { s.hitch with halfLost := (k, m.hdr.src.toNat) :: s.hitch.halfLost } }
  else s

/-- A push to an inbox with room: written to the next slot. -/
def State.pushTaken (u : State) (m : SciMsg) (k : Nat) : State :=
  let base := u.rd64 (Reg.sciInboxBase k)
  let n := bitsN (u.rd (Reg.sciInboxStat k)) 12 0
  let t := (u.engWrite false (bitsN base 43 0 / 64 * 64 + 320 * n) (inboxSlot m u.time) none).2
  let t := t.put (Reg.sciInboxStat k) (putBits (u.rd (Reg.sciInboxStat k)) 12 0 ((n + 1) % bitsN base 63 48))
  { t with hitch := { t.hitch with inboxCnt := spSet (fun _ => 0) t.hitch.inboxCnt k (spGet (fun _ => 0) u.hitch.inboxCnt k + 1) } }

/-- A push once the inbox is at its step: by whether its base is set and has room (R512, R660), where no half of a row was dropped. -/
def State.pushAt (u : State) (m : SciMsg) (k : Nat) : State :=
  if u.isUnset (Reg.sciInboxBase k) 2 then (u.engWrite true 0 (inboxSlot m u.time) none).2
  else if bitsN (u.rd64 (Reg.sciInboxBase k)) 63 48 ≤ spGet (fun _ => 0) u.hitch.inboxCnt k then u.pushDropped m k
  else u.pushTaken m k

theorem State.pushAt_unset (u : State) (m : SciMsg) {k : Nat} (h : u.isUnset (Reg.sciInboxBase k) 2 = true) :
    u.pushAt m k = u.count Cnt.evtCntEngAddr := by
  unfold State.pushAt
  rw [if_pos h]
  rfl

theorem State.ownPush_at {m : SciMsg} (hlost : (s.inboxStep (bitsN m.hdr.operand.toNat 3 0) (bitsN m.hdr.operand.toNat 15 4)).hitch.halfLost = []) :
    s.ownPush m = (s.inboxStep (bitsN m.hdr.operand.toNat 3 0) (bitsN m.hdr.operand.toNat 15 4)).pushAt m (bitsN m.hdr.operand.toNat 3 0) := by
  unfold State.ownPush
  dsimp only
  rw [hlost]
  exact if_neg (by simp)

/-- A push to a full inbox changes neither memory nor the inbox's status, and is counted. -/
theorem State.pushDropped_spec (u : State) (m : SciMsg) (k : Nat) : (u.pushDropped m k).mem = u.mem
    ∧ ∀ o, (u.pushDropped m k).rd o = (u.count Cnt.sciCntInboxLost).rd o := by
  have hmem : (u.count Cnt.sciCntInboxLost).mem = u.mem := by rw [State.count_eq]
  unfold State.pushDropped
  dsimp only
  split
  · exact ⟨hmem, fun _ => rfl⟩
  · exact ⟨hmem, fun _ => rfl⟩

/-- A push to an inbox with room moves its slot and its count on. -/
theorem State.pushTaken_spec (u : State) (m : SciMsg) (k : Nat) : let slots := bitsN (u.rd64 (Reg.sciInboxBase k)) 63 48
    bitsN ((u.pushTaken m k).rd (Reg.sciInboxStat k)) 12 0 = (bitsN (u.rd (Reg.sciInboxStat k)) 12 0 + 1) % slots % 2 ^ 13
      ∧ spGet (fun _ => 0) (u.pushTaken m k).hitch.inboxCnt k = spGet (fun _ => 0) u.hitch.inboxCnt k + 1 := by
  unfold State.pushTaken
  dsimp only
  generalize (u.engWrite false _ _ none).2 = t
  refine ⟨(congrArg (bitsN · 12 0) (State.rd_put_self t (Reg.sciInboxStat k) _)).trans ?_, spGet_set_self _ _ _⟩
  rw [Nat.mod_eq_of_lt (putBits_lt (by decide) (u.rd_lt _) (by decide)), bitsN_putBits_self (by decide)]

/-- A push to an inbox whose base is set is dropped and counted where the inbox is full, and else takes the next slot. -/
theorem State.ownPush_room (h : SciHdr) (data : List Byte) : let k := bitsN h.operand.toNat 3 0
    let s1 := s.inboxStep k (bitsN h.operand.toNat 15 4)
    let slots := bitsN (s1.rd64 (Reg.sciInboxBase k)) 63 48
    let used := spGet (fun _ => 0) s1.hitch.inboxCnt k
    let t := s.ownPush ⟨0x20, h, data⟩;
    s1.hitch.halfLost = [] → s1.isUnset (Reg.sciInboxBase k) 2 = false →
      (slots ≤ used → t.mem = s.mem ∧ t.rd (Reg.sciInboxStat k) = s1.rd (Reg.sciInboxStat k)
        ∧ t.rd Cnt.sciCntInboxLost.reg = min 0xFFFFFFFF (s.rd Cnt.sciCntInboxLost.reg + 1))
      ∧ (used < slots → bitsN (t.rd (Reg.sciInboxStat k)) 12 0 = (bitsN (s1.rd (Reg.sciInboxStat k)) 12 0 + 1) % slots % 2 ^ 13
        ∧ spGet (fun _ => 0) t.hitch.inboxCnt k = used + 1) := by
  intro k s1 slots used t hl hset
  have hpush : t = s1.pushAt ⟨0x20, h, data⟩ k := State.ownPush_at hl
  obtain ⟨hapart, -, hne⟩ := sciInboxStat_apart h.operand.toNat
  have hkept : RegsKept s s1 [Reg.sciInboxStat k] := s.inboxStep_kept k _
  have hmem : s1.mem = s.mem := s.inboxStep_mem k _
  rw [hpush, State.pushAt, if_neg (by rw [hset]; decide)]
  clear_value s1
  refine ⟨fun hfull => ?_, fun hroom => ?_⟩
  · obtain ⟨hm, hrd⟩ := s1.pushDropped_spec ⟨0x20, h, data⟩ k
    rw [if_pos hfull]
    refine ⟨hm.trans hmem, (hrd _).trans (s1.count_kept _ _ _ hapart), (hrd _).trans ((s1.rd_count _ _ (by decide)).trans ?_)⟩
    rw [hkept _ hne.1]
  · rw [if_neg (Nat.not_le.2 hroom)]
    exact s1.pushTaken_spec _ k

/-- A push to an inbox whose base is unset is an access to a reserved address. -/
theorem State.ownPush_unset (h : SciHdr) (data : List Byte) : let k := bitsN h.operand.toNat 3 0
    let s1 := s.inboxStep k (bitsN h.operand.toNat 15 4)
    let t := s.ownPush ⟨0x20, h, data⟩;
    s1.hitch.halfLost = [] → s1.isUnset (Reg.sciInboxBase k) 2 = true → t.mem = s.mem ∧ t.rd (Reg.sciInboxStat k) = s1.rd (Reg.sciInboxStat k)
      ∧ t.rd Cnt.evtCntEngAddr.reg = min 0xFFFFFFFF (s.rd Cnt.evtCntEngAddr.reg + 1) := by
  intro k s1 t hl hunset
  have hpush : t = s1.pushAt ⟨0x20, h, data⟩ k := State.ownPush_at hl
  obtain ⟨-, hapart, hne⟩ := sciInboxStat_apart h.operand.toNat
  have hkept : RegsKept s s1 [Reg.sciInboxStat k] := s.inboxStep_kept k _
  have hmem : s1.mem = s.mem := s.inboxStep_mem k _
  clear_value s1
  rw [hpush, s1.pushAt_unset _ hunset]
  refine ⟨?_, s1.count_kept _ _ _ hapart, (s1.rd_count _ _ (by decide)).trans ?_⟩
  · rw [State.count_eq, ← hmem]
  · rw [hkept _ hne.2]

/-! ### Contributions (R508, R509) -/

theorem State.contribution_member (m : SciMsg) (h2 : s.bit Reg.sciHitchStat 2 = false) : s.contribution m = s := by
  unfold State.contribution
  exact if_pos (by rw [h2]; decide)

/-- One to a frame that is over counts as late. -/
theorem State.contribution_late {m : SciMsg} (h2 : s.bit Reg.sciHitchStat 2 = true) (he : s.epoch? (m.hdr.operand.toNat % 2 ^ 32) = none)
    (hf : m.hdr.operand.toNat % 2 ^ 32 < s.frameNum) (hn : s.frm.nextOpen = none) : s.contribution m = s.count Cnt.sciCntContribLate := by
  unfold State.contribution
  extract_lets f c open_ cs
  have hopen : open_ = false := by
    show ((s.epoch? f).isSome || decide (s.frameNum ≤ f) || _) = false
    rw [he, hn, decide_eq_false (Nat.not_le.2 hf)]
    rfl
  rw [if_neg (by rw [h2]; decide), if_pos (by rw [hopen]; decide)]

end

/-- Settles O56: the handling of a message by its opcode, with the law of each handling. -/
theorem sciArrivals : Obligations.SciArrivals := by
  refine ⟨fun s p h data => ⟨fun hact x hx => ?_, fun hon hst => State.arrive_inactive hon hst _ _ _, fun hdst op => ⟨?_, ?_⟩, fun hdst => ?_⟩,
    fun s p h data hdst => ?_⟩
  case refine_1 =>
    simp only [List.mem_cons, List.not_mem_nil, or_false] at hx
    rcases hx with rfl | rfl | rfl | rfl | rfl | rfl | rfl | rfl | rfl | rfl | rfl | rfl | rfl
    · exact exec_rd_active hact h
    · exact exec_wr_active hact h data
    · exact exec_rdr_active hact h data
    · exact exec_wra_active hact h
    · exact exec_ownPush_active hact h data
    · exact exec_ownDone_active hact h
    · exact exec_ownVer_active hact h
    · exact exec_msi_active hact h data
    · exact exec_contrib_active hact h data
    · exact exec_crd_active hact h
    · exact exec_cwr_active hact h data
    · exact exec_crr_active hact h data
    · exact exec_cwa_active hact h
  case refine_2 =>
    intro hr
    rw [State.handleMsg, if_pos hdst]
    exact State.forwardMsg_routed _ hr
  case refine_3 =>
    intro hr hm
    rw [State.handleMsg, if_pos hdst]
    exact State.forwardMsg_dropped _ hr hm
  case refine_4 =>
    intro a n rd wr
    have hrd : s.handleMsg p rd = s.serveRd rd := State.handleMsg_rd hdst
    have hwr : s.handleMsg p wr = s.serveWr wr := State.handleMsg_wr hdst
    have hver : s.handleMsg p ⟨0x22, h, []⟩ = s.ownVer ⟨0x22, h, []⟩ := State.handleMsg_ownVer hdst
    rw [hrd, hwr, hver]
    exact ⟨State.serveRd_refused (m := rd), State.serveRd_clean (m := rd), State.serveWr_ok (m := wr), State.serveWr_refused (m := wr), State.ownVer_spec _, State.handleMsg_msi hdst,
      fun hnone op hop => by rw [State.handleMsg_response hdst hop, State.completeReq_none hnone], fun m st bs => ⟨_, rfl, rfl, rfl, rfl, rfl⟩⟩
  case refine_5 =>
    intro o k s1 slots used w
    have hdone : s.handleMsg p ⟨0x21, h, []⟩ = s.ownDone ⟨0x21, h, []⟩ := State.handleMsg_ownDone hdst
    have hpush : s.handleMsg p ⟨0x20, h, data⟩ = s.ownPush ⟨0x20, h, data⟩ := State.handleMsg_ownPush hdst
    have hcontrib : s.handleMsg p ⟨0x31, h, data⟩ = s.contribution ⟨0x31, h, data⟩ := State.handleMsg_contrib hdst
    rw [hdone, hpush, hcontrib]
    refine ⟨State.ownDone_spec ⟨0x21, h, []⟩, State.ownPush_room h data, State.ownPush_unset h data,
      State.contribution_member _, State.contribution_late (m := ⟨0x31, h, data⟩), State.contribution_kept (m := ⟨0x31, h, data⟩)⟩

end Sys2Proof.Machine
end

section
/-! SUPPORT. The members of the hitch that a package knows, through all that the completion of a request can do to a tile: faults, replays, rows that
land, slots that fill. None of it adds a member or takes one away. -/

namespace Sys2Proof.Machine

open Host

/-- The members of the hitch are those of a list. -/
def State.HasMembers (s : State) (ms : List Member) : Prop := s.hitch.members = ms

section
variable {s : State} {ms : List Member} (t : TileId)

/-! ### Basic changes -/

theorem hasMembers_of_hitch {u : State} (h : u.hitch = s.hitch) : u.HasMembers ms ↔ s.HasMembers ms := by
  rw [State.HasMembers, h, State.HasMembers]

@[simp] theorem State.put_hasMembers (o v : Nat) : (s.put o v).HasMembers ms ↔ s.HasMembers ms := hasMembers_of_hitch (s.put_hitch o v)

@[simp] theorem State.put64_hasMembers (o v : Nat) : (s.put64 o v).HasMembers ms ↔ s.HasMembers ms := hasMembers_of_hitch (s.put64_hitch o v)

@[simp] theorem State.putF_hasMembers (o hi lo v : Nat) : (s.putF o hi lo v).HasMembers ms ↔ s.HasMembers ms := hasMembers_of_hitch (s.putF_hitch o hi lo v)

@[simp] theorem State.putB_hasMembers (o i : Nat) (b : Bool) : (s.putB o i b).HasMembers ms ↔ s.HasMembers ms := hasMembers_of_hitch (s.putB_hitch o i b)

@[simp] theorem State.orReg_hasMembers (o v : Nat) : (s.orReg o v).HasMembers ms ↔ s.HasMembers ms := s.put_hasMembers o _

@[simp] theorem State.count_hasMembers (c : Ctr) (n : Nat) : (s.count c n).HasMembers ms ↔ s.HasMembers ms :=
  hasMembers_of_hitch (by rw [s.count_eq])

@[simp] theorem State.count64_hasMembers (o n : Nat) : (s.count64 o n).HasMembers ms ↔ s.HasMembers ms := s.put64_hasMembers o _

@[simp] theorem State.logEvent_hasMembers (code unit src data : Nat) : (s.logEvent code unit src data).HasMembers ms ↔ s.HasMembers ms :=
  hasMembers_of_hitch (by rw [s.logEvent_eq])

@[simp] theorem State.modTile_hasMembers (f : Tile → Tile) : (s.modTile t f).HasMembers ms ↔ s.HasMembers ms := hasMembers_of_hitch (s.modTile_hitch t f)

@[simp] theorem State.modEpoch_hasMembers (f : Nat) (g : Epoch → Epoch) : (s.modEpoch f g).HasMembers ms ↔ s.HasMembers ms :=
  hasMembers_of_hitch (s.modEpoch_hitch f g)

@[simp] theorem State.degrade_hasMembers (f : Nat) : (s.degrade f).HasMembers ms ↔ s.HasMembers ms := s.modEpoch_hasMembers f _

@[simp] theorem State.modSci_hasMembers (p : Fin 2) (f : SciPort → SciPort) : (s.modSci p f).HasMembers ms ↔ s.HasMembers ms := Iff.rfl

@[simp] theorem State.fresh_hasMembers (k : Nat) : (s.fresh k).2.HasMembers ms ↔ s.HasMembers ms := Iff.rfl

/-- Either branch of a choice. -/
@[simp] theorem State.ite_hasMembers {c : Prop} [Decidable c] {a b : State} :
    (if c then a else b).HasMembers ms ↔ if c then a.HasMembers ms else b.HasMembers ms := by
  split <;> rfl

/-- A run of steps none of which changes the members. -/
theorem State.foldl_hasMembers {α : Type} (l : List α) (f : State → α → State) (hf : ∀ u x, (f u x).HasMembers ms ↔ u.HasMembers ms) (s : State) :
    (l.foldl f s).HasMembers ms ↔ s.HasMembers ms := by
  induction l generalizing s with
  | nil => rfl
  | cons x l ih => rw [List.foldl_cons, ih, hf]

/-! ### Memory and what is sent -/

@[simp] theorem State.countBad_hasMembers (ws : List (Nat × Bool)) : (s.countBad ws).HasMembers ms ↔ s.HasMembers ms :=
  State.foldl_hasMembers _ _ (fun u w => by split <;> [rfl; (split <;> exact u.count_hasMembers _ _)]) s

@[simp] theorem State.countSoft_hasMembers (a n : Nat) : (s.countSoft a n).HasMembers ms ↔ s.HasMembers ms := by
  unfold State.countSoft
  split
  · rfl
  · exact State.foldl_hasMembers _ _ (fun u w => by split <;> exact u.count_hasMembers _ _) s

@[simp] theorem State.readMeets_hasMembers (a n : Nat) : (s.readMeets a n).HasMembers ms ↔ s.HasMembers ms := by simp [State.readMeets]

@[simp] theorem State.memWrite_hasMembers (a : Nat) (bs : List Byte) : (s.memWrite a bs).HasMembers ms ↔ s.HasMembers ms := by
  unfold State.memWrite
  exact (State.countBad_hasMembers _).trans (State.countSoft_hasMembers _ _)

@[simp] theorem State.tileRead_hasMembers (a n : Nat) : (s.tileRead a n).2.2.HasMembers ms ↔ s.HasMembers ms := by
  unfold State.tileRead
  split
  · exact State.fresh_hasMembers n
  · dsimp only
    split
    · exact State.countSoft_hasMembers _ _
    · exact State.readMeets_hasMembers _ _

@[simp] theorem State.sciRead_hasMembers (n a size : Nat) : (s.sciRead n a size).2.HasMembers ms ↔ s.HasMembers ms := Iff.rfl

@[simp] theorem State.sciWrite_hasMembers (n a size : Nat) (bs : List Byte) : (s.sciWrite n a size bs).2.HasMembers ms ↔ s.HasMembers ms := Iff.rfl

@[simp] theorem State.pcieWrite_hasMembers (a : Nat) (cells : List Host.Cell) : (s.pcieWrite a cells).HasMembers ms ↔ s.HasMembers ms := Iff.rfl

/-! ### Exceptions of a tile -/

@[simp] theorem State.degradeTag_hasMembers (tag : Option Nat) : (s.degradeTag tag).HasMembers ms ↔ s.HasMembers ms := by
  unfold State.degradeTag
  split
  · rfl
  · split <;> simp

@[simp] theorem State.unitErr_hasMembers (reg : Nat) (tag : Option Nat) : (s.unitErr reg tag).HasMembers ms ↔ s.HasMembers ms := by
  unfold State.unitErr
  split <;> simp

@[simp] theorem State.settleFences_hasMembers : (s.settleFences t).HasMembers ms ↔ s.HasMembers ms := by
  rw [s.settleFences_eq t, State.modTile_hasMembers]

@[simp] theorem State.startItem_hasMembers : (s.startItem t).HasMembers ms ↔ s.HasMembers ms :=
  hasMembers_of_hitch (by rw [(s.startItem_frame t).2.2])

@[simp] theorem State.accUndefined_hasMembers (spans : List (Nat × Nat × Nat)) : (s.accUndefined t spans).HasMembers ms ↔ s.HasMembers ms := by
  unfold State.accUndefined
  refine State.foldl_hasMembers _ _ (fun u x => ?_) s
  exact (State.modTile_hasMembers t _).trans (u.fresh_hasMembers x.2.2)

@[simp] theorem State.abortStarted_hasMembers (u : UEntry) : (s.abortStarted t u).HasMembers ms ↔ s.HasMembers ms := by
  unfold State.abortStarted
  dsimp only
  split
  case h_9 =>
    split
    · split <;> simp
    · refine (State.foldl_hasMembers _ _ (fun v a => v.putB_hasMembers _ _ _) _).trans ?_
      simp
  all_goals simp

@[simp] theorem State.discardEpoch_hasMembers (g : Nat) : (s.discardEpoch t g).HasMembers ms ↔ s.HasMembers ms := by
  unfold State.discardEpoch
  dsimp only
  refine (State.settleFences_hasMembers t).trans ((State.foldl_hasMembers _ _ (fun u k => ?_) _).trans
    ((State.modTile_hasMembers t _).trans (State.foldl_hasMembers _ _ (fun u e => u.abortStarted_hasMembers t e) s)))
  simp

@[simp] theorem State.handBack_hasMembers (f : Nat) : (s.handBack t f).HasMembers ms ↔ s.HasMembers ms := by simp [State.handBack]

@[simp] theorem State.loseItem_hasMembers (e : Epoch) (p : ProgInfo) (i : Nat) : (s.loseItem e p i).2.HasMembers ms ↔ s.HasMembers ms := by
  unfold State.loseItem
  split
  · rfl
  · exact s.count_hasMembers _ _

/-- Items lost one after another. -/
theorem State.foldl_pair_hasMembers {α : Type} (l : List α) (f : Epoch × State → α → Epoch × State)
    (hf : ∀ x a, (f x a).2.HasMembers ms ↔ x.2.HasMembers ms) (x : Epoch × State) : (l.foldl f x).2.HasMembers ms ↔ x.2.HasMembers ms := by
  induction l generalizing x with
  | nil => rfl
  | cons a l ih => rw [List.foldl_cons, ih, hf]

@[simp] theorem State.spreadLoss_hasMembers (f : Nat) : (s.spreadLoss f).HasMembers ms ↔ s.HasMembers ms := by
  unfold State.spreadLoss
  split
  · rfl
  · split
    · rfl
    · refine (State.modEpoch_hasMembers f _).trans (State.foldl_pair_hasMembers _ _ (fun x pc => ?_) _)
      refine (congrArg (State.HasMembers · ms) (apply_ite Prod.snd _ _ _)).to_iff.trans (State.ite_hasMembers.trans ?_)
      rw [State.loseItem_hasMembers, ite_self]

@[simp] theorem State.loseItems_hasMembers (f : Nat) (is : List Nat) : (s.loseItems f is).HasMembers ms ↔ s.HasMembers ms := by
  unfold State.loseItems
  split
  · rfl
  · split
    · rfl
    · exact (State.spreadLoss_hasMembers f).trans ((State.modEpoch_hasMembers f _).trans
        (State.foldl_pair_hasMembers _ _ (fun x i => State.loseItem_hasMembers _ _ _) _))

@[simp] theorem State.untagNext_hasMembers (b : Fin 2) (i : Nat) : (s.untagNext b i).HasMembers ms ↔ s.HasMembers ms :=
  hasMembers_of_hitch (by rw [s.untagNext_eq])

@[simp] theorem State.handlerExc_hasMembers (word addr : Nat) : (s.handlerExc t word addr).HasMembers ms ↔ s.HasMembers ms := by
  unfold State.handlerExc
  dsimp only
  refine (State.startItem_hasMembers t).trans ((State.foldl_hasMembers _ _ (fun u f => ?_) _).trans
    ((State.foldl_hasMembers _ _ (fun u w => ?_) _).trans ?_))
  · simp
  · simp
  · simp

@[simp] theorem State.tokAdd_hasMembers (k n : Nat) : (s.tokAdd t k n).2.HasMembers ms ↔ s.HasMembers ms := by
  unfold State.tokAdd
  dsimp only
  split <;> simp

@[simp] theorem State.toReplay_hasMembers (e : UEntry) : (s.toReplay t e).HasMembers ms ↔ s.HasMembers ms := by simp [State.toReplay]

@[simp] theorem State.localRein_hasMembers : (s.localRein t).HasMembers ms ↔ s.HasMembers ms := by
  unfold State.localRein
  dsimp only
  split
  · rfl
  · split <;> simp

@[simp] theorem State.raise_hasMembers (x : Exc) (u : Option UEntry) (unit : Option Nat) : (s.raise t x u unit).HasMembers ms ↔ s.HasMembers ms := by
  unfold State.raise
  extract_lets tl seq young pc work rec_ s1 s2 s3 newer
  have h1 : s1.HasMembers ms ↔ s.HasMembers ms := by simp [s1]
  have h2 : s2.HasMembers ms ↔ s.HasMembers ms := (State.count_hasMembers _ _).trans h1
  have h3 : s3.HasMembers ms ↔ s.HasMembers ms := by
    unfold s3
    split
    · rw [State.ite_hasMembers, State.abortStarted_hasMembers, ite_self, h2]
    · exact h2
  split
  · exact (State.handlerExc_hasMembers t _ _).trans h1
  split
  · split
    · dsimp only
      rw [State.put64_hasMembers, State.put_hasMembers, State.modTile_hasMembers]
      split
      · exact (State.toReplay_hasMembers t _).trans h3
      · exact h3
    · split
      · exact (State.toReplay_hasMembers t _).trans h3
      · exact h3
  · rw [State.localRein_hasMembers, State.put64_hasMembers, State.put_hasMembers, State.modTile_hasMembers, h3]

@[simp] theorem State.containWindow_hasMembers : (s.containWindow t).HasMembers ms ↔ s.HasMembers ms := by
  unfold State.containWindow
  split
  · rfl
  · refine State.foldl_hasMembers _ _ (fun v u => ?_) s
    rw [State.toReplay_hasMembers, State.ite_hasMembers, State.abortStarted_hasMembers, ite_self]

@[simp] theorem State.raiseU_hasMembers (x : Exc) (u : UEntry) : (s.raiseU t x u).HasMembers ms ↔ s.HasMembers ms := by simp [State.raiseU]

@[simp] theorem State.raiseC_hasMembers (c : Cause) (addr : Nat) : (s.raiseC t c addr).HasMembers ms ↔ s.HasMembers ms := by simp [State.raiseC]

@[simp] theorem State.modEntry_hasMembers (seq : Nat) (f : UEntry → UEntry) : (s.modEntry t seq f).HasMembers ms ↔ s.HasMembers ms :=
  s.modTile_hasMembers t _

/-! ### Rows of a Hoard unit -/

@[simp] theorem State.quillCount_hasMembers (tag : Option Nat) (c : Ctr) (n : Nat) : (s.quillCount t tag c n).HasMembers ms ↔ s.HasMembers ms := by
  simp [State.quillCount]

@[simp] theorem State.groupCount_hasMembers (tag : Option Nat) (g : Group) (bad : Bool) :
    (s.groupCount t tag g bad).HasMembers ms ↔ s.HasMembers ms := by simp [State.groupCount]

@[simp] theorem State.shardReq_hasMembers (k sh : Nat) : (s.shardReq k sh).HasMembers ms ↔ s.HasMembers ms := by
  unfold State.shardReq
  dsimp only
  split
  · rfl
  · exact State.putF_hasMembers _ _ _ _

@[simp] theorem State.badIndex_hasMembers (tag : Option Nat) (null : Bool) : (s.badIndex t tag null).HasMembers ms ↔ s.HasMembers ms := by
  simp [State.badIndex]

@[simp] theorem State.rowDone_hasMembers : (s.rowDone t).HasMembers ms ↔ s.HasMembers ms := s.count64_hasMembers _ _

@[simp] theorem State.dropReq_hasMembers (q : GatherReq) : (s.dropReq t q).HasMembers ms ↔ s.HasMembers ms := s.modTile_hasMembers t _

@[simp] theorem State.modReq_hasMembers (q q' : GatherReq) : (s.modReq t q q').HasMembers ms ↔ s.HasMembers ms := s.modTile_hasMembers t _

@[simp] theorem State.wroteReq_hasMembers (q : GatherReq) : (s.wroteReq t q).HasMembers ms ↔ s.HasMembers ms := by simp [State.wroteReq]

@[simp] theorem State.modPf_hasMembers (table area : Nat) (f : Prefetch → Prefetch) : (s.modPf t table area f).HasMembers ms ↔ s.HasMembers ms :=
  s.modTile_hasMembers t _

@[simp] theorem State.pfReady_hasMembers (table area i : Nat) : (s.pfReady t table area i).HasMembers ms ↔ s.HasMembers ms := by
  simp [State.pfReady]

@[simp] theorem State.pfLanded_hasMembers (p : Prefetch) (i : Nat) (bs : List Byte) : (s.pfLanded t p i bs).HasMembers ms ↔ s.HasMembers ms := by
  simp [State.pfLanded]

@[simp] theorem State.ringLanded_hasMembers (q : GatherReq) : (s.ringLanded t q).HasMembers ms ↔ s.HasMembers ms := by
  unfold State.ringLanded
  split
  · rfl
  split
  · rfl
  dsimp only
  split
  · rfl
  · rw [State.rowDone_hasMembers, State.modTile_hasMembers, State.ite_hasMembers, State.groupCount_hasMembers, State.modTile_hasMembers, ite_self]

@[simp] theorem State.landReq_hasMembers (q : GatherReq) (bs : List Byte) (bad : Bool) : (s.landReq t q bs bad).HasMembers ms ↔ s.HasMembers ms := by
  unfold State.landReq
  extract_lets s1 s2 k prev off conf ti slot lim lim' base s3 s4 s5
  have h2 : s2.HasMembers ms ↔ s.HasMembers ms := by simp [s2, s1]
  clear_value s2
  split
  · split
    · rw [State.ringLanded_hasMembers, State.ite_hasMembers, State.groupCount_hasMembers, State.modTile_hasMembers, ite_self, h2]
    · rw [State.modTile_hasMembers]
      unfold s5
      split
      · rw [State.modTile_hasMembers, h2]
      · exact h2
  split
  · dsimp only
    rw [State.rowDone_hasMembers, State.modTile_hasMembers, State.ite_hasMembers, State.unitErr_hasMembers, State.count_hasMembers, ite_self, h2]
  split
  · rw [State.pfReady_hasMembers, State.modTile_hasMembers, h2]
  split
  · rw [State.modEntry_hasMembers, h2]
  · rw [State.ite_hasMembers, State.ite_hasMembers, State.ringLanded_hasMembers, State.rowDone_hasMembers, State.modTile_hasMembers, ite_self,
      ite_self, h2]

@[simp] theorem State.gotReq_hasMembers (q : GatherReq) (bs : List Byte) (bad : Bool) : (s.gotReq t q bs bad).HasMembers ms ↔ s.HasMembers ms := by
  unfold State.gotReq
  dsimp only
  split
  · rw [State.landReq_hasMembers, State.modReq_hasMembers]
  · split
    · rw [State.modReq_hasMembers]
    · rw [State.landReq_hasMembers, State.modReq_hasMembers]

@[simp] theorem State.hoardFault_hasMembers (seq : Nat) (c : Cause) (a : Nat) : (s.hoardFault t seq c a).HasMembers ms ↔ s.HasMembers ms := by
  unfold State.hoardFault
  split
  · rw [State.raiseU_hasMembers, State.modTile_hasMembers, State.modTile_hasMembers]
  · rfl

@[simp] theorem State.pfFault_hasMembers (table area i : Nat) (c : Cause) : (s.pfFault t table area i c).HasMembers ms ↔ s.HasMembers ms := by
  unfold State.pfFault
  dsimp only
  split
  · rw [State.count_hasMembers, State.modPf_hasMembers, State.modTile_hasMembers]
  · rw [State.containWindow_hasMembers, State.raise_hasMembers, State.modPf_hasMembers, State.modTile_hasMembers]
  · rw [State.modPf_hasMembers, State.modTile_hasMembers]

@[simp] theorem State.pfLost_hasMembers (q : GatherReq) (c : Cause) : (s.pfLost t q c).HasMembers ms ↔ s.HasMembers ms := by simp [State.pfLost]

@[simp] theorem State.addWalk_hasMembers (va : Nat) (store : Bool) (seq : Option Nat) (pf : Bool) (tag : Option Nat) :
    (s.addWalk t va store seq pf tag).HasMembers ms ↔ s.HasMembers ms := by
  unfold State.addWalk
  split
  · rfl
  · exact (State.modTile_hasMembers t _).trans (State.count64_hasMembers _ _)

@[simp] theorem State.access_hasMembers (q : GatherReq) (pa : Nat) : (s.access t q pa).HasMembers ms ↔ s.HasMembers ms := by
  unfold State.access
  dsimp only
  split
  · split
    · rw [State.wroteReq_hasMembers, State.ite_hasMembers, State.pcieWrite_hasMembers, State.memWrite_hasMembers, ite_self]
    · exact (State.gotReq_hasMembers t _ _ _).trans (State.tileRead_hasMembers _ _)
  · split
    · exact (State.modReq_hasMembers t _ _).trans (State.sciWrite_hasMembers _ _ _ _)
    · exact (State.modReq_hasMembers t _ _).trans (State.sciRead_hasMembers _ _ _)
  · rfl

@[simp] theorem State.serveReq_hasMembers (q : GatherReq) : (s.serveReq t q).HasMembers ms ↔ s.HasMembers ms := by
  unfold State.serveReq
  split
  · exact State.dropReq_hasMembers t _
  split
  · simp
  · split <;> simp
  split
  · rfl
  split
  · exact State.landReq_hasMembers t _ _ _
  split
  · exact State.landReq_hasMembers t _ _ _
  dsimp only
  split
  · split <;> simp
  · split <;> simp
  · exact State.access_hasMembers t _ _

@[simp] theorem State.answerReq_hasMembers (q : GatherReq) (bad : Bool) (data : List Byte) :
    (s.answerReq t q bad data).HasMembers ms ↔ s.HasMembers ms := by
  unfold State.answerReq
  split
  · exact State.dropReq_hasMembers t _
  split
  · rw [State.count_hasMembers, State.dropReq_hasMembers]
  · split <;> simp
  · dsimp only
    rw [State.ite_hasMembers, State.gotReq_hasMembers, State.serveReq_hasMembers, State.modReq_hasMembers, ite_self]

@[simp] theorem State.issueReq_hasMembers (q : GatherReq) : (s.issueReq t q).HasMembers ms ↔ s.HasMembers ms := by
  unfold State.issueReq
  dsimp only
  split
  · exact State.modTile_hasMembers t _
  split
  · split
    · rw [State.modTile_hasMembers, State.badIndex_hasMembers]
    · rw [State.modTile_hasMembers, State.badIndex_hasMembers]
  · rw [State.modTile_hasMembers, State.ite_hasMembers, State.shardReq_hasMembers, ite_self]

@[simp] theorem State.fillDemand_hasMembers (k : Nat) : (s.fillDemand t k).HasMembers ms ↔ s.HasMembers ms := by
  induction k generalizing s with
  | zero => rfl
  | succ k ih =>
    unfold State.fillDemand
    split
    · rfl
    split
    · rw [ih, State.dropReq_hasMembers]
    split
    · rfl
    · rw [ih, State.issueReq_hasMembers]

@[simp] theorem State.fillPrefetch_hasMembers (k : Nat) : (s.fillPrefetch t k).HasMembers ms ↔ s.HasMembers ms := by
  induction k generalizing s with
  | zero => rfl
  | succ k ih =>
    unfold State.fillPrefetch
    split
    · rfl
    split
    · rfl
    dsimp only
    split
    · rw [ih, State.pfLanded_hasMembers, State.badIndex_hasMembers]
    split
    · rw [ih, State.pfLanded_hasMembers, State.badIndex_hasMembers]
    split
    · rfl
    · rw [ih, State.modTile_hasMembers, State.modPf_hasMembers, State.shardReq_hasMembers]

@[simp] theorem State.fillSlots_hasMembers : (s.fillSlots t).HasMembers ms ↔ s.HasMembers ms := by simp [State.fillSlots]

/-! ### Requests completed -/

@[simp] theorem State.loadLand_hasMembers (q : LoadReq) (bs : List Byte) (bad : Bool) : (s.loadLand t q bs bad).HasMembers ms ↔ s.HasMembers ms := by
  unfold State.loadLand
  extract_lets s1 s2 bs'
  have h2 : s2.HasMembers ms ↔ s.HasMembers ms := by simp [s2, s1]
  split
  · exact (State.count_hasMembers _ _).trans h2
  · split
    · exact (State.hoardFault_hasMembers t _ _ _).trans h2
    · exact (State.raiseC_hasMembers t _ _).trans h2
  · split
    · exact (State.modTile_hasMembers t _).trans h2
    · exact (State.modEntry_hasMembers t _ _).trans h2

@[simp] theorem State.loadAnswer_hasMembers (q : LoadReq) (status : Nat) (data : List Byte) :
    (s.loadAnswer t q status data).HasMembers ms ↔ s.HasMembers ms := by
  unfold State.loadAnswer
  split
  · dsimp only
    split
    · rw [State.hoardFault_hasMembers, State.modTile_hasMembers]
    · rw [State.raiseC_hasMembers, State.modTile_hasMembers]
  · rw [State.loadLand_hasMembers, State.ite_hasMembers, State.unitErr_hasMembers, ite_self]

@[simp] theorem State.gatherAnswer_hasMembers (q : GatherReq) (status : Nat) (data : List Byte) :
    (s.gatherAnswer t q status data).HasMembers ms ↔ s.HasMembers ms := by simp [State.gatherAnswer]

@[simp] theorem State.readDone_hasMembers (tag status : Nat) (data : List Byte) : (s.readDone tag status data).HasMembers ms ↔ s.HasMembers ms := by
  unfold State.readDone
  dsimp only
  split
  · exact (State.loadAnswer_hasMembers _ _ _ _).trans Iff.rfl
  split
  · exact (State.fillSlots_hasMembers _).trans (State.gatherAnswer_hasMembers _ _ _ _)
  · exact Iff.rfl

@[simp] theorem State.writeFault_hasMembers (tag : Nat) : (s.writeFault tag).HasMembers ms ↔ s.HasMembers ms := by
  unfold State.writeFault
  split
  · exact State.raiseC_hasMembers _ _ _
  split
  · exact (State.containWindow_hasMembers _).trans (State.raise_hasMembers _ _ _ _)
  · rfl

@[simp] theorem State.settleAllFences_hasMembers : s.settleAllFences.HasMembers ms ↔ s.HasMembers ms :=
  State.foldl_hasMembers _ _ (fun u t => u.settleFences_hasMembers t) s

@[simp] theorem State.writeDone_hasMembers (tag status : Nat) : (s.writeDone tag status).HasMembers ms ↔ s.HasMembers ms := by
  unfold State.writeDone
  extract_lets s1 s2 s3
  have h1 : s1.HasMembers ms ↔ s.HasMembers ms := by simp [s1]
  have h2 : s2.HasMembers ms ↔ s.HasMembers ms := h1
  have h3 : s3.HasMembers ms ↔ s.HasMembers ms := by
    unfold s3
    split
    · split
      · exact (State.dropReq_hasMembers _ _).trans h2
      split
      · exact (State.hoardFault_hasMembers _ _ _ _).trans ((State.dropReq_hasMembers _ _).trans h2)
      · exact (State.fillSlots_hasMembers _).trans ((State.wroteReq_hasMembers _ _).trans h2)
    · exact h2
  exact State.settleAllFences_hasMembers.trans h3

/-! ### What is sent -/

theorem State.routeOutbox_hasMembers : s.routeOutbox.HasMembers ms ↔ s.HasMembers ms := by
  unfold State.routeOutbox
  refine (State.foldl_hasMembers _ _ (fun u m => ?_) _).trans Iff.rfl
  dsimp only
  split
  · rfl
  split
  · exact u.modSci_hasMembers _ _
  split
  · rw [State.readDone_hasMembers, State.count_hasMembers]
  split
  · rw [State.writeDone_hasMembers, State.count_hasMembers, State.count_hasMembers]
  · exact u.count_hasMembers _ _

theorem LinkOnly.hasMembers {u : State} (h : LinkOnly s u) : u.HasMembers ms ↔ s.HasMembers ms := by
  unfold LinkOnly at h
  rw [h]
  rfl

@[simp] theorem State.sciPump_hasMembers : s.sciPump.HasMembers ms ↔ s.HasMembers ms :=
  (State.pumpPort_linkOnly _ 1).hasMembers.trans ((State.pumpPort_linkOnly _ 0).hasMembers.trans State.routeOutbox_hasMembers)

end

end Sys2Proof.Machine
end

section
/-! SUPPORT. Negotiation (R489, R490, R502, R503): the reasons for refusal in their order, a device assigned its number, and one refused. With them the
statement on link-control records. -/

namespace Sys2Proof.Machine

open Host

section
variable {s : State} {p : Fin 2} {l : LinkRec}

/-! ### The reasons for refusal (R503) -/

theorem State.refusal_revision (hops : Nat) (h : bitsN l.rev.toNat 7 4 ≠ 1 ∨ bitsN l.rev.toNat 3 0 < 2) : s.refusal p l hops = 1 := if_pos h

theorem State.refusal_classes (hops : Nat) (hmaj : bitsN l.rev.toNat 7 4 = 1) (hmin : 2 ≤ bitsN l.rev.toNat 3 0)
    (h : bitN l.classes.toNat 3 = false ∨ bitN l.classes.toNat 4 = false) : s.refusal p l hops = 2 :=
  (if_neg (by omega)).trans (if_pos (by simpa using h))

/-- A choice that ends in 0 has passed over a branch that does not. -/
theorem ite_eq_zero_of_ne {c : Prop} [Decidable c] {k x : Nat} (hk : k ≠ 0) (h : (if c then k else x) = 0) : ¬ c ∧ x = 0 := by
  split at h
  · exact absurd h hk
  · next hc => exact ⟨hc, h⟩

/-- A device that nothing refuses is near enough, and neither it nor its number is in the hitch already. -/
theorem State.refusal_none {hops : Nat} (h : s.refusal p l hops = 0) : hops ≤ 3 ∧ l.serial ≠ s.install.serial
    ∧ ∀ m ∈ s.hitch.members, m.attached = true → m.num ≠ wheelNumber p hops ∧ m.serial ≠ l.serial.toNat := by
  unfold State.refusal at h
  extract_lets n c us here at h
  obtain ⟨-, h⟩ := ite_eq_zero_of_ne (by decide) h
  obtain ⟨-, h⟩ := ite_eq_zero_of_ne (by decide) h
  obtain ⟨-, h⟩ := ite_eq_zero_of_ne (by decide) h
  obtain ⟨hserial, h⟩ := ite_eq_zero_of_ne (by decide) h
  obtain ⟨hnum, -⟩ := ite_eq_zero_of_ne (by decide) h
  rw [not_or] at hserial hnum
  have hhere : ∀ m ∈ s.hitch.members, m.attached = true → m ∈ here := fun m hm ha => List.mem_filter.2 ⟨hm, ha⟩
  refine ⟨Nat.not_lt.1 hnum.1, hserial.1, fun m hm ha => ⟨fun heq => hnum.2 ?_, fun heq => hserial.2 ?_⟩⟩
  · exact List.any_eq_true.2 ⟨m, hhere m hm ha, beq_iff_eq.2 heq⟩
  · exact List.any_eq_true.2 ⟨m, hhere m hm ha, beq_iff_eq.2 heq⟩

/-! ### CAP at the lead -/

/-- How far through a port of the lead the next device to be assigned is. -/
def State.nextHops (s : State) (p : Fin 2) : Nat := (s.hitch.members.filter (fun (m : Member) => m.attached && m.port == p)).length + 1

theorem State.recCap_lead (h2 : s.bit Reg.sciHitchStat 2 = true) : s.recCap p l = s.leadCap p l := if_pos h2

/-- A device not refused is a member to be attached, with its number; ASSIGN goes out to it. -/
theorem State.leadCap_assigned (h : s.refusal p l (s.nextHops p) = 0) :
    (∃ c, (⟨wheelNumber p (s.nextHops p), l.serial.toNat, c, p, s.nextHops p, false⟩ : Member) ∈ (s.leadCap p l).hitch.members)
      ∧ (s.leadCap p l).regs = s.regs ∧ (s.leadCap p l).hitch.ports[p].ctl.length = s.hitch.ports[p].ctl.length + 1 := by
  unfold State.leadCap
  extract_lets hops why s1 s2 n agreed read m s3
  have hwhy : why = 0 := h
  rw [if_neg (by rw [hwhy]; decide), State.sendRec]
  refine ⟨⟨agreed.toNat, List.mem_append_right _ (List.mem_singleton.2 rfl)⟩, rfl, ?_⟩
  rw [State.modSci_self]
  exact List.length_append

/-- The lead's state once a refusal is sent, counted and logged. -/
def State.refused (s : State) (p : Fin 2) (l : LinkRec) : State :=
  let why := s.refusal p l (s.nextHops p)
  ((s.sendRec p 4 { l with reason := BitVec.ofNat 8 why }).count Cnt.sciCntRefuse).logEvent 0x50 pkgUnit 0
    (1 + 2 ^ 8 * p.val + 2 ^ 12 * why + 2 ^ 32 * (l.serial.toNat % 2 ^ 32))

theorem State.leadCap_refused (h : s.refusal p l (s.nextHops p) ≠ 0) :
    s.leadCap p l = if (s.refused p l).sciSt p = 6 then (s.refused p l).sciPump.setSciSt p 9 else s.refused p l := if_pos h

theorem sciState_apart : ∀ q : Fin 2, Reg.sciState q ∉ ctrWords Cnt.sciCntRefuse ∧ 0xC0000 ≤ Reg.sciState q := by decide

/-- The refusal leaves the link's state to what follows. -/
theorem State.sciSt_refused : (s.refused p l).sciSt p = s.sciSt p := by
  obtain ⟨hapart, hevt⟩ := sciState_apart p
  unfold State.refused State.sciSt State.fld
  dsimp only
  rw [State.logEvent_evtOnly _ _ _ _ _ _ (.inr hevt), State.count_kept _ _ _ _ hapart]
  rfl

theorem State.setSciSt_hasMembers {ms : List Member} (v : Nat) : (s.setSciSt p v).HasMembers ms ↔ s.HasMembers ms :=
  (s.setSciSt_linkOnly p v).hasMembers

/-- A device refused: its link is held, and the members stay. -/
theorem State.leadCap_held (h : s.refusal p l (s.nextHops p) ≠ 0) :
    (s.sciSt p = 6 → (s.leadCap p l).sciSt p = 9) ∧ (s.leadCap p l).hitch.members = s.hitch.members := by
  have hmem : (s.refused p l).HasMembers s.hitch.members :=
    (State.logEvent_hasMembers _ _ _ _).2 ((State.count_hasMembers _ _).2 ((State.modSci_hasMembers p _).2 rfl))
  rw [State.leadCap_refused h, State.sciSt_refused]
  refine ⟨fun h6 => ?_, ?_⟩
  · rw [if_pos h6]
    exact State.sciSt_setSciSt _ _ (by decide)
  · split
    · exact (State.setSciSt_hasMembers 9).2 (State.sciPump_hasMembers.2 hmem)
    · exact hmem

/-! ### DETACH told to a wheel -/

theorem LinkOnly.up {u : State} (h : LinkOnly s u) : u.hitch.up = s.hitch.up := by
  unfold LinkOnly at h
  rw [h]

theorem State.rd_setSciSt_ne {o : Nat} (v : Nat) (h : o ≠ Reg.sciState p) : (s.setSciSt p v).rd o = s.rd o := by
  unfold State.setSciSt
  split
  · rfl
  · exact State.rd_put_ne s _ h

theorem State.fld_setHitchStat (v : Nat) : (s.setHitchStat v).fld Reg.sciHitchStat 15 0 = v % 2 ^ 16 := by
  unfold State.setHitchStat
  dsimp only
  split
  · next h => exact h
  · rw [State.fld, State.rd_put_self]
    simp only [bitsN, Nat.shiftRight_zero]
    omega

theorem sciWords_apart : ∀ q : Fin 2, Reg.sciHitchStat ≠ Reg.sciState q ∧ Reg.sciHitchStat ≠ Reg.sciPeerCap q ∧ Reg.sciHitchStat ≠ Reg.sciRoute q
    ∧ Reg.sciRoute q ≠ Reg.sciState q ∧ Reg.sciRoute q ≠ Reg.sciPeerCap q := by decide

/-- A wheel that has left the hitch has no member, no lead and no route, and its link negotiates anew. -/
theorem State.leftHitch_spec : (s.leftHitch p).fld Reg.sciHitchStat 15 0 = 0 ∧ (s.leftHitch p).hitch.up = none
    ∧ (s.leftHitch p).rd (Reg.sciRoute p) = 0 ∧ (s.leftHitch p).sciSt p = 6 := by
  obtain ⟨h1, h2, h3, h4, h5⟩ := sciWords_apart p
  unfold State.leftHitch
  dsimp only
  refine ⟨?_, ?_, ?_, State.sciSt_setSciSt _ _ (by decide)⟩
  · rw [State.fld, State.rd_setSciSt_ne 6 h1, State.rd_put_ne _ _ h2, State.rd_put_ne _ _ h3]
    exact State.fld_setHitchStat 0
  · exact (State.setSciSt_linkOnly _ p 6).up
  · rw [State.rd_setSciSt_ne 6 h4, State.rd_put_ne _ _ h5, State.rd_put_self]
    rfl

end

/-- Settles O57: the handling of each record, with the law of the lead's and the wheel's part in it. -/
theorem sciRecords : Obligations.SciRecords := by
  intro s p l
  refine ⟨fun hon hst d x hx => ?_, fun h2 hup => ?_, fun h2 => ?_, fun hup d => ?_, fun hup d => if_pos hup, fun h2 hup hn => ?_⟩
  case refine_1 =>
    simp only [List.mem_cons, List.not_mem_nil, or_false] at hx
    rcases hx with rfl | rfl | rfl | rfl | rfl | rfl
    · exact exec_cap_on hon hst l
    · exact exec_assign_on hon hst l
    · exact exec_accept_on hon hst l
    · exact exec_refuse_on hon hst l
    · exact exec_time_on hon hst l d
    · exact exec_detach_on hon hst l
  case refine_2 =>
    rw [State.recCap, if_neg (by rw [h2]; decide), hup]
  case refine_3 =>
    rw [State.recCap_lead h2]
    refine ⟨fun h => ?_, State.leadCap_held, State.refusal_revision _, State.refusal_classes _, State.refusal_none⟩
    obtain ⟨⟨c, hm⟩, hregs, hctl⟩ := State.leadCap_assigned h
    exact ⟨_, hm, rfl, rfl, rfl, rfl, rfl, hregs, hctl⟩
  case refine_4 =>
    obtain ⟨htime, hmem, -, hnum, -, -⟩ := State.recTime_frame (l := l) (d := d) hup
    refine ⟨htime, hmem, hnum, State.recTime_boundary hup, fun h => ?_, fun h hrun horig hlast => ?_⟩
    · rw [State.recTime_noBoundary hup h]
      rfl
    · rw [(State.recTime_running hup h hrun).2.2]
      exact if_neg (by rw [horig]; simpa using hlast)
  case refine_5 =>
    rw [State.recDetach_own h2 hup hn]
    exact State.leftHitch_spec

end Sys2Proof.Machine
end
